-- ==== Sys2Proof/Word.lean ====
section
/-! DEFINITION. The word types of the SHARC+ core and their plainest arithmetic (spec/00_scope.md R10, R14, R16). -/

namespace Sys2Proof

/-- A 32-bit universal register, index register or normal word. -/
abbrev Word := BitVec 32

/-- A 40-bit data register: bits 39:8 are the 32-bit field, bits 7:0 the extension (R14, R41). -/
abbrev Reg40 := BitVec 40

/-- An 80-bit multiplier result register (R50). -/
abbrev Acc80 := BitVec 80

/-- A byte of memory. -/
abbrev Byte := BitVec 8

/-- A 16-bit parcel of VISA code, or a short word (R10). -/
abbrev Parcel := BitVec 16

/-- A 24-bit instruction address (R60). -/
abbrev IAddr := BitVec 24

/-- A 48-bit instruction word, or an instruction-width data word (R10). -/
abbrev Word48 := BitVec 48

/-- A long word (R10). -/
abbrev Long := BitVec 64

/-- The number of one of sixteen registers of a class. -/
abbrev RegNo := BitVec 4

/-- The number of a register inside one address generator, 0..7 (R413). -/
abbrev DagNo := BitVec 3

/-- The index of a register pair: pair p is registers 2p+1 : 2p (R432, DBLREG3). -/
abbrev Pair := BitVec 3

/-- Bit `i` of `x` as a Bool. -/
abbrev bitAt {n : Nat} (x : BitVec n) (i : Nat) : Bool := x.getLsbD i

/-- One bit as a Bool. -/
abbrev boolBit (b : Bool) : BitVec 1 := BitVec.ofBool b

/-- The bits `hi` down to `lo` of `x`. -/
abbrev field {n : Nat} (hi lo : Nat) (x : BitVec n) : BitVec (hi - lo + 1) := x.extractLsb hi lo

end Sys2Proof
end

