-- ==== Sys2Proof/Config.lean ====
section
/-! DEFINITION. The parameters of spec/93_implementation_defined.md section 5 and the free values of its section 1 to 4.
A parameter the spec leaves to the product takes the value of one product family, PRESUMED ADSP-2156x (log 1); a free
value is an `opaque` constant without a body, so that no proof can see it (log 6). -/

namespace Sys2Proof.Config

/-- The four address spaces of R255. -/
inductive Space
  | lw | nw | sw | bw
  deriving DecidableEq, Repr

/-- What a populated address belongs to (R262, R346): an L1 block, L2 or L3 memory, a system memory-mapped register, or
another target behind the system crossbar (peripherals, multi-memory space). -/
inductive Target
  | l1 (block : Fin 4)
  | l2
  | l3
  | smmr
  | device
  deriving DecidableEq, Repr

/-- What the core presents on the system crossbar to targets other than L2 and L3, to the event controller, and on the timer's
TMREXP pin (R346, R1057, R1071, R1176): the outputs of this model. -/
inductive BusEvent
  | read (addr bytes : Nat)
  | write (addr bytes value : Nat)
  | secAck
  | timerExpired
  deriving DecidableEq, Repr

/-- One contiguous alias range (R255, D1): `count` units from address `base`, standing for the bytes from `phys` on. -/
structure Region where
  target : Target
  space : Space
  base : Nat
  count : Nat
  phys : Nat
  deriving DecidableEq, Repr

/-- Bytes of one unit of a space (R255). -/
def Space.unit : Space → Nat
  | .lw => 8
  | .nw => 4
  | .sw => 2
  | .bw => 1

/-- Bytes of physical storage of a region. -/
def Region.bytes (r : Region) : Nat := r.count * r.space.unit

/-- L1_BLOCK_SIZE in bytes (R252). PRESUMED (log 1). -/
def blockSize : Fin 4 → Nat
  | 0 => 0x30000
  | 1 => 0x30000
  | 2 => 0x20000
  | 3 => 0x20000

/-- BWBASE (R255); the other three bases are BWBASE/2, /4 and /8. PRESUMED (log 1). -/
def blockBase : Fin 4 → Nat
  | 0 => 0x240000
  | 1 => 0x2C0000
  | 2 => 0x300000
  | 3 => 0x380000

/-- The four aliases of one L1 block (R255, R256). -/
def blockRegions (b : Fin 4) : List Region :=
  [Space.bw, .nw, .sw, .lw].map fun sp =>
    { target := .l1 b, space := sp, base := blockBase b / sp.unit, count := blockSize b / sp.unit, phys := blockBase b }

/-- L2_RANGE and L3_RANGE with their byte, normal-word and short-word aliases (R255, R346, R347). The alias bases are the
addresses R322 prints for the interrupt vector tables. PRESUMED (log 1). -/
def externalRegions : List Region :=
  [ { target := .l2, space := .bw, base := 0x20000000, count := 0x100000, phys := 0x20000000 },
    { target := .l2, space := .nw, base := 0x500000, count := 0x40000, phys := 0x20000000 },
    { target := .l2, space := .sw, base := 0xA00000, count := 0x80000, phys := 0x20000000 },
    { target := .l3, space := .bw, base := 0x80000000, count := 0x40000000, phys := 0x80000000 },
    { target := .l3, space := .nw, base := 0x400000, count := 0x100000, phys := 0x80000000 },
    { target := .l3, space := .sw, base := 0x800000, count := 0x200000, phys := 0x80000000 } ]

/-- The byte ranges of R346's other targets: multi-memory space, system MMRs, memory-mapped peripherals. PRESUMED (log 1). -/
def deviceRegions : List Region :=
  [ { target := .device, space := .bw, base := 0x28000000, count := 0x1000000, phys := 0x28000000 },
    { target := .smmr, space := .bw, base := 0x30000000, count := 0x10000000, phys := 0x30000000 },
    { target := .device, space := .bw, base := 0x60000000, count := 0x20000000, phys := 0x60000000 } ]

/-- Every populated range but CMMR_RANGE. -/
def regions : List Region :=
  blockRegions 0 ++ blockRegions 1 ++ blockRegions 2 ++ blockRegions 3 ++ externalRegions ++ deviceRegions

/-- CMMR_RANGE (R319): word addresses from 0x30000 to 0x3FFFF. PRESUMED (log 1). -/
def inCmmrRange (a : Nat) : Bool := 0x30000 ≤ a && a < 0x40000

/-- IVT_BASE_L1 (R322, R1034). -/
def ivtBaseL1 : IAddr := 0x90000#24
/-- IVT_BASE_L2 (R322, R1034). -/
def ivtBaseL2 : IAddr := 0x500000#24
/-- IVT_BASE_L3 (R322, R1034). -/
def ivtBaseL3 : IAddr := 0x400000#24
/-- RESET_VECTOR (R93, R1202): the RSTI slot of the default vector table. DESIGN CHOICE (log 2). -/
def resetVector : IAddr := 0x500004#24
/-- EXCL_GRANULE in bytes (R337). DESIGN CHOICE (log 15). -/
def exclGranule : Nat := 8
/-- CORE_ID (R1178). PRESUMED (log 1). -/
def coreId : Word := 0#32
/-- CORE_REVID (R1179). PRESUMED (log 1). -/
def coreRevid : Word := 0#32
/-- CORE_SECURE (R1064): the security status the environment gives the core. Nothing inside the core reads it. -/
opaque coreSecure : Bool
/-- The address of REG_MISCREG_PFB_RANGE_SELECT, which the source does not give (R380, N26). DESIGN CHOICE (log 51). -/
def pfbRangeAddr : Nat := 0x3B102

/-! Free values (log 6). The argument of each is the free-value counter of State, so that two uses are independent. -/

/-- FADDR, DADDR, the pipeline stage-address registers, MODE1STK of an empty stack, LCNTR of a full loop stack, the
data of a failed exclusive load, the entry a PUSH leaves (U13, U16, U19, U20, U48). -/
opaque freeWord : Nat → Word
/-- The multiplier result register after a 64-bit multiply (U33). -/
opaque freeAcc : Nat → Acc80
/-- BFF, and Rn, after a bit-FIFO overflow or underflow; stale positions of a deposit (U34). -/
opaque freeLong : Nat → Long
/-- A value bit the spec leaves open: FLGk written with its direction (U29), the choice of a view (U16). -/
opaque freeBit : Nat → Bool
/-- The core clock cycles of one step, less one (R1071, D55). -/
opaque freeCycles : Nat → Nat
/-- What RECIPS_ROM may hold (R810, U57): the 31-bit fraction a 7-bit index selects, before its accuracy is asked for. -/
opaque recipsAny : BitVec 7 → BitVec 31
/-- What RSQRTS_ROM may hold (R811, U57). -/
opaque rsqrtsAny : BitVec 7 → BitVec 31
/-- `sysRead` of R346 (U55), the host's hook: what a target other than L2 and L3 answers to a read of `bytes` bytes, after
the accesses presented before it. -/
opaque sysRead : (draw : Nat) → (before : List BusEvent) → (addr bytes : Nat) → Long

/-- Half of a reciprocal seed of fraction `v` times the inputs of index `k`, from 1 + k/128 to 1 + (k+1)/128, is within
2^-8 of 1 (R810), in units of 2^-39. -/
def recipsAccurate (k : BitVec 7) (v : BitVec 31) : Bool :=
  let m := 2 ^ 31 + v.toNat
  decide (2 ^ 39 - 2 ^ 31 ≤ m * (128 + k.toNat) ∧ m * (129 + k.toNat) ≤ 2 ^ 39 + 2 ^ 31)

/-- RECIPS_ROM (R810, U57): any table of 8-bit accuracy. -/
def recipsRom (k : BitVec 7) : BitVec 31 :=
  if recipsAccurate k (recipsAny k) then recipsAny k else BitVec.ofNat 31 (2 ^ 40 / (257 + 2 * k.toNat))

/-- The square of a seed of fraction `v` times the inputs of index `k` is within the squares of 1 - 2^-4 and 1 + 2^-4
(R811): the top bit of the index tells an even from an odd exponent, the rest gives the fraction. -/
def rsqrtsAccurate (k : BitVec 7) (v : BitVec 31) : Bool :=
  let m := 2 ^ 31 + v.toNat
  let z := if k.getLsbD 6 then 1 else 2
  let f := (k.extractLsb' 0 6).toNat
  decide (225 * 2 ^ 62 ≤ m * m * z * (64 + f) ∧ m * m * z * (65 + f) ≤ 289 * 2 ^ 62)

/-- RSQRTS_ROM (R811, U57): any table of 4-bit accuracy. -/
def rsqrtsRom (k : BitVec 7) : BitVec 31 :=
  if rsqrtsAccurate k (rsqrtsAny k) then rsqrtsAny k
  else
    let f := (k.extractLsb' 0 6).toNat
    BitVec.ofNat 31 (if k.getLsbD 6 then 2 ^ 32 - 75 * (2 * f + 1) * 2 ^ 17 else 181 * 2 ^ 24 - 53 * (2 * f + 1) * 2 ^ 17)

end Sys2Proof.Config
end

