-- ==== Sys2Proof/Syntax.lean ====
section
/-! DEFINITION. The instruction set as syntax: one constructor of `Instr` for each row of spec/opcode_table.json.
Field meanings follow spec/30_encoding.md R410 to R450 and the type rules of files 40 to 43. -/

namespace Sys2Proof

/-- The 32 condition codes (R75), in code order: `eq` is 00000, `true_` is 11111. Read as a DO UNTIL termination,
`notLce` is LCE and `true_` is FOREVER. -/
inductive Cond
  | eq | lt | le | ac | av | mv | ms | sv | sz | flag0 | flag1 | flag2 | flag3 | tf | sf | notLce
  | ne | ge | gt | notAc | notAv | notMv | notMs | notSv | notSz
  | notFlag0 | notFlag1 | notFlag2 | notFlag3 | notTf | notSf | true_
  deriving DecidableEq, Repr

/-- The sixteen system registers (R431), in code order. -/
inductive SysReg
  | ustat1 | ustat2 | mode1 | mmask | mode2 | flags | astatx | astaty
  | stkyx | stkyy | irptl | imask | imaskp | mode1stk | ustat3 | ustat4
  deriving DecidableEq, Repr

/-- The universal registers (R430). -/
inductive UReg
  | r (n : RegNo) | i (n : RegNo) | m (n : RegNo) | l (n : RegNo) | b (n : RegNo) | s (n : RegNo)
  | faddr | daddr | pc | pcstk | pcstkp | laddr | curlcntr | lcntr | emuclk | emuclk2
  | px | px1 | px2 | tperiod | tcount
  | sys (r : SysReg)
  deriving DecidableEq, Repr

/-- The access-size modifier of a memory move (R264). -/
inductive Size
  | none | bw | bwse | sw | swse | lw
  deriving DecidableEq, Repr

/-- The scaling flag of MODIFY (R276, R531). -/
inductive Scale
  | none | sw | nw
  deriving DecidableEq, Repr

/-- The modifiers a JUMP may carry: the six jump rows of the JUMP table (R577). -/
inductive JumpMods
  | none | ci | db | dbCi | la | dbLa
  deriving DecidableEq, Repr

/-- The eight rows of the JUMP table (R577), as Type 9b encodes them (R579). -/
inductive BranchKind
  | jump (mods : JumpMods)
  | call (db : Bool)
  deriving DecidableEq, Repr

/-- The six rows of the RETURN table (R581), as Type 11c encodes them (R582). -/
inductive ReturnKind
  | rts (db lr : Bool)
  | rti (db : Bool)
  deriving DecidableEq, Repr

/-- The target of a Type 9b branch (R579). -/
inductive ShortTarget
  | indirect (md ic : DagNo)
  | pcRel (off : BitVec 6)
  deriving DecidableEq, Repr

/-- MOD1 of a fixed-point multiply (R445): signedness of the Y and X input, fraction or integer, rounding. -/
structure MulMod where
  ySigned : Bool
  xSigned : Bool
  frac : Bool
  round : Bool
  deriving DecidableEq, Repr

/-- The six parts of MRF and MRB that an MR transfer names (R432, R446). -/
inductive MrPart
  | mr0f | mr1f | mr2f | mr0b | mr1b | mr2b
  deriving DecidableEq, Repr

/-- Two-input fixed-point ALU operations (44_alu_fixed.md). -/
inductive FixOp2
  | add | sub | addCi | subCi | avg | and | or | xor | min | max | clip
  deriving DecidableEq, Repr

/-- One-input fixed-point ALU operations (44_alu_fixed.md). -/
inductive FixOp1
  | plusCi | plusCiMinus1 | inc | dec | neg | abs | pass | not
  deriving DecidableEq, Repr

/-- Two-input 32/40-bit floating-point ALU operations (45_alu_float.md). -/
inductive FltOp2
  | add | sub | absAdd | absSub | avg | scalb | fixBy | truncBy | floatBy | copysign | min | max | clip
  deriving DecidableEq, Repr

/-- One-input 32/40-bit floating-point ALU operations (45_alu_float.md). -/
inductive FltOp1
  | neg | abs | pass | rnd | mant | logb | fix | trunc | float | recips | rsqrts
  deriving DecidableEq, Repr

/-- One-input 64-bit floating-point ALU operations with a 64-bit result (46_alu_float64.md). -/
inductive DblOp1
  | neg | abs | pass
  deriving DecidableEq, Repr

/-- What a multiply with a data-register result adds its product to (R892, R895, R897); `bg` picks MRB over MRF. -/
inductive MulAcc
  | clear
  | add (bg : Bool)
  | sub (bg : Bool)
  deriving DecidableEq, Repr

/-- What a multiply with an MR result does to that register (R893, R894, R896, R898). -/
inductive MrAcc
  | clear | add | sub
  deriving DecidableEq, Repr

/-- Shifter operations on Rn, Rx and a shift count or bit number (48_shifter.md). -/
inductive ShiftOp
  | lshift | orLshift | ashift | orAshift | rot | bset | bclr | btgl
  deriving DecidableEq, Repr

/-- Field deposit and extract operations (48_shifter.md). -/
inductive FieldOp
  | fdep | orFdep | fdepSE | orFdepSE | fext | fextSE
  deriving DecidableEq, Repr

/-- One-input shifter operations (48_shifter.md). -/
inductive ShiftOp1
  | exp | expEx | leftz | lefto | fpack | funpack
  deriving DecidableEq, Repr

/-- The ALU half of a fixed-point multifunction operation (R1008). -/
inductive MfFixAlu
  | add | sub | avg
  deriving DecidableEq, Repr

/-- The multiplier half of a fixed-point multifunction operation that writes Rm (R1008). -/
inductive MfFixMul
  | mul | addRm | subRm
  deriving DecidableEq, Repr

/-- The ALU half of a floating-point multifunction operation (R1009). -/
inductive MfFltAlu
  | add | sub | floatBy | fixBy | avg | abs | max | min
  deriving DecidableEq, Repr

/-- The four restricted source fields of a multifunction operation (R444): Rxm = R3-0, Rym = R7-4, Rxa = R11-8,
Rya = R15-12. -/
structure MfIn where
  xm : BitVec 2
  ym : BitVec 2
  xa : BitVec 2
  ya : BitVec 2
  deriving DecidableEq, Repr

/-- The four restricted pair fields of a 64-bit multifunction operation (R432, R444): x in F1:0, F3:2; z in F5:4,
F7:6; p in F9:8, F11:10; r in F13:12, F15:14. -/
structure MfDblIn where
  x : BitVec 1
  z : BitVec 1
  p : BitVec 1
  r : BitVec 1
  deriving DecidableEq, Repr

/-- One computation: what a 23-bit compute field names (R440 to R446). `none` is the field of zeros (R411). -/
inductive Compute
  | none
  | fix2 (op : FixOp2) (rn rx ry : RegNo)
  | fix1 (op : FixOp1) (rn rx : RegNo)
  | fixComp (unsigned : Bool) (rx ry : RegNo)
  | flt2 (op : FltOp2) (rn rx ry : RegNo)
  | flt1 (op : FltOp1) (rn rx : RegNo)
  | fltComp (rx ry : RegNo)
  | dbl2 (sub : Bool) (m x z : Pair)
  | dblComp (x z : Pair)
  | dbl1 (op : DblOp1) (m x : Pair)
  | dblToInt (trunc : Bool) (rn : RegNo) (x : Pair)
  | dblToIntBy (trunc : Bool) (rn : RegNo) (x : Pair) (ry : RegNo)
  | dblFloat (m : Pair) (rx : RegNo)
  | dblFloatBy (m : Pair) (rx ry : RegNo)
  | dblFromFlt (m : Pair) (rx : RegNo)
  | fltFromDbl (rn : RegNo) (x : Pair)
  | dblScalb (m x : Pair) (ry : RegNo)
  | fixAddSub (ra rs rx ry : RegNo)
  | fltAddSub (ra rs rx ry : RegNo)
  | mulRn (acc : MulAcc) (mod : MulMod) (rn rx ry : RegNo)
  | mulMr (bg : Bool) (acc : MrAcc) (mod : MulMod) (rx ry : RegNo)
  | rndRn (bg sgn : Bool) (rn : RegNo)
  | rndMr (bg sgn : Bool)
  | satRn (bg frac sgn : Bool) (rn : RegNo)
  | satMr (bg frac sgn : Bool)
  | clrMr (bg : Bool)
  | readMr (part : MrPart) (rn : RegNo)
  | writeMr (part : MrPart) (rn : RegNo)
  | fltMul (rn rx ry : RegNo)
  | dblMul (m x z : Pair)
  | dblMulFlt (m x : Pair) (ry : RegNo)
  | dblMulFlt2 (m : Pair) (rx ry : RegNo)
  | shift (op : ShiftOp) (rn rx ry : RegNo)
  | btst (rx ry : RegNo)
  | fieldOp (op : FieldOp) (rn rx ry : RegNo)
  | shift1 (op : ShiftOp1) (rn rx : RegNo)
  | bitdep (rx ry : RegNo)
  | bitext (nu : Bool) (rn rx : RegNo)
  | setBffwrp (rn : RegNo)
  | getBffwrp (rn : RegNo)
  | mfFix (mu : MfFixMul) (alu : MfFixAlu) (rm ra : RegNo) (q : MfIn)
  | mfMac (sub : Bool) (alu : MfFixAlu) (ra : RegNo) (q : MfIn)
  | mfFlt (alu : MfFltAlu) (rm ra : RegNo) (q : MfIn)
  | mfFixAddSub (rm ra rs : RegNo) (q : MfIn)
  | mfFltAddSub (rm ra rs : RegNo) (q : MfIn)
  | mfDbl (sub : Bool) (m a : Pair) (q : MfDblIn)
  deriving DecidableEq, Repr

/-- One immediate shift: what the shift-immediate field and `dataex` of a Type 6a word name (R448). -/
inductive ShiftImm
  | shift (op : ShiftOp) (rn rx : RegNo) (data : Byte)
  | btst (rx : RegNo) (data : Byte)
  | fieldOp (op : FieldOp) (rn rx : RegNo) (bit6 len6 : BitVec 6)
  | bitdep (rx : RegNo) (len : BitVec 12)
  | bitext (nu : Bool) (rn : RegNo) (len : BitVec 12)
  | setBffwrp (data : BitVec 7)
  deriving DecidableEq, Repr

/-- The sixteen short computes (R447), in code order. -/
inductive ShortOp
  | add | sub | pass | comp | not | inc | dec | mul | fltAdd | fltSub | float | fltComp | and | or | xor | fltMul
  deriving DecidableEq, Repr

/-- One instruction, one constructor for each row of spec/opcode_table.json. A row of format COMPUTE23 or SHIFTIMM23
is the instruction whose only part is that operation (Type 2a or Type 6a with condition TRUE). -/
inductive Instr
  /-- Type 1a: compute with a DM and a PM move (R510, table row 0). -/
  | computeDualMove (c : Compute) (dmStore : Bool) (dmi dmm : DagNo) (dmReg : RegNo) (pmStore : Bool) (pmi pmm : DagNo) (pmReg : RegNo)
  /-- Type 2a: conditional compute (R512, table row 1). -/
  | ifCompute (cond : Cond) (c : Compute)
  /-- Type 3a, load: universal register and memory, register modifier, with compute (R515, table row 2). -/
  | loadUreg (cond : Cond) (c : Compute) (post pm : Bool) (i m : DagNo) (long : Bool) (reg : UReg)
  /-- Type 3a, store: universal register and memory, register modifier, with compute (R515, table row 3). -/
  | storeUreg (cond : Cond) (c : Compute) (post pm : Bool) (i m : DagNo) (long : Bool) (reg : UReg)
  /-- Type 3d, load: sub-word or exclusive universal-register move (R518, table row 4). -/
  | loadUregSized (cond : Cond) (post pm : Bool) (i m : DagNo) (reg : UReg) (size : Size) (ex : Bool)
  /-- Type 3d, store: sub-word or exclusive universal-register move (R518, table row 5). -/
  | storeUregSized (cond : Cond) (post pm : Bool) (i m : DagNo) (reg : UReg) (size : Size) (ex : Bool)
  /-- Type 4a, load: data register and memory, 6-bit modifier, with compute (R520, table row 6). -/
  | loadDregImm (cond : Cond) (c : Compute) (pm : Bool) (i : DagNo) (post : Bool) (data : BitVec 6) (reg : RegNo)
  /-- Type 4a, store: data register and memory, 6-bit modifier, with compute (R520, table row 7). -/
  | storeDregImm (cond : Cond) (c : Compute) (pm : Bool) (i : DagNo) (post : Bool) (data : BitVec 6) (reg : RegNo)
  /-- Type 4d, load: sub-word data-register move, 6-bit modifier (R522, table row 8). -/
  | loadDregImmSized (cond : Cond) (pm : Bool) (i : DagNo) (post : Bool) (data : BitVec 6) (reg : RegNo) (size : Size)
  /-- Type 4d, store: sub-word data-register move, 6-bit modifier (R522, table row 9). -/
  | storeDregImmSized (cond : Cond) (pm : Bool) (i : DagNo) (post : Bool) (data : BitVec 6) (reg : RegNo) (size : Size)
  /-- Type 5a: register move with compute (R524, table row 10). -/
  | moveUreg (cond : Cond) (c : Compute) (dst src : UReg)
  /-- Type 5a: swap R[reg] <-> S[creg] with compute (R526, table row 11). -/
  | swapDreg (cond : Cond) (c : Compute) (reg creg : RegNo)
  /-- Type 6a with memory, load over DM: immediate shift and data-register move (R529, table row 12). -/
  | shiftImmLoadDM (cond : Cond) (sh : ShiftImm) (i m : DagNo) (reg : RegNo)
  /-- Type 6a with memory, store over DM: immediate shift and data-register move (R529, table row 13). -/
  | shiftImmStoreDM (cond : Cond) (sh : ShiftImm) (i m : DagNo) (reg : RegNo)
  /-- Type 6a with memory, load over PM: immediate shift and data-register move (R529, table row 14). -/
  | shiftImmLoadPM (cond : Cond) (sh : ShiftImm) (i m : DagNo) (reg : RegNo)
  /-- Type 6a with memory, store over PM: immediate shift and data-register move (R529, table row 15). -/
  | shiftImmStorePM (cond : Cond) (sh : ShiftImm) (i m : DagNo) (reg : RegNo)
  /-- Type 6a without memory: conditional immediate shift (R530, table row 16). -/
  | ifShiftImm (cond : Cond) (sh : ShiftImm)
  /-- Type 7a: I[dst] = MODIFY(I[src], M[m]) with compute (R531, table row 17). -/
  | modify (cond : Cond) (c : Compute) (pm : Bool) (src dst m : DagNo) (scale : Scale)
  /-- Type 7d: B2W or W2B of an I or B register with compute (R533, table row 18). -/
  | convertAddr (cond : Cond) (c : Compute) (pm : Bool) (src dst : DagNo) (toByte breg : Bool)
  /-- Type 8a: JUMP addr24 (R577, table row 19). -/
  | jumpDirect (cond : Cond) (addr : IAddr) (mods : JumpMods)
  /-- Type 8a: JUMP (PC, reladdr24) (R577, table row 20). -/
  | jumpPcRel (cond : Cond) (off : IAddr) (mods : JumpMods)
  /-- Type 8a: CALL addr24 (R577, table row 21). -/
  | callDirect (cond : Cond) (addr : IAddr) (db : Bool)
  /-- Type 8a: CALL (PC, reladdr24) (R577, table row 22). -/
  | callPcRel (cond : Cond) (off : IAddr) (db : Bool)
  /-- Type 9a: JUMP (Md, Ic) with compute or ELSE compute (R578, table row 23). -/
  | jumpIndirect (cond : Cond) (md ic : DagNo) (mods : JumpMods) (els : Bool) (c : Compute)
  /-- Type 9a: JUMP (PC, reladdr6) with compute or ELSE compute (R578, table row 24). -/
  | jumpPcRel6 (cond : Cond) (off : BitVec 6) (mods : JumpMods) (els : Bool) (c : Compute)
  /-- Type 9a: CALL (Md, Ic) with compute or ELSE compute (R578, table row 25). -/
  | callIndirect (cond : Cond) (md ic : DagNo) (db els : Bool) (c : Compute)
  /-- Type 9a: CALL (PC, reladdr6) with compute or ELSE compute (R578, table row 26). -/
  | callPcRel6 (cond : Cond) (off : BitVec 6) (db els : Bool) (c : Compute)
  /-- Type 10a: IF cond JUMP (Md, Ic), ELSE compute and DM load (R580, table row 27). -/
  | jumpIndirectElseLoad (cond : Cond) (md ic : DagNo) (c : Compute) (i m : DagNo) (reg : RegNo)
  /-- Type 10a: IF cond JUMP (Md, Ic), ELSE compute and DM store (R580, table row 28). -/
  | jumpIndirectElseStore (cond : Cond) (md ic : DagNo) (c : Compute) (i m : DagNo) (reg : RegNo)
  /-- Type 10a: IF cond JUMP (PC, reladdr6), ELSE compute and DM load (R580, table row 29). -/
  | jumpPcRelElseLoad (cond : Cond) (off : BitVec 6) (c : Compute) (i m : DagNo) (reg : RegNo)
  /-- Type 10a: IF cond JUMP (PC, reladdr6), ELSE compute and DM store (R580, table row 30). -/
  | jumpPcRelElseStore (cond : Cond) (off : BitVec 6) (c : Compute) (i m : DagNo) (reg : RegNo)
  /-- Type 11a: RTS (R581, table row 31). -/
  | rts (cond : Cond) (db lr els : Bool) (c : Compute)
  /-- Type 11a: RTI (R581, table row 32). -/
  | rti (cond : Cond) (db els : Bool) (c : Compute)
  /-- Type 12a: LCNTR = data16, DO UNTIL LCE (R583, table row 33). -/
  | doCounterImm (count : Parcel) (off : BitVec 23) (f1 : Bool)
  /-- Type 12a: LCNTR = ureg, DO UNTIL LCE (R584, table row 34). -/
  | doCounterUreg (reg : UReg) (off : BitVec 23) (f1 : Bool)
  /-- Type 13a: DO UNTIL termination (R585, table row 35). -/
  | doUntil (term : Cond) (off : BitVec 23) (f1 : Bool)
  /-- Type 14a, load: universal register, direct address (R622, table row 36). -/
  | loadUregDirect (pm long : Bool) (reg : UReg) (addr : Word)
  /-- Type 14a, store: universal register, direct address (R622, table row 37). -/
  | storeUregDirect (pm long : Bool) (reg : UReg) (addr : Word)
  /-- Type 14d: data register, direct address, sub-word or exclusive (R623, table row 38). -/
  | moveDregDirect (store : Bool) (reg : RegNo) (addr : Word) (size : Size) (ex : Bool)
  /-- Type 15a, load: universal register at I + data32 (R624, table row 39). -/
  | loadUregOffset (pm : Bool) (i : DagNo) (long : Bool) (reg : UReg) (data : Word)
  /-- Type 15a, store: universal register at I + data32 (R624, table row 40). -/
  | storeUregOffset (pm : Bool) (i : DagNo) (long : Bool) (reg : UReg) (data : Word)
  /-- Type 16a: immediate store (R626, table row 41). -/
  | storeImm (pm : Bool) (i m : DagNo) (data : Word)
  /-- Type 17a: ureg = data32 (R628, table row 42). -/
  | moveImm (reg : UReg) (data : Word)
  /-- Type 18a: BIT SET sreg data32 (R661, table row 43). -/
  | bitSet (reg : SysReg) (data : Word)
  /-- Type 18a: BIT CLR sreg data32 (R661, table row 44). -/
  | bitClr (reg : SysReg) (data : Word)
  /-- Type 18a: BIT TGL sreg data32 (R661, table row 45). -/
  | bitTgl (reg : SysReg) (data : Word)
  /-- Type 18a: BIT TST sreg data32 (R661, table row 46). -/
  | bitTst (reg : SysReg) (data : Word)
  /-- Type 18a: BIT XOR sreg data32 (R661, table row 47). -/
  | bitXor (reg : SysReg) (data : Word)
  /-- Type 19a: I[dst] = MODIFY(I[src], data32) (R662, table row 48). -/
  | modifyImm (pm : Bool) (src dst : DagNo) (data : Word) (scale : Scale)
  /-- Type 19a: I[dst] = BITREV(I[src], data32) (R663, table row 49). -/
  | bitrevImm (pm : Bool) (src dst : DagNo) (data : Word)
  /-- Type 20a: PUSH LOOP, with the other pushes and FLUSH CACHE of the same word (R665, table row 50). -/
  | pushLoop (sts pcstk flush : Bool)
  /-- Type 20a: POP LOOP, with the other pops and FLUSH CACHE of the same word (R665, table row 51). -/
  | popLoop (sts pcstk flush : Bool)
  /-- Type 20a: PUSH STS, with PUSH PCSTK and FLUSH CACHE of the same word (R665, table row 52). -/
  | pushSts (pcstk flush : Bool)
  /-- Type 20a: POP STS, with POP PCSTK and FLUSH CACHE of the same word (R665, table row 53). -/
  | popSts (pcstk flush : Bool)
  /-- Type 20a: PUSH PCSTK, with FLUSH CACHE of the same word (R665, table row 54). -/
  | pushPcstk (flush : Bool)
  /-- Type 20a: POP PCSTK, with FLUSH CACHE of the same word (R665, table row 55). -/
  | popPcstk (flush : Bool)
  /-- Type 20a: FLUSH CACHE (R667, table row 56). -/
  | flushCache
  /-- Type 20a: invalidate, write back or flush a line of the L1 caches (R667, table row 57). -/
  | cacheOp (l1ii l1di l1dwb l1pi l1pwb : Bool)
  /-- Type 21a: NOP (R668, table row 58). -/
  | nop
  /-- Type 22a: IDLE (R670, table row 59). -/
  | idle
  /-- Type 22a: EMUIDLE (R670, table row 60). -/
  | emuidle
  /-- Type 26a: SYNC (R674, table row 61). -/
  | sync
  /-- Type 25a: CJUMP addr24 (DB) (R671, table row 62). -/
  | cjump (addr : IAddr)
  /-- Type 25a: CJUMP (PC, reladdr24) (DB) (R671, table row 63). -/
  | cjumpPcRel (off : IAddr)
  /-- Type 25a: RFRAME (R672, table row 64). -/
  | rframe
  /-- Type 1b: Type 1a without compute (R511, table row 65). -/
  | dualMove (dmStore : Bool) (dmi dmm : DagNo) (dmReg : RegNo) (pmStore : Bool) (pmi pmm : DagNo) (pmReg : RegNo)
  /-- Type 2b: unconditional compute (R513, table row 66). -/
  | compute (c : Compute)
  /-- Type 2c: any short compute; the sixteen rows of format SHORT16 name its words one by one (R514, table row 67). -/
  | shortCompute (op : ShortOp) (rn rx : RegNo)
  /-- Type 3b: Type 3a without compute, with a size (R516, table row 68). -/
  | moveUregSized (cond : Cond) (post pm store : Bool) (i m : DagNo) (reg : UReg) (size : Size)
  /-- Type 3c: dreg and DM(Ia, Mb) (R517, table row 69). -/
  | moveDregShort (store : Bool) (reg : RegNo) (i m : DagNo)
  /-- Type 4b: Type 4a without compute, with a size (R521, table row 70). -/
  | moveDregImmSized (cond : Cond) (pm store : Bool) (i : DagNo) (post : Bool) (data : BitVec 6) (reg : RegNo) (size : Size)
  /-- Type 5b: register move (R527, table row 71). -/
  | moveUregShort (cond : Cond) (dst src : UReg)
  /-- Type 5b: swap (R528, table row 72). -/
  | swapDregShort (cond : Cond) (reg creg : RegNo)
  /-- Type 7b: I[dst] = MODIFY(I[src], M[m]) (R532, table row 73). -/
  | modifyShort (cond : Cond) (pm : Bool) (src dst m : DagNo)
  /-- Type 9b: JUMP or CALL, indirect or PC-relative (R579, table row 74). -/
  | branchShort (cond : Cond) (target : ShortTarget) (kind : BranchKind)
  /-- Type 11c: RTS or RTI (R582, table row 75). -/
  | returnShort (cond : Cond) (kind : ReturnKind)
  /-- Type 15b: universal register at I + data7 (R625, table row 76). -/
  | moveUregOffset7 (pm store : Bool) (i : DagNo) (long : Bool) (reg : UReg) (data : BitVec 7)
  /-- Type 16b: immediate store of sign-extended data16 (R627, table row 77). -/
  | storeImm16 (pm : Bool) (i m : DagNo) (data : Parcel)
  /-- Type 17b: ureg = sign-extended data16 (R629, table row 78). -/
  | moveImm16 (reg : UReg) (data : Parcel)
  /-- Type 21c: NOP (R668, table row 79). -/
  | nopShort
  /-- Type 22c: IDLE or EMUIDLE (R670, table row 80). -/
  | idleShort (emu : Bool)
  /-- Type 25c: RFRAME (R672, table row 81). -/
  | rframeShort
  /-- Rn = Rx + Ry (R730, table row 82). -/
  | fixAdd (rn rx ry : RegNo)
  /-- Rn = Rx - Ry (R731, table row 83). -/
  | fixSub (rn rx ry : RegNo)
  /-- Rn = Rx + Ry + CI (R732, table row 84). -/
  | fixAddCarry (rn rx ry : RegNo)
  /-- Rn = Rx - Ry + CI - 1 (R733, table row 85). -/
  | fixSubBorrow (rn rx ry : RegNo)
  /-- Rn = (Rx + Ry)/2 (R734, table row 86). -/
  | fixAvg (rn rx ry : RegNo)
  /-- COMP(Rx, Ry) (R735, table row 87). -/
  | fixComp (rx ry : RegNo)
  /-- COMPU(Rx, Ry) (R736, table row 88). -/
  | fixCompU (rx ry : RegNo)
  /-- Rn = Rx + CI (R737, table row 89). -/
  | fixPlusCarry (rn rx : RegNo)
  /-- Rn = Rx + CI - 1 (R738, table row 90). -/
  | fixPlusCarryMinus1 (rn rx : RegNo)
  /-- Rn = Rx + 1 (R739, table row 91). -/
  | fixInc (rn rx : RegNo)
  /-- Rn = Rx - 1 (R740, table row 92). -/
  | fixDec (rn rx : RegNo)
  /-- Rn = -Rx (R741, table row 93). -/
  | fixNeg (rn rx : RegNo)
  /-- Rn = ABS Rx (R742, table row 94). -/
  | fixAbs (rn rx : RegNo)
  /-- Rn = PASS Rx (R743, table row 95). -/
  | fixPass (rn rx : RegNo)
  /-- Rn = Rx AND Ry (R744, table row 96). -/
  | fixAnd (rn rx ry : RegNo)
  /-- Rn = Rx OR Ry (R745, table row 97). -/
  | fixOr (rn rx ry : RegNo)
  /-- Rn = Rx XOR Ry (R746, table row 98). -/
  | fixXor (rn rx ry : RegNo)
  /-- Rn = NOT Rx (R747, table row 99). -/
  | fixNot (rn rx : RegNo)
  /-- Rn = MIN(Rx, Ry) (R748, table row 100). -/
  | fixMin (rn rx ry : RegNo)
  /-- Rn = MAX(Rx, Ry) (R749, table row 101). -/
  | fixMax (rn rx ry : RegNo)
  /-- Rn = CLIP Rx BY Ry (R750, table row 102). -/
  | fixClip (rn rx ry : RegNo)
  /-- Fn = Fx + Fy (R790, table row 103). -/
  | fltAdd (rn rx ry : RegNo)
  /-- Fn = Fx - Fy (R791, table row 104). -/
  | fltSub (rn rx ry : RegNo)
  /-- Fn = ABS (Fx + Fy) (R792, table row 105). -/
  | fltAbsAdd (rn rx ry : RegNo)
  /-- Fn = ABS (Fx - Fy) (R793, table row 106). -/
  | fltAbsSub (rn rx ry : RegNo)
  /-- Fn = (Fx + Fy)/2 (R794, table row 107). -/
  | fltAvg (rn rx ry : RegNo)
  /-- COMP(Fx, Fy) (R795, table row 108). -/
  | fltComp (rx ry : RegNo)
  /-- Fn = -Fx (R796, table row 109). -/
  | fltNeg (rn rx : RegNo)
  /-- Fn = ABS Fx (R797, table row 110). -/
  | fltAbs (rn rx : RegNo)
  /-- Fn = PASS Fx (R798, table row 111). -/
  | fltPass (rn rx : RegNo)
  /-- Fn = RND Fx (R799, table row 112). -/
  | fltRnd (rn rx : RegNo)
  /-- Fn = SCALB Fx BY Ry (R800, table row 113). -/
  | fltScalb (rn rx ry : RegNo)
  /-- Rn = MANT Fx (R801, table row 114). -/
  | fltMant (rn rx : RegNo)
  /-- Rn = LOGB Fx (R802, table row 115). -/
  | fltLogb (rn rx : RegNo)
  /-- Rn = FIX Fx (R804, table row 116). -/
  | fltFix (rn rx : RegNo)
  /-- Rn = FIX Fx BY Ry (R805, table row 117). -/
  | fltFixBy (rn rx ry : RegNo)
  /-- Rn = TRUNC Fx (R806, table row 118). -/
  | fltTrunc (rn rx : RegNo)
  /-- Rn = TRUNC Fx BY Ry (R807, table row 119). -/
  | fltTruncBy (rn rx ry : RegNo)
  /-- Fn = FLOAT Rx (R808, table row 120). -/
  | fltFloat (rn rx : RegNo)
  /-- Fn = FLOAT Rx BY Ry (R809, table row 121). -/
  | fltFloatBy (rn rx ry : RegNo)
  /-- Fn = RECIPS Fx (R810, table row 122). -/
  | fltRecips (rn rx : RegNo)
  /-- Fn = RSQRTS Fx (R811, table row 123). -/
  | fltRsqrts (rn rx : RegNo)
  /-- Fn = Fx COPYSIGN Fy (R812, table row 124). -/
  | fltCopysign (rn rx ry : RegNo)
  /-- Fn = MIN(Fx, Fy) (R813, table row 125). -/
  | fltMin (rn rx ry : RegNo)
  /-- Fn = MAX(Fx, Fy) (R814, table row 126). -/
  | fltMax (rn rx ry : RegNo)
  /-- Fn = CLIP Fx BY Fy (R815, table row 127). -/
  | fltClip (rn rx ry : RegNo)
  /-- Fm:n = Fx:y + Fz:w (R848, table row 128). -/
  | dblAdd (m x z : Pair)
  /-- Fm:n = Fx:y - Fz:w (R849, table row 129). -/
  | dblSub (m x z : Pair)
  /-- COMP(Fx:y, Fz:w) (R850, table row 130). -/
  | dblComp (x z : Pair)
  /-- Fm:n = -Fx:y (R851, table row 131). -/
  | dblNeg (m x : Pair)
  /-- Fm:n = ABS Fx:y (R852, table row 132). -/
  | dblAbs (m x : Pair)
  /-- Fm:n = PASS Fx:y (R853, table row 133). -/
  | dblPass (m x : Pair)
  /-- Rn = FIX Fx:y (R855, table row 134). -/
  | dblFix (rn : RegNo) (x : Pair)
  /-- Rn = FIX Fx:y BY Ry (R856, table row 135). -/
  | dblFixBy (rn : RegNo) (x : Pair) (ry : RegNo)
  /-- Rn = TRUNC Fx:y (R857, table row 136). -/
  | dblTrunc (rn : RegNo) (x : Pair)
  /-- Rn = TRUNC Fx:y BY Ry (R858, table row 137). -/
  | dblTruncBy (rn : RegNo) (x : Pair) (ry : RegNo)
  /-- Fm:n = FLOAT Rx (R859, table row 138). -/
  | dblFloat (m : Pair) (rx : RegNo)
  /-- Fm:n = FLOAT Rx BY Ry (R860, table row 139). -/
  | dblFloatBy (m : Pair) (rx ry : RegNo)
  /-- Fm:n = CVT Fx (R861, table row 140). -/
  | dblFromFlt (m : Pair) (rx : RegNo)
  /-- Fn = CVT Fx:y (R862, table row 141). -/
  | fltFromDbl (rn : RegNo) (x : Pair)
  /-- Fm:n = SCALB Fx:y BY Ry (R863, table row 142). -/
  | dblScalb (m x : Pair) (ry : RegNo)
  /-- Ra = Rx + Ry, Rs = Rx - Ry (R1004, table row 143). -/
  | fixAddSub (ra rs rx ry : RegNo)
  /-- Fa = Fx + Fy, Fs = Fx - Fy (R1005, table row 144). -/
  | fltAddSub (ra rs rx ry : RegNo)
  /-- Rn = Rx * Ry MOD1 (R892, table row 145). -/
  | mulRn (mod : MulMod) (rn rx ry : RegNo)
  /-- MRF = Rx * Ry MOD1 (R893, table row 146). -/
  | mulMrf (mod : MulMod) (rx ry : RegNo)
  /-- MRB = Rx * Ry MOD1 (R894, table row 147). -/
  | mulMrb (mod : MulMod) (rx ry : RegNo)
  /-- Rn = MRF + Rx * Ry MOD1 (R895, table row 148). -/
  | macAddRnMrf (mod : MulMod) (rn rx ry : RegNo)
  /-- Rn = MRB + Rx * Ry MOD1 (R895, table row 149). -/
  | macAddRnMrb (mod : MulMod) (rn rx ry : RegNo)
  /-- MRF = MRF + Rx * Ry MOD1 (R896, table row 150). -/
  | macAddMrf (mod : MulMod) (rx ry : RegNo)
  /-- MRB = MRB + Rx * Ry MOD1 (R896, table row 151). -/
  | macAddMrb (mod : MulMod) (rx ry : RegNo)
  /-- Rn = MRF - Rx * Ry MOD1 (R897, table row 152). -/
  | macSubRnMrf (mod : MulMod) (rn rx ry : RegNo)
  /-- Rn = MRB - Rx * Ry MOD1 (R897, table row 153). -/
  | macSubRnMrb (mod : MulMod) (rn rx ry : RegNo)
  /-- MRF = MRF - Rx * Ry MOD1 (R898, table row 154). -/
  | macSubMrf (mod : MulMod) (rx ry : RegNo)
  /-- MRB = MRB - Rx * Ry MOD1 (R898, table row 155). -/
  | macSubMrb (mod : MulMod) (rx ry : RegNo)
  /-- Rn = RND MRF MOD3 (R899, table row 156). -/
  | rndRnMrf (sgn : Bool) (rn : RegNo)
  /-- Rn = RND MRB MOD3 (R899, table row 157). -/
  | rndRnMrb (sgn : Bool) (rn : RegNo)
  /-- MRF = RND MRF MOD3 (R899, table row 158). -/
  | rndMrf (sgn : Bool)
  /-- MRB = RND MRB MOD3 (R899, table row 159). -/
  | rndMrb (sgn : Bool)
  /-- Rn = SAT MRF MOD2 (R901, table row 160). -/
  | satRnMrf (frac sgn : Bool) (rn : RegNo)
  /-- Rn = SAT MRB MOD2 (R901, table row 161). -/
  | satRnMrb (frac sgn : Bool) (rn : RegNo)
  /-- MRF = SAT MRF MOD2 (R901, table row 162). -/
  | satMrf (frac sgn : Bool)
  /-- MRB = SAT MRB MOD2 (R901, table row 163). -/
  | satMrb (frac sgn : Bool)
  /-- MRF = 0 (R903, table row 164). -/
  | clrMrf
  /-- MRB = 0 (R903, table row 165). -/
  | clrMrb
  /-- Rn = MR0F (R906, table row 166). -/
  | readMr0f (rn : RegNo)
  /-- MR0F = Rn (R907, table row 167). -/
  | writeMr0f (rn : RegNo)
  /-- Rn = MR1F (R906, table row 168). -/
  | readMr1f (rn : RegNo)
  /-- MR1F = Rn (R907, table row 169). -/
  | writeMr1f (rn : RegNo)
  /-- Rn = MR2F (R906, table row 170). -/
  | readMr2f (rn : RegNo)
  /-- MR2F = Rn (R907, table row 171). -/
  | writeMr2f (rn : RegNo)
  /-- Rn = MR0B (R906, table row 172). -/
  | readMr0b (rn : RegNo)
  /-- MR0B = Rn (R907, table row 173). -/
  | writeMr0b (rn : RegNo)
  /-- Rn = MR1B (R906, table row 174). -/
  | readMr1b (rn : RegNo)
  /-- MR1B = Rn (R907, table row 175). -/
  | writeMr1b (rn : RegNo)
  /-- Rn = MR2B (R906, table row 176). -/
  | readMr2b (rn : RegNo)
  /-- MR2B = Rn (R907, table row 177). -/
  | writeMr2b (rn : RegNo)
  /-- Fn = Fx * Fy (R908, table row 178). -/
  | fltMul (rn rx ry : RegNo)
  /-- Fm:n = Fx:y * Fz:w (R910, table row 179). -/
  | dblMul (m x z : Pair)
  /-- Fm:n = Fx:y * Fy (R911, table row 180). -/
  | dblMulFlt (m x : Pair) (ry : RegNo)
  /-- Fm:n = Fx * Fy (R912, table row 181). -/
  | dblMulFlt2 (m : Pair) (rx ry : RegNo)
  /-- Rn = LSHIFT Rx BY Ry|data8 (register form) (R946, table row 182). -/
  | lshift (rn rx ry : RegNo)
  /-- Rn = LSHIFT Rx BY Ry|data8 (immediate form) (immediate) (R946, table row 183). -/
  | lshiftImm (rn rx : RegNo) (data : Byte)
  /-- Rn = Rn OR LSHIFT Rx BY Ry|data8 (register form) (R947, table row 184). -/
  | orLshift (rn rx ry : RegNo)
  /-- Rn = Rn OR LSHIFT Rx BY Ry|data8 (immediate form) (immediate) (R947, table row 185). -/
  | orLshiftImm (rn rx : RegNo) (data : Byte)
  /-- Rn = ASHIFT Rx BY Ry|data8 (register form) (R948, table row 186). -/
  | ashift (rn rx ry : RegNo)
  /-- Rn = ASHIFT Rx BY Ry|data8 (immediate form) (immediate) (R948, table row 187). -/
  | ashiftImm (rn rx : RegNo) (data : Byte)
  /-- Rn = Rn OR ASHIFT Rx BY Ry|data8 (register form) (R949, table row 188). -/
  | orAshift (rn rx ry : RegNo)
  /-- Rn = Rn OR ASHIFT Rx BY Ry|data8 (immediate form) (immediate) (R949, table row 189). -/
  | orAshiftImm (rn rx : RegNo) (data : Byte)
  /-- Rn = ROT Rx BY Ry|data8 (register form) (R950, table row 190). -/
  | rot (rn rx ry : RegNo)
  /-- Rn = ROT Rx BY Ry|data8 (immediate form) (immediate) (R950, table row 191). -/
  | rotImm (rn rx : RegNo) (data : Byte)
  /-- Rn = BSET Rx BY Ry|data8 (register form) (R952, table row 192). -/
  | bset (rn rx ry : RegNo)
  /-- Rn = BSET Rx BY Ry|data8 (immediate form) (immediate) (R952, table row 193). -/
  | bsetImm (rn rx : RegNo) (data : Byte)
  /-- Rn = BCLR Rx BY Ry|data8 (register form) (R953, table row 194). -/
  | bclr (rn rx ry : RegNo)
  /-- Rn = BCLR Rx BY Ry|data8 (immediate form) (immediate) (R953, table row 195). -/
  | bclrImm (rn rx : RegNo) (data : Byte)
  /-- Rn = BTGL Rx BY Ry|data8 (register form) (R954, table row 196). -/
  | btgl (rn rx ry : RegNo)
  /-- Rn = BTGL Rx BY Ry|data8 (immediate form) (immediate) (R954, table row 197). -/
  | btglImm (rn rx : RegNo) (data : Byte)
  /-- BTST Rx BY Ry|data8 (register form) (R955, table row 198). -/
  | btst (rx ry : RegNo)
  /-- BTST Rx BY Ry|data8 (immediate form) (immediate) (R955, table row 199). -/
  | btstImm (rx : RegNo) (data : Byte)
  /-- Rn = FDEP Rx BY Ry|bit6:len6 (register form) (R957, table row 200). -/
  | fdep (rn rx ry : RegNo)
  /-- Rn = FDEP Rx BY Ry|bit6:len6 (immediate form) (immediate) (R957, table row 201). -/
  | fdepImm (rn rx : RegNo) (bit6 len6 : BitVec 6)
  /-- Rn = Rn OR FDEP Rx BY Ry|bit6:len6 (register form) (R958, table row 202). -/
  | orFdep (rn rx ry : RegNo)
  /-- Rn = Rn OR FDEP Rx BY Ry|bit6:len6 (immediate form) (immediate) (R958, table row 203). -/
  | orFdepImm (rn rx : RegNo) (bit6 len6 : BitVec 6)
  /-- Rn = FDEP Rx BY Ry|bit6:len6 (SE) (register form) (R959, table row 204). -/
  | fdepSE (rn rx ry : RegNo)
  /-- Rn = FDEP Rx BY Ry|bit6:len6 (SE) (immediate form) (immediate) (R959, table row 205). -/
  | fdepSEImm (rn rx : RegNo) (bit6 len6 : BitVec 6)
  /-- Rn = Rn OR FDEP Rx BY Ry|bit6:len6 (SE) (register form) (R960, table row 206). -/
  | orFdepSE (rn rx ry : RegNo)
  /-- Rn = Rn OR FDEP Rx BY Ry|bit6:len6 (SE) (immediate form) (immediate) (R960, table row 207). -/
  | orFdepSEImm (rn rx : RegNo) (bit6 len6 : BitVec 6)
  /-- Rn = FEXT Rx BY Ry|bit6:len6 (register form) (R961, table row 208). -/
  | fext (rn rx ry : RegNo)
  /-- Rn = FEXT Rx BY Ry|bit6:len6 (immediate form) (immediate) (R961, table row 209). -/
  | fextImm (rn rx : RegNo) (bit6 len6 : BitVec 6)
  /-- Rn = FEXT Rx BY Ry|bit6:len6 (SE) (register form) (R962, table row 210). -/
  | fextSE (rn rx ry : RegNo)
  /-- Rn = FEXT Rx BY Ry|bit6:len6 (SE) (immediate form) (immediate) (R962, table row 211). -/
  | fextSEImm (rn rx : RegNo) (bit6 len6 : BitVec 6)
  /-- Rn = EXP Rx (register form) (R963, table row 212). -/
  | exp (rn rx : RegNo)
  /-- Rn = EXP Rx (EX) (register form) (R964, table row 213). -/
  | expEx (rn rx : RegNo)
  /-- Rn = LEFTZ Rx (register form) (R965, table row 214). -/
  | leftz (rn rx : RegNo)
  /-- Rn = LEFTO Rx (register form) (R966, table row 215). -/
  | lefto (rn rx : RegNo)
  /-- Rn = FPACK Fx (register form) (R968, table row 216). -/
  | fpack (rn rx : RegNo)
  /-- Fn = FUNPACK Rx (register form) (R969, table row 217). -/
  | funpack (rn rx : RegNo)
  /-- BITDEP Rx BY Ry|bitlen12 (register form) (R971, table row 218). -/
  | bitdep (rx ry : RegNo)
  /-- BITDEP Rx BY Ry|bitlen12 (immediate form) (immediate) (R971, table row 219). -/
  | bitdepImm (rx : RegNo) (len : BitVec 12)
  /-- Rn = BITEXT Rx|bitlen12 (register form) (R972, table row 220). -/
  | bitext (rn rx : RegNo)
  /-- Rn = BITEXT Rx|bitlen12 (immediate form) (immediate) (R972, table row 221). -/
  | bitextImm (rn : RegNo) (len : BitVec 12)
  /-- Rn = BITEXT Rx|bitlen12 (NU) (register form) (R972, table row 222). -/
  | bitextNU (rn rx : RegNo)
  /-- Rn = BITEXT Rx|bitlen12 (NU) (immediate form) (immediate) (R972, table row 223). -/
  | bitextNUImm (rn : RegNo) (len : BitVec 12)
  /-- BFFWRP = Rn|data7 (register form) (R973, table row 224). -/
  | setBffwrp (rn : RegNo)
  /-- BFFWRP = Rn|data7 (immediate form) (immediate) (R973, table row 225). -/
  | setBffwrpImm (data : BitVec 7)
  /-- Rn = BFFWRP (register form) (R974, table row 226). -/
  | getBffwrp (rn : RegNo)
  /-- Rm = Rxm * Rym (SSFR), Ra = Rxa + Rya (R1008, table row 227). -/
  | mfMulAdd (rm ra : RegNo) (q : MfIn)
  /-- Rm = Rxm * Rym (SSFR), Ra = Rxa - Rya (R1008, table row 228). -/
  | mfMulSub (rm ra : RegNo) (q : MfIn)
  /-- Rm = Rxm * Rym (SSFR), Ra = (Rxa + Rya)/2 (R1008, table row 229). -/
  | mfMulAvg (rm ra : RegNo) (q : MfIn)
  /-- MRF = MRF + Rxm * Rym (SSF), Ra = Rxa + Rya (R1008, table row 230). -/
  | mfMacAddMrfAdd (ra : RegNo) (q : MfIn)
  /-- MRF = MRF + Rxm * Rym (SSF), Ra = Rxa - Rya (R1008, table row 231). -/
  | mfMacAddMrfSub (ra : RegNo) (q : MfIn)
  /-- MRF = MRF + Rxm * Rym (SSF), Ra = (Rxa + Rya)/2 (R1008, table row 232). -/
  | mfMacAddMrfAvg (ra : RegNo) (q : MfIn)
  /-- Rm = MRF + Rxm * Rym (SSFR), Ra = Rxa + Rya (R1008, table row 233). -/
  | mfMacAddRmAdd (rm ra : RegNo) (q : MfIn)
  /-- Rm = MRF + Rxm * Rym (SSFR), Ra = Rxa - Rya (R1008, table row 234). -/
  | mfMacAddRmSub (rm ra : RegNo) (q : MfIn)
  /-- Rm = MRF + Rxm * Rym (SSFR), Ra = (Rxa + Rya)/2 (R1008, table row 235). -/
  | mfMacAddRmAvg (rm ra : RegNo) (q : MfIn)
  /-- MRF = MRF - Rxm * Rym (SSF), Ra = Rxa + Rya (R1008, table row 236). -/
  | mfMacSubMrfAdd (ra : RegNo) (q : MfIn)
  /-- MRF = MRF - Rxm * Rym (SSF), Ra = Rxa - Rya (R1008, table row 237). -/
  | mfMacSubMrfSub (ra : RegNo) (q : MfIn)
  /-- MRF = MRF - Rxm * Rym (SSF), Ra = (Rxa + Rya)/2 (R1008, table row 238). -/
  | mfMacSubMrfAvg (ra : RegNo) (q : MfIn)
  /-- Rm = MRF - Rxm * Rym (SSFR), Ra = Rxa + Rya (R1008, table row 239). -/
  | mfMacSubRmAdd (rm ra : RegNo) (q : MfIn)
  /-- Rm = MRF - Rxm * Rym (SSFR), Ra = Rxa - Rya (R1008, table row 240). -/
  | mfMacSubRmSub (rm ra : RegNo) (q : MfIn)
  /-- Rm = MRF - Rxm * Rym (SSFR), Ra = (Rxa + Rya)/2 (R1008, table row 241). -/
  | mfMacSubRmAvg (rm ra : RegNo) (q : MfIn)
  /-- Fm = Fxm * Fym, Fa = Fxa + Fya (R1009, table row 242). -/
  | mfFltAdd (rm ra : RegNo) (q : MfIn)
  /-- Fm = Fxm * Fym, Fa = Fxa - Fya (R1009, table row 243). -/
  | mfFltSub (rm ra : RegNo) (q : MfIn)
  /-- Fm = Fxm * Fym, Fa = FLOAT Rxa BY Rya (R1009, table row 244). -/
  | mfFltFloatBy (rm ra : RegNo) (q : MfIn)
  /-- Fm = Fxm * Fym, Ra = FIX Fxa BY Rya (R1009, table row 245). -/
  | mfFltFixBy (rm ra : RegNo) (q : MfIn)
  /-- Fm = Fxm * Fym, Fa = (Fxa + Fya)/2 (R1009, table row 246). -/
  | mfFltAvg (rm ra : RegNo) (q : MfIn)
  /-- Fm = Fxm * Fym, Fa = ABS Fxa (R1009, table row 247). -/
  | mfFltAbs (rm ra : RegNo) (q : MfIn)
  /-- Fm = Fxm * Fym, Fa = MAX(Fxa, Fya) (R1009, table row 248). -/
  | mfFltMax (rm ra : RegNo) (q : MfIn)
  /-- Fm = Fxm * Fym, Fa = MIN(Fxa, Fya) (R1009, table row 249). -/
  | mfFltMin (rm ra : RegNo) (q : MfIn)
  /-- Rm = Rxm * Rym (SSFR), Ra = Rxa + Rya, Rs = Rxa - Rya (R1010, table row 250). -/
  | mfFixAddSub (rm ra rs : RegNo) (q : MfIn)
  /-- Fm = Fxm * Fym, Fa = Fxa + Fya, Fs = Fxa - Fya (R1010, table row 251). -/
  | mfFltAddSub (rm ra rs : RegNo) (q : MfIn)
  /-- Fm:n = Fx:y * Fz:w, Fa:b = Fp:q + Fr:s (R1011, table row 252). -/
  | mfDblAdd (m a : Pair) (q : MfDblIn)
  /-- Fm:n = Fx:y * Fz:w, Fa:b = Fp:q - Fr:s (R1011, table row 253). -/
  | mfDblSub (m a : Pair) (q : MfDblIn)
  /-- Type 2c: RN = RN + RX (R730, table row 254). -/
  | shortAdd (rn rx : RegNo)
  /-- Type 2c: RN = RN - RX (R731, table row 255). -/
  | shortSub (rn rx : RegNo)
  /-- Type 2c: RN = PASS RX (R743, table row 256). -/
  | shortPass (rn rx : RegNo)
  /-- Type 2c: COMP(RN, RX) (R735, table row 257). -/
  | shortComp (rn rx : RegNo)
  /-- Type 2c: RN = NOT RX (R747, table row 258). -/
  | shortNot (rn rx : RegNo)
  /-- Type 2c: RN = RX + 1 (R739, table row 259). -/
  | shortInc (rn rx : RegNo)
  /-- Type 2c: RN = RX - 1 (R740, table row 260). -/
  | shortDec (rn rx : RegNo)
  /-- Type 2c: RN = RN * RX (SSI) (R892, table row 261). -/
  | shortMul (rn rx : RegNo)
  /-- Type 2c: FN = FN + FX (R790, table row 262). -/
  | shortFltAdd (rn rx : RegNo)
  /-- Type 2c: FN = FN - FX (R791, table row 263). -/
  | shortFltSub (rn rx : RegNo)
  /-- Type 2c: FN = FLOAT RX (R808, table row 264). -/
  | shortFloat (rn rx : RegNo)
  /-- Type 2c: COMP(FN, FX) (R795, table row 265). -/
  | shortFltComp (rn rx : RegNo)
  /-- Type 2c: RN = RN AND RX (R744, table row 266). -/
  | shortAnd (rn rx : RegNo)
  /-- Type 2c: RN = RN OR RX (R745, table row 267). -/
  | shortOr (rn rx : RegNo)
  /-- Type 2c: RN = RN XOR RX (R746, table row 268). -/
  | shortXor (rn rx : RegNo)
  /-- Type 2c: FN = FN * FX (R908, table row 269). -/
  | shortFltMul (rn rx : RegNo)
  deriving DecidableEq, Repr

end Sys2Proof
end

