-- ==== Sys2Proof/Machine/State.lean ====
section
/-! DEFINITION. The state of one SHARC+ core as plain data (spec/10_state.md, 11_state_registers.md, 20_memory.md
section 9, 60_exceptions.md, 61_debug_platform.md), the reasons a step can stop, and the state after reset. -/

namespace Sys2Proof.Machine

open Sys2Proof

/-- Why the machine stops with a fault. -/
inductive Fault
  /-- The address is in no populated space: the core waits for a response that never comes (R341, D23). Raised by a data
  access, an instruction fetch or an implicit SIMD access. Safe: the spec's own treatment is a stuck core. -/
  | busHang (addr : Nat)
  deriving DecidableEq, Repr

/-- Why the model gives a step no meaning. Every constructor but the first is a program that spec/93 puts outside the
defined behaviour (treatment `refuse`) or an access to a unit the spec does not describe. All are safe. -/
inductive Refusal
  /-- An instruction that has no meaning yet, by its mnemonic. Raised by an arm of `exec` only. -/
  | notModelled (mnemonic : String)
  /-- A core memory-mapped register address that no rule assigns a register to (R319). -/
  | noSuchMmr (addr : Nat)
  /-- A Type 1, SIMD, (lw) or sub-word access to a core or system memory-mapped register (R270, R320, R1235, U44, U50). -/
  | mmrAccessForm (addr : Nat)
  /-- A pre-modify address that leaves the memory space of its index register (R265, U45). -/
  | preModifyLeavesSpace
  /-- An exclusive access to L1 memory (R336, U47). -/
  | exclusiveTarget (addr : Nat)
  /-- An access to or a fetch from the part of an L1 block that an enabled cache uses, or an exclusive access to a cacheable
  address (R336, R382, U47, U51). -/
  | cacheStorage (addr : Nat)
  /-- An access to a cache register while a range operation runs (R370, R372, U51). -/
  | cacheBusy
  /-- A property of an enabled cache changed before its lines were written back and invalidated (R372, U51). -/
  | cacheReconfig
  /-- Code fetched from bytes that were stored to and not flushed since: SYNC, then a taken branch, and for L1 code FLUSH
  CACHE as well (R328, R355, R1227, D21, U23). -/
  | selfModified (addr : Nat)
  /-- A program outside the restrictions on cache registers: a range address with low bits set, an access over the PM bus or
  while code runs from external memory, within twelve instructions after a store to SHL1C_CFG or SHL1C_CFG2 another of them,
  a cache operation, an access outside L1 or a compressed instruction, code in a block of an enabled data cache (R372). -/
  | cacheRestriction (addr : Nat)
  /-- A change of flow within twelve instructions after a store to a branch target buffer register (R1138, U24). -/
  | btbWindow
  /-- A pop of an empty PC, loop or status stack (R575, R665, U12). -/
  | emptyStack
  /-- A taken branch, DO UNTIL, PC-stack or loop-stack operation in a delay slot, outside the cases R568 and R1060 give an
  outcome for (R1221, U11). -/
  | delaySlot
  /-- A loop restored in another order than PUSH LOOP, CURLCNTR, LADDR, PUSH PCSTK, PCSTK (R666, R1230, U18). -/
  | restoreOrder
  /-- A program outside the restrictions at the end of a loop: a taken branch at the last address or with slots that
  include it, a compressed instruction among the last eleven, nested ends too close, IDLE in the last three instructions
  of an arithmetic loop (R592, R593, R1232, D31, U14). -/
  | loopEnd
  /-- CMMR_SYSCTL.EIVT = IIVT = 1 when an interrupt is entered (R322, R1034, U35). -/
  | ivtSelect
  /-- A bit-FIFO operation with PEYEN = 1 (R86, R970, U34). -/
  | bitFifoSimd
  /-- A bit-FIFO operation while BFFWRP is above 64 (R973, U34). -/
  | bitFifoPointer
  /-- A 64-bit operation whose pair field holds an odd register code (R442, U3). -/
  | oddPair
  /-- A Type 20a word that mixes pushes with pops or cache operations, or pushes and pops one stack (R664, U9). -/
  | stackMix
  deriving DecidableEq, Repr

/-- What stops a step before it has a next state. -/
inductive Stop
  | fault (r : Fault)
  | refuse (r : Refusal)
  deriving DecidableEq, Repr

/-- The result of a shared operation: a value, or the reason the step stops. -/
abbrev Res (α : Type) := Except Stop α

/-- The host's outcome of a result. -/
def Res.outcome : Res σ → Host.Outcome σ Fault Refusal
  | .ok s => .next s
  | .error (.fault r) => .fault r
  | .error (.refuse r) => .refused r

/-- Data registers of both elements (R41, R42, R50, R55, R86). -/
structure Data where
  /-- R0..R15, primary and alternate set (R41, R46). -/
  r : Vector Reg40 16
  rAlt : Vector Reg40 16
  /-- S0..S15, primary and alternate set (R42, R46). -/
  s : Vector Reg40 16
  sAlt : Vector Reg40 16
  /-- The multiplier result registers (R50). -/
  mrf : Acc80
  mrb : Acc80
  msf : Acc80
  msb : Acc80
  /-- PX: PX1 = bits 31:0, PX2 = bits 63:32 (R55). -/
  px : Long
  /-- The bit FIFO and its write pointer (R86). -/
  bff : Long
  bffwrp : BitVec 7
  deriving DecidableEq, Repr

/-- Address-generator registers, primary and alternate sets (R53, R54). -/
structure Dag where
  i : Vector Word 16
  m : Vector Word 16
  l : Vector Word 16
  b : Vector Word 16
  iAlt : Vector Word 16
  mAlt : Vector Word 16
  lAlt : Vector Word 16
  bAlt : Vector Word 16
  deriving DecidableEq, Repr

/-- How far a loop entry that PUSH LOOP made has been restored (R666, R1230). -/
inductive Restored
  /-- A loop that DO UNTIL started, or one whose LADDR has been restored. -/
  | whole
  /-- PUSH LOOP made the entry; neither CURLCNTR nor LADDR has been loaded. -/
  | pushed
  /-- The same word pushed the PC stack too, before CURLCNTR and LADDR: the order of R666 is lost. -/
  | tied
  /-- CURLCNTR has been loaded. -/
  | counted
  deriving DecidableEq, Repr

/-- How a CALL made by an inner arithmetic loop bears on the condition of an arithmetic loop around it (R590, U17). The MODEL's
own. -/
inductive CallMark
  | none
  /-- The CALL was made while the condition was false, with so many entries on the PC stack, and it has not become true. -/
  | during (depth : Nat)
  /-- The condition became true before the CALL returned, and has been true since. -/
  | turned (depth : Nat)
  deriving DecidableEq, Repr

/-- One entry of the loop stacks: the loop address word (R67, D7), the loop counter, and the count before the loop was
executed, which LCNTR holds again once the loop is left (R70, R592; DEDUCED, log 23). The rest is the MODEL's own: how
many more times the end of an arithmetic loop executes after its condition tested true, 0 for not yet (R590); how a CALL of an
inner loop bears on the condition of this one, and whether its true condition was missed once (U17); how far a manual restore
has come (R666). -/
structure LoopEntry where
  laddr : Word
  count : Word
  start : Word
  exits : Nat := 0
  call : CallMark := .none
  missed : Bool := false
  restored : Restored := .whole
  deriving DecidableEq, Repr

/-- One entry of the status stack (R72). -/
structure StsEntry where
  mode1 : Word
  astatx : Word
  astaty : Word
  deriving DecidableEq, Repr

/-- What kind of branch has delay slots to execute (R568, R1060). -/
inductive BranchSort
  | jump | jumpCi | call | ret
  deriving DecidableEq, Repr

/-- A taken delayed branch whose delay slots are not all executed yet (R564). -/
structure PendingBranch where
  target : IAddr
  slots : Nat
  sort : BranchSort
  deriving DecidableEq, Repr

/-- Sequencer state. -/
structure Seq where
  /-- The address of the instruction to execute next; of the one being executed, while it executes (R60). -/
  pc : IAddr
  /-- The MODEL's own field: where execution goes after this instruction, before delayed branches (log 20). -/
  npc : IAddr
  /-- The PC stack, newest entry first, at most 30 entries (R63). -/
  pcStk : List Word
  /-- The PC stack has overflowed: PCSTKP reads 31 (R65). -/
  pcOv : Bool
  /-- A write of PCSTKP made by the executing instruction, and one made by the instruction before it (R65). -/
  pcStkpNew : Option (BitVec 5)
  pcStkpDue : Option (BitVec 5)
  /-- The loop address and loop counter stacks, newest entry first, at most 6 entries (R67, R69). -/
  loopStk : List LoopEntry
  /-- STKYX.LSOV (R152). -/
  loopOv : Bool
  /-- The locations of the loop counter stack above its top, lowest first: the first is LCNTR (R70). Six entries less those
  in use; none left when the stack is full. -/
  lcntrs : List Word
  /-- The status stack, newest entry first, at most 15 entries (R72). -/
  stsStk : List StsEntry
  /-- STKYX.SSOV (R154). -/
  stsOv : Bool
  /-- Delayed branches under way, oldest first (R564, R568). -/
  branches : List PendingBranch
  /-- Boundaries still to pass before an interrupt can be accepted: the slots of a delayed branch (R1051). -/
  noIrq : Nat
  /-- The core is idle (R88, R670). -/
  idle : Bool
  /-- The first instruction of a service routine is due: no interrupt before it (R1045). -/
  vectorDue : Bool
  /-- Boundaries until a software reset; 0 for none (R322, R1062). -/
  srst : Nat
  /-- Instructions still to come that may not change the flow after a store to a branch target buffer register (R1138). -/
  btbHold : Nat
  /-- Instructions still to come in the window after a store to SHL1C_CFG or SHL1C_CFG2 (R372). -/
  cacheHold : Nat
  deriving DecidableEq, Repr

/-- The core timer's enable as its latency makes it act (R1074). -/
inductive TimerPhase
  | off
  | starting (cycles : Nat)
  | on
  | stopping
  deriving DecidableEq, Repr

/-- Mode, status and interrupt registers (R81). -/
structure Sys where
  mode1 : Word
  /-- MODE1 as it governs the executing instruction (R47). -/
  mode1Act : Word
  mmask : Word
  mode2 : Word
  /-- FLAGS, bits 7:0 (R165). FLGk of an input is read from `pins`. -/
  flags : Word
  /-- The levels the outside drives on FLAG0..FLAG3 (D6). -/
  pins : BitVec 4
  astatx : Word
  astaty : Word
  /-- ASTATX, ASTATY as a condition of the executing instruction sees them after an explicit write (R131). -/
  condx : Option Word
  condy : Option Word
  /-- STKYX without the six stack status bits (R150). -/
  stkyx : Word
  stkyy : Word
  irptl : Word
  imask : Word
  imaskp : Word
  /-- The latch bits one boundary ago (R1052, IRQ_LATENCY_INSTR = 1). -/
  irptlSeen : Word
  /-- IMASK and MODE2 one boundary ago: the masks a boundary may still go by (R1054). MODE1's is `mode1Act`. -/
  imaskWas : Word
  mode2Was : Word
  /-- ASTATX, ASTATY one boundary ago: the multiplier flags an arithmetic loop may still test (R590, U17). -/
  astatxWas : Word
  astatyWas : Word
  /-- A parity error of a core access is what latched PARI (R1081). -/
  parity : Bool
  ustat1 : Word
  ustat2 : Word
  ustat3 : Word
  ustat4 : Word
  tperiod : Word
  tcount : Word
  timer : TimerPhase
  emuclk : Word
  emuclk2 : Word
  deriving DecidableEq, Repr

/-- Core memory-mapped registers (R318, R319). -/
structure Mmr where
  sysctl : Word
  gperrStat : Word
  pfbStart : Word
  pfbEnd : Word
  /-- REG_MISCREG_PFB_RANGE_SELECT (R380). -/
  pfbRange : Word
  pwrL1Sd : Word
  pwrGlb : Word
  pwrL1Ls : Word
  btbCfg : Word
  btbLockStart : Word
  btbLockEnd : Word
  l1cCfg : Word
  l1cCfg2 : Word
  l1cStart : Vector Word 8
  l1cEnd : Vector Word 8
  invIxstart : Word
  invCnt : Word
  /-- A range operation of the cache controller runs (R370). -/
  invRuns : Bool
  brkctl : Word
  brkstat : Word
  ospid : Word
  iaStart : Vector Word 4
  iaEnd : Vector Word 4
  daStart : Vector Word 2
  daEnd : Vector Word 2
  paStart : Word
  paEnd : Word
  emun : Word
  seciId : Word
  illop : Word
  illopLocked : Bool
  pfm : Vector Word 17
  /-- CMMR_SYSCTL.IMDWBLK3..0 as they govern the executing instruction (R315). -/
  imdwAct : BitVec 4
  deriving DecidableEq, Repr

/-- A store to a core memory-mapped register whose effect may not have arrived: the registers as they were before it, and
for how many more boundaries they may still govern (R320, R1226, U38). -/
structure Posted where
  was : Mmr
  left : Nat
  deriving DecidableEq, Repr

/-- Where an L1 block stands between light sleep and work (R324). -/
inductive BlockPower
  | awake
  | asleep
  | waking (cycles : Nat)
  deriving DecidableEq, Repr

/-- A run of bytes that stores wrote and that no flush sequence has covered since (R328, R355). The MODEL's own. -/
structure CodeWrite where
  phys : Nat
  bytes : Nat
  /-- A SYNC came after the store; a taken branch came after that. -/
  synced : Bool
  refetched : Bool
  /-- FLUSH CACHE came after the store, or the bytes are not in L1 and need none. -/
  flushed : Bool
  deriving DecidableEq, Repr

/-- The bytes of L1, L2 and L3, by physical byte address (R253, R346). -/
structure Memory where
  /-- The listed bytes, addresses strictly rising, none equal to what an unlisted byte reads as. -/
  cells : List Host.Cell
  /-- The loss that gave a block its unlisted contents: none at power-up, `some k` after the shutdown that drew the free
  value k (R324, U52). -/
  lost : Vector (Option Nat) 4
  /-- Light sleep of each L1 block (R324). -/
  power : Vector BlockPower 4
  /-- The MODEL's own: the stores that an instruction fetch may not meet (R328, R355). -/
  writes : List CodeWrite
  deriving DecidableEq, Repr

/-- The L1 caches: of instructions, of data over the DM bus and over the PM bus (R356). -/
inductive CacheUnit
  | i | dm | pm
  deriving DecidableEq, Repr

/-- A line of L2 or L3 that a cache holds (R358). -/
structure CacheLine where
  unit : CacheUnit
  /-- Its first byte address. -/
  line : Nat
  /-- Its way of the set. -/
  way : Bool
  /-- The bytes of it that the prefetch buffer filled with zeros and no store has written (R378); every other byte is
  memory's (R381). -/
  zeros : BitVec 64
  deriving DecidableEq, Repr

/-- The caches, and what the programming restrictions on them look back to. -/
structure CacheNotes where
  /-- The valid lines, the one used last first (R358, R361). -/
  lines : List CacheLine
  /-- Range registers that were written before the function of their pair was selected and not since: bit 2k START, bit
  2k + 1 END of pair k (R372). The MODEL's own. -/
  early : BitVec 16
  /-- Instructions still to come that may not be compressed after an access to a cache register (R372). The MODEL's own. -/
  near : Nat
  deriving DecidableEq, Repr

/-- What the executing instruction leaves for the boundary after it. The MODEL's own fields. -/
structure Boundary where
  /-- Breakpoint sets hit by a data access: bit 0 PA1, 1 DA1, 2 DA2 (R1151). -/
  hits : BitVec 3
  /-- TCOUNT was written explicitly (R1072). -/
  tcountWritten : Bool
  /-- ASTATX, ASTATY were written explicitly (R131). -/
  astatxWritten : Bool
  astatyWritten : Bool
  /-- The new MODE1 and ASTAT govern at once: a non-delayed return from interrupt (D62). -/
  mode1Now : Bool
  /-- A branch was taken, so that control does not pass to the sequential successor (R590, R593). -/
  taken : Bool
  /-- A CALL was taken (R590). -/
  called : Bool
  /-- A restricted branch sequence leaves the loop registers any value (R1037, U15). -/
  loopFree : Bool
  /-- A register write that the spec puts outside the defined behaviour: the step is refused (R1221, R1230). -/
  refused : Option Refusal
  deriving DecidableEq, Repr

/-- The state of one SHARC+ core. -/
structure State where
  data : Data
  dag : Dag
  seq : Seq
  sys : Sys
  mmr : Mmr
  /-- Stores to core memory-mapped registers since the last SYNC, newest first. -/
  posted : List Posted
  mem : Memory
  cache : CacheNotes
  /-- The exclusive monitor: the physical granule it holds (R337). -/
  excl : Option Nat
  /-- What the core has presented to targets other than its memories, newest first (R346, R1176): an output. -/
  bus : List Config.BusEvent
  bdry : Boundary
  /-- The MODEL's own field: the index of the next free value (log 6). -/
  free : Nat
  deriving DecidableEq, Repr

/-- A register file of zeros. -/
abbrev zeros (n w : Nat) : Vector (BitVec w) n := Vector.replicate n 0#w

/-- The machine right after reset (R92, R93, R94; values the spec does not give: log 2, 3, 4, 6, 13). -/
def State.reset : State where
  data := { r := zeros 16 40, rAlt := zeros 16 40, s := zeros 16 40, sAlt := zeros 16 40,
            mrf := 0#80, mrb := 0#80, msf := 0#80, msb := 0#80, px := 0#64, bff := 0#64, bffwrp := 0#7 }
  dag := { i := zeros 16 32, m := zeros 16 32, l := zeros 16 32, b := zeros 16 32,
           iAlt := zeros 16 32, mAlt := zeros 16 32, lAlt := zeros 16 32, bAlt := zeros 16 32 }
  seq := { pc := Config.resetVector, npc := Config.resetVector, pcStk := [], pcOv := false,
           pcStkpNew := none, pcStkpDue := none, loopStk := [], loopOv := false, lcntrs := List.replicate 6 0#32, stsStk := [], stsOv := false,
           branches := [], noIrq := 0, idle := false, vectorDue := false, srst := 0, btbHold := 0, cacheHold := 0 }
  sys := { mode1 := 0#32, mode1Act := 0#32, mmask := 0x00200000#32, mode2 := 0#32, flags := 0#32, pins := 0#4,
           astatx := 0#32, astaty := 0#32, condx := none, condy := none, stkyx := 0#32, stkyy := 0#32,
           irptl := 0#32, imask := 0#32, imaskp := 0#32, irptlSeen := 0#32, imaskWas := 0#32, mode2Was := 0#32,
           astatxWas := 0#32, astatyWas := 0#32, parity := false,
           ustat1 := 0#32, ustat2 := 0#32, ustat3 := 0#32, ustat4 := 0#32,
           tperiod := 0#32, tcount := 0#32, timer := .off, emuclk := 0#32, emuclk2 := 0#32 }
  mmr := { sysctl := 0#32, gperrStat := 0#32, pfbStart := 0#32, pfbEnd := 0#32, pfbRange := 0xFFFFFFFF#32, pwrL1Sd := 0#32, pwrGlb := 0#32,
           pwrL1Ls := 0#32, btbCfg := 0#32, btbLockStart := 0#32, btbLockEnd := 0#32, l1cCfg := 0#32, l1cCfg2 := 0#32,
           l1cStart := zeros 8 32, l1cEnd := zeros 8 32, invIxstart := 0#32, invCnt := 0#32, invRuns := false,
           brkctl := 0#32, brkstat := 0#32,
           ospid := 0#32, iaStart := zeros 4 32, iaEnd := zeros 4 32, daStart := zeros 2 32, daEnd := zeros 2 32,
           paStart := 0#32, paEnd := 0#32, emun := 0#32, seciId := 0#32, illop := 0#32, illopLocked := false,
           pfm := zeros 17 32, imdwAct := 0#4 }
  posted := []
  mem := { cells := [], lost := Vector.replicate 4 none, power := Vector.replicate 4 .awake, writes := [] }
  cache := { lines := [], early := 0, near := 0 }
  excl := none
  bus := []
  bdry := { hits := 0#3, tcountWritten := false, astatxWritten := false, astatyWritten := false, mode1Now := false, taken := false,
            called := false, loopFree := false, refused := none }
  free := 0

end Sys2Proof.Machine
end

