-- ==== Sys2Proof/Machine/Memory.lean ====
section
/-! DEFINITION. The bytes of memory and the address decode (spec/20_memory.md sections 1 and 2). -/

namespace Sys2Proof.Machine

open Sys2Proof Config

/-- The L1 block a physical byte address lies in (R252). -/
def blockOf (p : Nat) : Option (Fin 4) :=
  [(0 : Fin 4), 1, 2, 3].find? fun b => decide (blockBase b ≤ p ∧ p < blockBase b + blockSize b)

/-- A location in an L1 block. -/
def isL1 : Target → Bool
  | .l1 _ => true
  | .l2 | .l3 | .smmr | .device => false

/-- What an unlisted byte reads as: 0 at power-up (DESIGN CHOICE, log 3), the free contents of a block that a shutdown
lost (R324, U52). -/
def Memory.fill (m : Memory) (p : Nat) : Byte :=
  match blockOf p with
  | none => 0#8
  | some b =>
    match m.lost[b] with
    | none => 0#8
    | some k => (freeLong (k + p)).truncate 8

/-- The first listed byte at address `p`. -/
def lookupCell (p : Nat) : List Host.Cell → Option Byte
  | [] => none
  | (a, v) :: t => if a = p then some v else lookupCell p t

/-- Reading one byte. -/
def Memory.read (m : Memory) (p : Nat) : Byte := (lookupCell p m.cells).getD (m.fill p)

/-- Put `(p, v)` before the first cell with a higher address. -/
def insertCell (p : Nat) (v : Byte) : List Host.Cell → List Host.Cell
  | [] => [(p, v)]
  | (a, w) :: t => if p < a then (p, v) :: (a, w) :: t else (a, w) :: insertCell p v t

/-- Drop every cell at address `p`. -/
def eraseCell (p : Nat) : List Host.Cell → List Host.Cell
  | [] => []
  | (a, w) :: t => if a = p then eraseCell p t else (a, w) :: eraseCell p t

/-- Writing one byte: the canonical form is kept, writing what an unlisted byte reads as removes the entry. -/
def Memory.write (m : Memory) (p : Nat) (v : Byte) : Memory :=
  { m with cells := if v = m.fill p then eraseCell p m.cells else insertCell p v (eraseCell p m.cells) }

/-- Addresses strictly rising from `lo` on, no entry equal to the unlisted byte. -/
def wfCells (fill : Nat → Byte) : Nat → List Host.Cell → Bool
  | _, [] => true
  | lo, (a, v) :: t => decide (lo ≤ a) && decide (v ≠ fill a) && wfCells fill (a + 1) t

/-- The canonical form of memory. -/
def Memory.wf (m : Memory) : Bool := wfCells m.fill 0 m.cells

/-- `n` bytes from `p` on as a little-endian number (R257). -/
def Memory.readLE (m : Memory) (p : Nat) : Nat → Nat
  | 0 => 0
  | n + 1 => (m.read p).toNat + 256 * Memory.readLE m (p + 1) n

/-- Store the low `n` bytes of `v` from `p` on, little-endian (R257). -/
def Memory.writeLE (m : Memory) (p : Nat) (v : Nat) : Nat → Memory
  | 0 => m
  | n + 1 => Memory.writeLE (m.write p (BitVec.ofNat 8 v)) (p + 1) (v / 256) n

/-- A populated region and the unit offset in it. -/
structure Loc where
  region : Region
  off : Nat
  deriving DecidableEq, Repr

/-- The region an address lies in (R255), outside CMMR_RANGE. -/
def locate (a : Nat) : Option Loc :=
  if inCmmrRange a then none
  else (regions.find? fun r => decide (r.base ≤ a ∧ a < r.base + r.count)).map fun r => ⟨r, a - r.base⟩

/-- `space(a)` (R255); none for an unpopulated address or a core memory-mapped register. -/
def spaceOf (a : Word) : Option Space := (locate a.toNat).map (·.region.space)

/-- The alias of the same target in another space (R255). -/
def aliasOf (r : Region) (sp : Space) : Option Region :=
  regions.find? fun q => decide (q.target = r.target ∧ q.space = sp)

/-- How many bits one element of an access moves (R263). -/
inductive Width
  | w8 | w16 | w32 | w40 | w48 | w64
  deriving DecidableEq, Repr

/-- Bytes of storage of an element; 40-bit data takes a 48-bit word (R258). -/
def Width.bytes : Width → Nat
  | .w8 => 1
  | .w16 => 2
  | .w32 => 4
  | .w40 => 6
  | .w48 => 6
  | .w64 => 8

/-- Byte offset of the element of width `w` at normal-word offset `k` (R256, R258, R299). 48-bit words lie six bytes apart
in every memory; R258 says so of L1, for L2 and L3 it is a DESIGN CHOICE (R317, N23; log 52). -/
def nwPlace (w : Width) (k : Nat) : Nat :=
  match w with
  | .w40 | .w48 => 6 * k
  | .w64 => 8 * (k / 2)
  | .w8 | .w16 | .w32 => 4 * k

/-- Byte offset of the element of width `w` at byte offset `k`; `imdw`: the block is in 48-bit mode (R258, R313). That a
48-bit access of PX takes the six-byte word there, and six bytes from `k` on elsewhere, is a DESIGN CHOICE (log 52); so is that a
short word at byte offset 3 of a 48-bit word runs on into the low byte of the next one, as the formula of R313 has it where its
last sentence calls that byte unreachable. -/
def bwPlace (w : Width) (imdw : Bool) (k : Nat) : Nat :=
  match w with
  | .w40 => 6 * (k / 4)
  | .w48 => if imdw then 6 * (k / 4) else k
  | .w8 | .w16 => if imdw then 6 * (k / 4) + 2 + k % 4 else k
  | .w32 | .w64 => k

/-- Byte offset of the element of width `w` at unit offset `k` of a space. -/
def placeIn (sp : Space) (w : Width) (imdw : Bool) (k : Nat) : Nat :=
  match sp with
  | .lw => 8 * k
  | .nw => nwPlace w k
  | .sw => 2 * k
  | .bw => bwPlace w imdw k

/-- The first physical byte of the element of width `w` at unit offset `k` of region `r` (R256, R258, R299, R313). -/
def physOf (r : Region) (k : Nat) (w : Width) (imdw : Bool) : Nat := r.phys + placeIn r.space w imdw k

/-- CMMR_SYSCTL.IMDWBLK of the block of a region, as it governs (R315); L1 only (R317). -/
def State.imdw (s : State) (r : Region) : Bool :=
  match r.target with
  | .l1 b => s.mmr.imdwAct.getLsbD b
  | _ => false

/-- The registers that govern: those after the newest posted store or, by a free choice, those before it
(R320, R1226, U38). -/
def Mmr.pick (m : Mmr) (k : Nat) : List Posted → Mmr
  | [] => m
  | p :: t => if freeBit k then m else p.was.pick (k + 1) t

/-- One field of the registers that govern: a choice only where a store that may not have arrived changed it. -/
def State.governs {α : Type} [DecidableEq α] (s : State) (f : Mmr → α) : α :=
  if s.posted.all fun p => decide (f p.was = f s.mmr) then f s.mmr else f (s.mmr.pick (256 * s.free + 48) s.posted)

/-- The core memory-mapped registers as they govern the executing instruction: those that something inside the core goes
by. -/
def State.gov (s : State) : Mmr :=
  { s.mmr with
    sysctl := s.governs (·.sysctl), pfbStart := s.governs (·.pfbStart), pfbEnd := s.governs (·.pfbEnd)
    pfbRange := s.governs (·.pfbRange), pwrL1Sd := s.governs (·.pwrL1Sd), pwrGlb := s.governs (·.pwrGlb)
    pwrL1Ls := s.governs (·.pwrL1Ls), l1cCfg := s.governs (·.l1cCfg), l1cCfg2 := s.governs (·.l1cCfg2)
    l1cStart := s.governs (·.l1cStart), l1cEnd := s.governs (·.l1cEnd), brkctl := s.governs (·.brkctl)
    iaStart := s.governs (·.iaStart), iaEnd := s.governs (·.iaEnd), daStart := s.governs (·.daStart)
    daEnd := s.governs (·.daEnd), paStart := s.governs (·.paStart), paEnd := s.governs (·.paEnd)
    emun := s.governs (·.emun), illopLocked := s.governs (·.illopLocked) }

/-! ### L1 low power (R324, R325) -/

/-- CMMR_SYSCTL.L1_SD_EN and BANK_b_SD shut block b down; the first 0.25 MB of block 0 stay on, which is all of it. -/
def shutBlocks (sysctl pwrSd : Word) (b : Fin 4) : Bool :=
  decide (b ≠ 0) && sysctl.getLsbD 26 && pwrSd.getLsbD b

/-- A block's answer to an access: light sleep wakes on the first access and serves nothing for 11 cycles. -/
def BlockPower.onAccess : BlockPower → BlockPower
  | .asleep => .waking 11
  | p => p

/-- Whether a block serves an access now. -/
def BlockPower.serves : BlockPower → Bool
  | .awake => true
  | _ => false

/-- `n` cycles pass for a waking block. -/
def BlockPower.advance (n : Nat) : BlockPower → BlockPower
  | .waking c => if c ≤ n then .awake else .waking (c - n)
  | p => p

/-- `n` cycles pass for the four blocks. -/
def Memory.passPower (m : Memory) (n : Nat) : Memory :=
  { m with power := #v[m.power[0].advance n, m.power[1].advance n, m.power[2].advance n, m.power[3].advance n] }

/-- Where block `b` stands for the executing instruction: a store to CMMR_PWR_L1_LS_CTL that may not have arrived can leave
the block as it was before it (R1226, U38). -/
def State.powerOf (s : State) (b : Fin 4) : BlockPower :=
  if s.gov.pwrL1Ls.getLsbD b = s.mmr.pwrL1Ls.getLsbD b then s.mem.power[b]
  else if s.gov.pwrL1Ls.getLsbD b then .asleep else .awake

/-- The block of a region serves accesses. -/
def State.blockReads (s : State) (r : Region) : Bool :=
  match r.target with
  | .l1 b => (s.powerOf b).serves
  | _ => true

/-- A store to the region takes place. -/
def State.blockWrites (s : State) (r : Region) : Bool :=
  match r.target with
  | .l1 b => (s.powerOf b).serves && !shutBlocks s.gov.sysctl s.gov.pwrL1Sd b
  | _ => true

/-- An access, of data or of an instruction, wakes the sleeping block it goes to (R324). -/
def State.touch (s : State) (m : Memory) (t : Target) : Memory :=
  match t with
  | .l1 b => if s.powerOf b = .asleep then { m with power := m.power.set b m.power[b].onAccess } else m
  | _ => m

/-- The contents of block `b` are lost: its bytes take the free contents drawn at index `k`. -/
def Memory.lose (m : Memory) (b : Fin 4) (k : Nat) : Memory :=
  { m with cells := m.cells.filter fun c => decide (blockOf c.1 ≠ some b), lost := m.lost.set b (some k) }

/-! ### Stores into code (R328, R355) -/

/-- A store of `n` bytes at `p` is noted: a later fetch of them needs the flush sequence, for L1 with FLUSH CACHE. -/
def Memory.note (m : Memory) (p n : Nat) : Memory :=
  { m with writes := { phys := p, bytes := n, synced := false, refetched := false, flushed := (blockOf p).isNone } ::
      m.writes.filter fun w => !(w.phys == p && w.bytes == n) }

/-- SYNC: the stores before it are complete (R327). -/
def Memory.sync (m : Memory) : Memory := { m with writes := m.writes.map fun w => { w with synced := true } }

/-- FLUSH CACHE: no copy of them is left in the conflict cache (R353). -/
def Memory.flushCode (m : Memory) : Memory :=
  { m with writes := (m.writes.map fun w => { w with flushed := true }).filter fun w => !w.refetched }

/-- A taken branch refetches what a SYNC completed (R328); runs of bytes that need no more are forgotten. -/
def Memory.refetch (m : Memory) : Memory :=
  { m with writes := (m.writes.map fun w => { w with refetched := w.refetched || w.synced }).filter fun w =>
      !(w.refetched && w.flushed) }

/-- Some of the `n` bytes at `p` were stored to and not flushed since. -/
def Memory.stale (m : Memory) (p n : Nat) : Bool :=
  m.writes.any fun w => decide (p < w.phys + w.bytes ∧ w.phys < p + n)

/-! ### Reads of cache lines -/

/-- The cache line of a byte (R358). -/
def lineOf (p : Nat) : Nat := p / 64 * 64

/-- What `n` bytes at `p` read as when the bytes of `zero` read as zeros: byte by byte, little-endian. -/
def Memory.readSome (m : Memory) (zero : Nat → Bool) (p : Nat) : Nat → Nat
  | 0 => 0
  | n + 1 => (if zero p then 0 else (m.read p).toNat) + 256 * Memory.readSome m zero (p + 1) n

end Sys2Proof.Machine
end

