-- ==== Sys2Proof/Machine/Cache.lean ====
section
/-! DEFINITION. The L1 instruction and data caches as far as a program can tell: which lines each of them holds, in which way and
in which order of use, and which bytes of them the prefetch buffer filled with zeros (spec/21_cache.md R356 to R371, R378, R380).
Every other byte of a held line is the byte of memory (R381, D24). -/

namespace Sys2Proof.Machine

open Sys2Proof Config

/-! ### Geometry (R356, R358, R366, R374) -/

/-- The lowest bit of a cache's fields in SHL1C_CFG (R374). -/
def CacheUnit.base : CacheUnit → Nat
  | .i => 0
  | .dm => 8
  | .pm => 16

/-- The cache is enabled (R374). -/
def CacheUnit.on (u : CacheUnit) (cfg : Word) : Bool := cfg.getLsbD u.base

/-- Its sets (R358). -/
def CacheUnit.sets (u : CacheUnit) (cfg : Word) : Nat := 128 * 2 ^ (cfg.extractLsb' (u.base + 1) 2).toNat

/-- A way of it is locked (R366, R374). -/
def CacheUnit.locked (u : CacheUnit) (cfg : Word) (way : Bool) : Bool := cfg.getLsbD (u.base + 4 + way.toNat)

/-- A store of `v` to SHL1C_CFG invalidates it (R369). -/
def CacheUnit.invalidated (u : CacheUnit) (v : Word) : Bool := v.getLsbD (u.base + 6)

/-- The data cache of a bus (R356). -/
def dataCache (pm : Bool) : CacheUnit := if pm then .pm else .dm

/-- The caches that serve an access of this one: a data cache is asked with the other data cache (R362). -/
def CacheUnit.asked : CacheUnit → List CacheUnit
  | .i => [.i]
  | .dm | .pm => [.dm, .pm]

/-- The set of a line (R358). -/
def CacheUnit.setOf (u : CacheUnit) (cfg : Word) (line : Nat) : Nat := line / 64 % u.sets cfg

/-- L2 and L3, what the caches hold (R356). -/
def isExternal (t : Target) : Bool := t == .l2 || t == .l3

/-! ### Ranges (R365, R366, R372, R375) -/

/-- The byte address of a range address: data ranges are byte addresses, those of code are native (R358, R367, R372). -/
def normalAddr (a : Word) : Nat :=
  match locate a.toNat with
  | none => a.toNat
  | some l =>
    match l.region.space with
    | .nw => l.region.phys + 6 * l.off
    | .sw => l.region.phys + 2 * l.off
    | .lw => l.region.phys + 8 * l.off
    | .bw => l.region.phys + l.off

/-- Range pair `k` is enabled with function `sel` and holds byte `p` (R372, R375). -/
def State.inRange (s : State) (k : Fin 8) (sel : Bool) (p : Nat) : Bool :=
  s.gov.l1cCfg2.getLsbD (2 * k) == sel && s.gov.l1cCfg2.getLsbD (2 * k + 1) &&
    decide (normalAddr s.gov.l1cStart[k] ≤ p ∧ p < normalAddr s.gov.l1cEnd[k])

/-- Byte address `p` lies in an enabled non-cacheable range (R365, R375). -/
def State.nonCacheable (s : State) (p : Nat) : Bool := [(2 : Fin 8), 3, 4, 5, 6, 7].any fun k => s.inRange k true p

/-- Byte address `p` lies in an enabled write-through range (R364, R375). -/
def State.writeThrough (s : State) (p : Nat) : Bool := [(4 : Fin 8), 5, 6, 7].any fun k => s.inRange k false p

/-- Byte address `p` lies in an enabled cache lock range: its line is not replaced (R366, R375). -/
def State.lockRange (s : State) (p : Nat) : Bool := [(0 : Fin 8), 1, 2, 3].any fun k => s.inRange k false p

/-- Byte address `p` lies in an enabled write-back-invalidate range (R370, R375). -/
def State.wbiRange (s : State) (p : Nat) : Bool := [(0 : Fin 8), 1].any fun k => s.inRange k true p

/-- External byte address `p` is cacheable on the bus: its data cache is on and no non-cacheable range holds it
(R359, R365, R375). -/
def State.cacheable (s : State) (pm : Bool) (p : Nat) : Bool := (dataCache pm).on s.gov.l1cCfg && !s.nonCacheable p

/-- The two ends of an enabled range lie in different spaces: an address space is mixed in one range (R372). The end is the
address after the last byte. -/
def mixedRange (a b : Word) : Bool := decide (a ≠ 0#32 ∧ b ≠ 0#32 ∧ spaceOf a ≠ spaceOf (b - 1#32))

/-- An enabled range breaks R372: it mixes address spaces, or its function was selected after its registers were written. -/
def State.brokenRange (s : State) : Bool :=
  [(0 : Fin 8), 1, 2, 3, 4, 5, 6, 7].any fun k =>
    s.gov.l1cCfg2.getLsbD (2 * k + 1) &&
      (s.cache.early.getLsbD (2 * k) || s.cache.early.getLsbD (2 * k + 1) || mixedRange s.gov.l1cStart[k] s.gov.l1cEnd[k])

/-- Some cache is enabled (R374). -/
def cacheOn (cfg : Word) : Bool := cfg.getLsbD 0 || cfg.getLsbD 8 || cfg.getLsbD 16

/-- An access to L2 or L3 that a broken range could decide on (R372). -/
def State.rangeStop (s : State) (t : Target) : Bool := isExternal t && cacheOn s.gov.l1cCfg && s.brokenRange

/-! ### Held lines (R358, R360, R361, R366) -/

/-- The line that one of the caches holds. -/
def CacheNotes.held (c : CacheNotes) (us : List CacheUnit) (line : Nat) : Option CacheLine :=
  c.lines.find? fun x => us.contains x.unit && x.line == line

/-- The lines that a cache holds in the set of a line, the one used last first. -/
def CacheNotes.mates (c : CacheNotes) (u : CacheUnit) (cfg : Word) (line : Nat) : List CacheLine :=
  c.lines.filter fun x => x.unit == u && u.setOf cfg x.line == u.setOf cfg line

/-- The way that a miss fills: an invalid one, of two invalid ones that of a locked way, then way 0; else the one used longest
ago of those that no lock keeps; none if the locks keep both (R361, R366). -/
def State.wayFor (s : State) (c : CacheNotes) (u : CacheUnit) (line : Nat) : Option Bool :=
  let cfg := s.gov.l1cCfg
  let mates := c.mates u cfg line
  let valid := fun w : Bool => mates.any fun x => x.way == w
  match valid false, valid true with
  | false, false => some (!u.locked cfg false && u.locked cfg true)
  | false, true => some false
  | true, false => some true
  | true, true => (mates.reverse.find? fun x => !u.locked cfg x.way && !s.lockRange x.line).map CacheLine.way

/-- An enabled, unmasked interrupt is pending while SHL1C_CFG.FISREN makes line fills through accesses (R368). -/
def State.fastIsr (s : State) : Bool :=
  s.gov.l1cCfg.getLsbD 24 && s.sys.mode1.getLsbD 12 && decide (s.sys.irptl &&& s.sys.imask ≠ 0#32)

/-- A miss on a line fills it. It is a through access where the access is one (`through`), in a non-cacheable range, for the fast
interrupt, and where the locks keep both ways (R363, R365, R366, R368). -/
def State.fillsLine (s : State) (u : CacheUnit) (line : Nat) (through : Bool) : Bool :=
  u.on s.gov.l1cCfg && !through && !s.nonCacheable line && !s.fastIsr && (s.wayFor s.cache u line).isSome

/-! ### The return-zero range of the prefetch buffer (R378) -/

/-- A line of L2 or L3 that the prefetch buffer of the data port, or of the instruction port, returns as zeros: with
UNINT_RET_0 set, the port's buffer enabled, and enabled for the 256 MB the line lies in (R380), from the range's start to
its end, inclusive (DESIGN CHOICE, log 53). -/
def State.zeroLine (s : State) (r : Region) (data : Bool) (p : Nat) : Bool :=
  isExternal r.target && s.gov.sysctl.getLsbD 15 && s.gov.sysctl.getLsbD (if data then 14 else 13) &&
    s.gov.pfbRange.getLsbD ((if data then 0 else 16) + p / 0x10000000) &&
    decide (s.gov.pfbStart.toNat ≤ lineOf p ∧ lineOf p ≤ s.gov.pfbEnd.toNat)

/-- A miss asks the prefetch buffer for the line: to fill it, or, with the cache off, to read from it, but for an access that
goes through to the memory. That the buffer serves the reads of a port whose cache is off is a DESIGN CHOICE (log 53). -/
def State.asksBuffer (s : State) (u : CacheUnit) (line : Nat) (through : Bool) : Bool :=
  if u.on s.gov.l1cCfg then s.fillsLine u line through else !through && !s.nonCacheable line

/-- Byte `p` reads as zero through a cache: in a held line if the line came with zeros there, else if the miss asks the prefetch
buffer for a line of the return-zero range (R360, R361, R363, R378). -/
def State.zeroByte (s : State) (u : CacheUnit) (r : Region) (through : Bool) (p : Nat) : Bool :=
  match s.cache.held u.asked (lineOf p) with
  | some x => x.zeros.getLsbD (p % 64)
  | none => s.zeroLine r (u != .i) p && s.asksBuffer u (lineOf p) through

/-- Byte `p` may read as zero through a data cache. -/
def State.mayZero (s : State) (r : Region) (p : Nat) : Bool :=
  s.zeroLine r true p || s.cache.lines.any fun x => x.unit != .i && x.line == lineOf p && x.zeros != 0#64

/-! ### The use of a line -/

/-- What an access does to one line: the cache of its bus, whether a miss fills the line, and whether it comes as zeros. -/
structure LineUse where
  unit : CacheUnit
  line : Nat
  fills : Bool
  zero : Bool
  deriving DecidableEq, Repr

/-- The lines that an access of `n` bytes at `p` uses; none but those of L2 and L3. -/
def State.usesOf (s : State) (u : CacheUnit) (r : Region) (through : Nat → Bool) (p n : Nat) : List LineUse :=
  if isExternal r.target then
    [p, p + n - 1].map fun q => ⟨u, lineOf q, s.fillsLine u (lineOf q) (through (lineOf q)), s.zeroLine r (u != .i) q⟩
  else []

/-- The access uses a line that no cache holds. -/
def CacheNotes.misses (c : CacheNotes) (x : LineUse) : Bool := (c.held x.unit.asked x.line).isNone

/-- The notes after the use of a line: a hit makes it the one used last, a miss fills it in its way (R360, R361; that every hit
counts for the replacement is a DESIGN CHOICE, log 53). -/
def State.useLine (s : State) (c : CacheNotes) (x : LineUse) : CacheNotes :=
  match c.held x.unit.asked x.line with
  | some y => { c with lines := y :: c.lines.filter fun z => z != y }
  | none =>
    match s.wayFor c x.unit x.line with
    | none => c
    | some w =>
      if x.fills then
        let cfg := s.gov.l1cCfg
        { c with lines := { unit := x.unit, line := x.line, way := w, zeros := if x.zero then BitVec.allOnes 64 else 0#64 } ::
            c.lines.filter fun z => !(z.unit == x.unit && z.way == w && x.unit.setOf cfg z.line == x.unit.setOf cfg x.line) }
      else c

/-- The notes after the uses of some lines. -/
def State.useLines (s : State) (l : List LineUse) (c : CacheNotes) : CacheNotes := l.foldl s.useLine c

/-- The bytes of a line among `n` bytes from `p` on. -/
def byteMask (line p : Nat) : Nat → BitVec 64
  | 0 => 0#64
  | n + 1 => (if lineOf p = line then 1#64 <<< (p % 64) else 0#64) ||| byteMask line (p + 1) n

/-- The masked bytes of a line are 0 in memory. -/
def Memory.clear (m : Memory) (line : Nat) (mask : BitVec 64) : Memory :=
  (List.range 64).foldl (fun m k => if mask.getLsbD k then m.write (line + k) 0#8 else m) m

/-- Memory before the bytes of a store that uses a line: a store that makes a held line dirty takes the line's zeros along, which
will be written back with it. That they reach memory with the store and not with the write-back is a DESIGN CHOICE (log 53). -/
def State.zeroOut (s : State) (c : CacheNotes) (m : Memory) (x : LineUse) : Memory :=
  match c.held x.unit.asked x.line with
  | some y => if s.writeThrough x.line then m else m.clear y.line y.zeros
  | none => m

/-- Memory before the bytes of a store that uses some lines. -/
def State.zerosOut (s : State) (c : CacheNotes) (l : List LineUse) (m : Memory) : Memory := l.foldl (s.zeroOut c) m

/-- The notes after the bytes of a store at `p`: of a held line the stored bytes are memory's, and with write-back all of them
are (R360, R364). -/
def State.noteBytes (s : State) (l : List LineUse) (p n : Nat) (c : CacheNotes) : CacheNotes :=
  { c with lines := c.lines.map fun y =>
      if y.unit != .i && l.any fun x => x.line == y.line then
        { y with zeros := if s.writeThrough y.line then y.zeros &&& ~~~byteMask y.line p n else 0#64 }
      else y }

/-! ### Maintenance (R369 to R371) -/

/-- The notes after a store of `v` to SHL1C_CFG (R369). -/
def CacheNotes.invalidate (c : CacheNotes) (v : Word) : CacheNotes :=
  { c with lines := c.lines.filter fun x => !x.unit.invalidated v }

/-- The notes after an operation of Type 20a that invalidates the lines of some caches at the running index: those of the lines
that a write-back-invalidate range holds (R370, R371; the match by the ranges is a DESIGN CHOICE, log 57). -/
def State.invalidateIndex (s : State) (us : List CacheUnit) : CacheNotes :=
  { s.cache with lines := s.cache.lines.filter fun x =>
      !(us.contains x.unit && s.wbiRange x.line &&
        x.unit.setOf s.gov.l1cCfg x.line == s.mmr.invIxstart.toNat % x.unit.sets s.gov.l1cCfg) }

end Sys2Proof.Machine
end

