-- ==== Sys2Proof/Machine/Flags.lean ====
section
/-! DEFINITION. Bit positions of the status and mode registers and the flag updates of the computation units
(spec/11_state_registers.md R131 to R161, R170 to R196, R210). -/

namespace Sys2Proof.Machine

open Sys2Proof

/-- A word with bit `i` equal to `b` and every other bit 0. -/
def flagBit (i : Nat) (b : Bool) : Word := if b then 1#32 <<< i else 0#32

/-- `x` with bit `i` made `b`. -/
def putBit (x : Word) (i : Nat) (b : Bool) : Word := (x &&& ~~~(1#32 <<< i)) ||| flagBit i b

/-! ### MODE1 (R170), MODE2 (R190) -/

/-- MODE1 bit positions (R170). -/
inductive ModeBit
  | selpe | sinest | cbufen | bdcst1 | bdcst9 | peyen | rnd32 | truncate | sse | alusat | irpten | nestm
  | srrfl | srrfh | srd2l | srd2h | srd1l | srd1h | srcu | br0 | br8
  deriving DecidableEq, Repr

/-- The position of a MODE1 bit (R170). -/
def ModeBit.pos : ModeBit → Nat
  | .selpe => 31
  | .sinest => 30
  | .cbufen => 24
  | .bdcst1 => 23
  | .bdcst9 => 22
  | .peyen => 21
  | .rnd32 => 16
  | .truncate => 15
  | .sse => 14
  | .alusat => 13
  | .irpten => 12
  | .nestm => 11
  | .srrfl => 10
  | .srrfh => 7
  | .srd2l => 6
  | .srd2h => 5
  | .srd1l => 4
  | .srd1h => 3
  | .srcu => 2
  | .br0 => 1
  | .br8 => 0

/-- The writable bits of MODE1, MMASK and MODE1STK (R170, R185): bits 26:25, 20:17 and 9:8 are reserved. -/
def mode1Mask : Word := 0xF9E1FCFF#32
/-- The writable bits of MODE2 (R190). -/
def mode2Mask : Word := 0x003800B1#32
/-- The bits of ASTATX and ASTATY but SF (R131). -/
def astatMask : Word := 0xFF043FFF#32
/-- The writable bits of STKYX (R150): the stack status bits are R/NW. -/
def stkyxMask : Word := 0x001E03E7#32
/-- The writable bits of STKYY (R150, D14). -/
def stkyyMask : Word := 0x000003E7#32
/-- The writable bits of IRPTL, IMASK and IMASKP (R210): bits 0 and 1 are R/NW; 2, 9, 10, 16 to 19 do not exist. -/
def irptMask : Word := 0xFFF0F9F8#32

/-! ### Interrupt numbers (R210, R1031) -/

/-- The interrupts that something raises by name: the core itself, the event controller and the accelerators. -/
inductive Irq
  | pari | ilopi | cb7i | iicdi | sovfi | iladi | tmzhi | bkpi | firi | iiri | seci | rinseqi | cb15i | tmzli | fixi | fltoi | fltui | fltii
  deriving DecidableEq, Repr

/-- The number of an interrupt (R1031). -/
def Irq.num : Irq → Nat
  | .pari => 3
  | .ilopi => 4
  | .cb7i => 5
  | .iicdi => 6
  | .sovfi => 7
  | .iladi => 8
  | .tmzhi => 11
  | .bkpi => 12
  | .firi => 13
  | .iiri => 14
  | .seci => 15
  | .rinseqi => 20
  | .cb15i => 21
  | .tmzli => 22
  | .fixi => 23
  | .fltoi => 24
  | .fltui => 25
  | .fltii => 26

/-! ### ASTAT (R131) -/

/-- The seven flags an ALU operation writes (R149). -/
structure AluFlags where
  az : Bool := false
  av : Bool := false
  an : Bool := false
  ac : Bool := false
  as : Bool := false
  ai : Bool := false
  af : Bool := false
  deriving DecidableEq, Repr

/-- ASTAT after an ALU operation that is not a compare (R149). -/
def AluFlags.apply (f : AluFlags) (astat : Word) : Word :=
  (astat &&& ~~~0x0000043F#32) ||| flagBit 0 f.az ||| flagBit 1 f.av ||| flagBit 2 f.an ||| flagBit 3 f.ac
    ||| flagBit 4 f.as ||| flagBit 5 f.ai ||| flagBit 10 f.af

/-- The compare accumulation (R132). -/
def pushCacc (bit : Bool) (astat : Word) : Word :=
  (astat &&& 0x00FFFFFF#32) ||| ((astat >>> 1) &&& 0x7F000000#32) ||| flagBit 31 bit

/-- The four flags a multiplier operation writes (R149). -/
structure MulFlags where
  mn : Bool := false
  mv : Bool := false
  mu : Bool := false
  mi : Bool := false
  deriving DecidableEq, Repr

/-- ASTAT after a multiplier operation (R149). -/
def MulFlags.apply (f : MulFlags) (astat : Word) : Word :=
  (astat &&& ~~~0x000003C0#32) ||| flagBit 6 f.mn ||| flagBit 7 f.mv ||| flagBit 8 f.mu ||| flagBit 9 f.mi

/-- The three flags a shifter operation writes (R149); SF is an image of BFFWRP. -/
structure ShFlags where
  sv : Bool := false
  sz : Bool := false
  ss : Bool := false
  deriving DecidableEq, Repr

/-- ASTAT after a shifter operation (R149). -/
def ShFlags.apply (f : ShFlags) (astat : Word) : Word :=
  (astat &&& ~~~0x00003800#32) ||| flagBit 11 f.sv ||| flagBit 12 f.sz ||| flagBit 13 f.ss

/-- ASTAT.BTF (R133). -/
def setBtf (b : Bool) (astat : Word) : Word := putBit astat 18 b

/-! ### STKY (R160, R161): what an operation sets and never clears -/

/-- The sticky bits an operation sets. -/
structure Sticky where
  aus : Bool := false
  avs : Bool := false
  aos : Bool := false
  ais : Bool := false
  mos : Bool := false
  mvs : Bool := false
  mus : Bool := false
  mis : Bool := false
  deriving DecidableEq, Repr

/-- STKY after the operation. -/
def Sticky.apply (f : Sticky) (stky : Word) : Word :=
  stky ||| flagBit 0 f.aus ||| flagBit 1 f.avs ||| flagBit 2 f.aos ||| flagBit 5 f.ais ||| flagBit 6 f.mos
    ||| flagBit 7 f.mvs ||| flagBit 8 f.mus ||| flagBit 9 f.mis

/-! ### Conditions on the flags (R75) -/

/-- LTval of R75. -/
def ltVal (astat : Word) (alusat : Bool) : Bool :=
  (!astat.getLsbD 10 && (astat.getLsbD 2 ^^ (astat.getLsbD 1 && !alusat)))
    || (astat.getLsbD 10 && astat.getLsbD 2 && !astat.getLsbD 0)

/-- LTval_le of R75. -/
def leVal (astat : Word) (alusat : Bool) : Bool :=
  (!astat.getLsbD 10 && (astat.getLsbD 2 ^^ (astat.getLsbD 1 && !alusat)))
    || (astat.getLsbD 10 && astat.getLsbD 2) || astat.getLsbD 0

end Sys2Proof.Machine
end

