-- ==== Sys2Proof/Machine/Operands.lean ====
section
/-! DEFINITION. Reading and writing registers: data registers, address registers, universal registers with their write
rules, conditions (spec/10_state.md R41 to R90, spec/11_state_registers.md). -/

namespace Sys2Proof.Machine

open Sys2Proof

/-! ### Free values (log 6) -/

/-- The free word of slot `k` in this step; the step advances `free`, so no slot is drawn twice. Slots: 0 the cycles of
the step; 1, 2 the computations of PEx and PEy; 3 to 6 the data moves; 7 views; 8 to 42 registers and stacks; 48 on posted
stores; 64 on loops after a restricted sequence; 90 on interrupts; 100 on arithmetic loops; 112 a fetched word. -/
def State.slot (s : State) (k : Nat) : Nat := 256 * s.free + k

/-- The free word of a slot. -/
def State.freeWord (s : State) (k : Nat) : Word := Config.freeWord (s.slot k)

/-! ### Governing modes -/

/-- A MODE1 bit as it governs the executing instruction (R47). -/
def State.mode (s : State) (b : ModeBit) : Bool := s.sys.mode1Act.getLsbD b.pos

/-- SIMD mode (R176). -/
def State.simd (s : State) : Bool := s.mode .peyen

/-! ### Register files -/

/-- Register `n` of a file. -/
def rget {α : Type} (v : Vector α 16) (n : RegNo) : α := v[n.toNat]'n.isLt

/-- The file with register `n` replaced. -/
def rset {α : Type} (v : Vector α 16) (n : RegNo) (x : α) : Vector α 16 := v.set n.toNat x n.isLt

/-- The alternate set is selected for data register `n` (R46). -/
def State.altData (s : State) (n : RegNo) : Bool := if n.toNat < 8 then s.mode .srrfl else s.mode .srrfh

/-- The alternate set is selected for address register `n` (R54). -/
def State.altDag (s : State) (n : RegNo) : Bool :=
  if n.toNat < 4 then s.mode .srd1l else if n.toNat < 8 then s.mode .srd1h
  else if n.toNat < 12 then s.mode .srd2l else s.mode .srd2h

/-- Data register `n` of PEx (`y = false`) or PEy (R41, R42, R46). -/
def State.dreg (s : State) (y : Bool) (n : RegNo) : Reg40 :=
  if y then rget (if s.altData n then s.data.sAlt else s.data.s) n
  else rget (if s.altData n then s.data.rAlt else s.data.r) n

/-- Write of all 40 bits of a data register. -/
def State.setDreg (s : State) (y : Bool) (n : RegNo) (v : Reg40) : State :=
  if y then
    if s.altData n then { s with data := { s.data with sAlt := rset s.data.sAlt n v } }
    else { s with data := { s.data with s := rset s.data.s n v } }
  else
    if s.altData n then { s with data := { s.data with rAlt := rset s.data.rAlt n v } }
    else { s with data := { s.data with r := rset s.data.r n v } }

/-- The 32-bit field of a data register, bits 39:8 (R49). -/
def hi32 (v : Reg40) : Word := v.extractLsb' 8 32

/-- A 32-bit value in the 32-bit field, the low 8 bits clear (R49). -/
def reg40 (v : Word) : Reg40 := v ++ 0#8

/-- Index register (R53, R54). -/
def State.ireg (s : State) (n : RegNo) : Word := rget (if s.altDag n then s.dag.iAlt else s.dag.i) n
/-- Modify register. -/
def State.mreg (s : State) (n : RegNo) : Word := rget (if s.altDag n then s.dag.mAlt else s.dag.m) n
/-- Length register. -/
def State.lreg (s : State) (n : RegNo) : Word := rget (if s.altDag n then s.dag.lAlt else s.dag.l) n
/-- Base register. -/
def State.breg (s : State) (n : RegNo) : Word := rget (if s.altDag n then s.dag.bAlt else s.dag.b) n

/-- Write of an index register; B is not changed (R275). -/
def State.setI (s : State) (n : RegNo) (v : Word) : State :=
  if s.altDag n then { s with dag := { s.dag with iAlt := rset s.dag.iAlt n v } }
  else { s with dag := { s.dag with i := rset s.dag.i n v } }

/-- Write of a modify register. -/
def State.setM (s : State) (n : RegNo) (v : Word) : State :=
  if s.altDag n then { s with dag := { s.dag with mAlt := rset s.dag.mAlt n v } }
  else { s with dag := { s.dag with m := rset s.dag.m n v } }

/-- Write of a length register. -/
def State.setL (s : State) (n : RegNo) (v : Word) : State :=
  if s.altDag n then { s with dag := { s.dag with lAlt := rset s.dag.lAlt n v } }
  else { s with dag := { s.dag with l := rset s.dag.l n v } }

/-- Write of a base register alone, as B2W and W2B make it (R261). -/
def State.setBOnly (s : State) (n : RegNo) (v : Word) : State :=
  if s.altDag n then { s with dag := { s.dag with bAlt := rset s.dag.bAlt n v } }
  else { s with dag := { s.dag with b := rset s.dag.b n v } }

/-- Write of a base register: the index register of the same number is loaded too (R275). -/
def State.setB (s : State) (n : RegNo) (v : Word) : State := (s.setBOnly n v).setI n v

/-- The register number of a 3-bit code in DAG1 (`pm = false`) or DAG2 (R413). -/
def dagNo (pm : Bool) (n : DagNo) : RegNo := boolBit pm ++ n

/-! ### Sequencer registers -/

/-- Addresses an instruction of full length spans at `a`: 1 in normal-word, 3 in short-word space (R60). -/
def fullLen (a : IAddr) : Nat := if spaceOf (a.setWidth 32) = some .sw then 3 else 1

/-- The termination code of a loop address word (R67, D7). -/
def loopTerm (w : Word) : BitVec 5 := w.extractLsb' 24 5

/-- The F1-active mark of a loop address word: type 3 (R67, R591; the type codes are a DESIGN CHOICE, log 21). -/
def loopF1 (w : Word) : Bool := w.extractLsb' 29 3 = 3#3

/-- The loop stacks without their top entry; LCNTR is the counter location it leaves, with the count before the loop was
executed (R70, R592; DEDUCED, log 23). The overflow mark is cleared (D15). -/
def Seq.dropLoop (q : Seq) : Seq :=
  match q.loopStk with
  | [] => q
  | e :: t => { q with loopStk := t, loopOv := false, lcntrs := e.start :: q.lcntrs }

/-- The PC stack without its top entry; an overflowed stack becomes a full one (R65, R66). -/
def Seq.dropPc (q : Seq) : Seq := if q.pcOv then { q with pcOv := false } else { q with pcStk := q.pcStk.tail }

/-- The sequencer after the end-of-loop update of a counter loop (R590). -/
def Seq.endCounter (q : Seq) : Seq :=
  match q.loopStk with
  | [] => q
  | e :: t =>
    if e.count = 1#32 then q.dropLoop.dropPc
    else { q with loopStk := { e with count := e.count - 1#32 } :: t }

/-- The mark of a PC-stack entry that DO UNTIL pushed: one of the undescribed bits 31:26 (R63, R590; the bit is a DESIGN
CHOICE, log 21). -/
def loopMark (w : Word) : Bool := w.getLsbD 26

/-- The top-of-loop address of the innermost loop: the newest PC-stack entry that DO UNTIL pushed; the newest of all if
none is marked so, as in a restored entry that a program made (R590, R666). -/
def Seq.loopTop (q : Seq) : Option IAddr :=
  match q.pcStk.find? loopMark, q.pcStk with
  | some w, _ => some (w.truncate 24)
  | none, w :: _ => some (w.truncate 24)
  | none, [] => none

/-- The executing instruction is one of the last eleven of the body of an F1-active counter loop (R591). A loop keeps the
mode it started with, or the one in a restored loop address word: that MODE2.SLOWLOOP set later does not change it is a
DESIGN CHOICE (R194, log 54). -/
def Seq.inF1Window (q : Seq) : Bool :=
  match q.loopStk with
  | [] => false
  | e :: _ =>
    let last := (e.laddr.truncate 24 : IAddr).toNat
    loopF1 e.laddr && loopTerm e.laddr = 0b01111#5 && decide (q.pc.toNat ≤ last ∧ last ≤ q.pc.toNat + 10 * fullLen q.pc) &&
      match q.loopTop with
      | none => true
      | some top => decide (top.toNat ≤ q.pc.toNat)

/-- The sequencer as reads of CURLCNTR, LADDR, PCSTK, PCSTKP and the condition NOT LCE see it: in the last eleven
instructions of an F1-active loop either of two views (R591, U16). -/
def State.seqView (s : State) : Seq :=
  if s.seq.inF1Window && Config.freeBit (s.slot 7) then s.seq.endCounter else s.seq

/-- CURLCNTR (R69). -/
def Seq.curlcntr (q : Seq) : Word :=
  match q.loopStk with
  | [] => 0xFFFFFFFF#32
  | e :: _ => e.count

/-- LADDR (R68). -/
def Seq.laddr (q : Seq) : Word :=
  match q.loopStk with
  | [] => 0xFFFFFFFF#32
  | e :: _ => e.laddr

/-- PCSTKP (R65). -/
def Seq.pcstkp (q : Seq) : Nat := if q.pcOv then 31 else q.pcStk.length

/-- PCSTK (R64); the top of an overflowed stack is a free value (log 22). -/
def State.pcstk (s : State) (q : Seq) : Word :=
  if q.pcOv then s.freeWord 8
  else
    match q.pcStk with
    | [] => 0x7FFFFFFF#32
    | w :: _ => w

/-- LCNTR (R70): a free value while the loop counter stack is full. -/
def State.lcntr (s : State) : Word :=
  match s.seq.lcntrs with
  | [] => s.freeWord 16
  | w :: _ => w

/-- Write of LCNTR: discarded while the loop counter stack is full (R70). -/
def Seq.setLcntr (q : Seq) (v : Word) : Seq :=
  match q.lcntrs with
  | [] => q
  | _ :: t => { q with lcntrs := v :: t }

/-- MODE1STK (R73); a free value while the status stack is empty (D8). -/
def State.mode1stk (s : State) : Word :=
  match s.seq.stsStk with
  | [] => s.freeWord 9
  | e :: _ => e.mode1

/-- The six stack status bits of STKYX (R151 to R156). -/
def Seq.stackBits (q : Seq) : Word :=
  flagBit 26 q.loopStk.isEmpty ||| flagBit 25 q.loopOv ||| flagBit 24 q.stsStk.isEmpty ||| flagBit 23 q.stsOv
    ||| flagBit 22 (q.pcStk.isEmpty && !q.pcOv) ||| flagBit 21 (q.pcOv || decide (30 ≤ q.pcStk.length))

/-! ### Status registers -/

/-- SF, the image of the bit-FIFO pointer (R86, R134). -/
def Data.sf (d : Data) : Bool := decide (32 ≤ d.bffwrp.toNat)

/-- ASTATX with its image bit SF (R131, R134). -/
def State.astatx (s : State) : Word := putBit s.sys.astatx 14 s.data.sf

/-- STKYX with the stack status bits (R150). -/
def State.stkyx (s : State) : Word := (s.sys.stkyx &&& stkyxMask) ||| s.seq.stackBits

/-- The level of core flag `k`: the pin of an input, the register bit of an output (R83). -/
def Sys.flag (y : Sys) (k : Nat) : Bool := if y.flags.getLsbD (2 * k + 1) then y.flags.getLsbD (2 * k) else y.pins.getLsbD k

/-- FLAGS as read (R165). -/
def Sys.flagsRead (y : Sys) : Word :=
  (y.flags &&& 0xAA#32) ||| flagBit 0 (y.flag 0) ||| flagBit 2 (y.flag 1) ||| flagBit 4 (y.flag 2) ||| flagBit 6 (y.flag 3)

/-- What a write of `v` leaves of core flag `k` in FLAGS: the value bit of an input has no lasting effect, and one written
together with its direction is free (R165, R1225, U29). -/
def State.flagWrite (s : State) (v : Word) (k : Nat) : Word :=
  let out := v.getLsbD (2 * k + 1)
  let dirChanges := out != s.sys.flags.getLsbD (2 * k + 1)
  let valChanges := v.getLsbD (2 * k) != s.sys.flag k
  let bit := if dirChanges && valChanges then Config.freeBit (s.slot (10 + k)) else v.getLsbD (2 * k)
  flagBit (2 * k + 1) out ||| flagBit (2 * k) (out && bit)

/-- The value of a system register (R81). -/
def State.readSys (s : State) : SysReg → Word
  | .ustat1 => s.sys.ustat1
  | .ustat2 => s.sys.ustat2
  | .ustat3 => s.sys.ustat3
  | .ustat4 => s.sys.ustat4
  | .mode1 => s.sys.mode1
  | .mmask => s.sys.mmask
  | .mode2 => s.sys.mode2
  | .flags => s.sys.flagsRead
  | .astatx => s.astatx
  | .astaty => s.sys.astaty
  | .stkyx => s.stkyx
  | .stkyy => s.sys.stkyy
  | .irptl => s.sys.irptl
  | .imask => s.sys.imask
  | .imaskp => s.sys.imaskp
  | .mode1stk => s.mode1stk

/-- Replace MODE1 of the top status-stack entry; no effect while the stack is empty (R73, D8). -/
def Seq.setMode1stk (q : Seq) (v : Word) : Seq :=
  match q.stsStk with
  | [] => q
  | e :: t => { q with stsStk := { e with mode1 := v } :: t }

/-- Write of a system register under its write rules (R130, R150, R165, R210; log 9 for reserved bits). -/
def State.writeSys (s : State) (r : SysReg) (v : Word) : State :=
  match r with
  | .ustat1 => { s with sys := { s.sys with ustat1 := v } }
  | .ustat2 => { s with sys := { s.sys with ustat2 := v } }
  | .ustat3 => { s with sys := { s.sys with ustat3 := v } }
  | .ustat4 => { s with sys := { s.sys with ustat4 := v } }
  | .mode1 => { s with sys := { s.sys with mode1 := v &&& mode1Mask } }
  | .mmask => { s with sys := { s.sys with mmask := v &&& mode1Mask } }
  | .mode2 => { s with sys := { s.sys with mode2 := v &&& mode2Mask } }
  | .flags => { s with sys := { s.sys with
      flags := s.flagWrite v 0 ||| s.flagWrite v 1 ||| s.flagWrite v 2 ||| s.flagWrite v 3 } }
  | .astatx => { s with sys := { s.sys with astatx := v &&& astatMask }, bdry := { s.bdry with astatxWritten := true } }
  | .astaty => { s with sys := { s.sys with astaty := v &&& astatMask }, bdry := { s.bdry with astatyWritten := true } }
  | .stkyx => { s with sys := { s.sys with stkyx := v &&& stkyxMask } }
  | .stkyy => { s with sys := { s.sys with stkyy := v &&& stkyyMask } }
  | .irptl => { s with sys := { s.sys with irptl := v &&& irptMask } }
  | .imask => { s with sys := { s.sys with imask := v &&& irptMask } }
  | .imaskp => { s with sys := { s.sys with imaskp := v &&& irptMask } }
  | .mode1stk => { s with seq := s.seq.setMode1stk (v &&& mode1Mask) }

/-! ### Universal registers -/

/-- The complementary register, if there is one (R45, R291). -/
def compOf : UReg → Option UReg
  | .r n => some (.s n)
  | .s n => some (.r n)
  | .px1 => some .px2
  | .px2 => some .px1
  | .sys .ustat1 => some (.sys .ustat2)
  | .sys .ustat2 => some (.sys .ustat1)
  | .sys .ustat3 => some (.sys .ustat4)
  | .sys .ustat4 => some (.sys .ustat3)
  | .sys .astatx => some (.sys .astaty)
  | .sys .astaty => some (.sys .astatx)
  | .sys .stkyx => some (.sys .stkyy)
  | .sys .stkyy => some (.sys .stkyx)
  | _ => none

/-- A register of one of the two data register files: its element and number. -/
def dregOf : UReg → Option (Bool × RegNo)
  | .r n => some (false, n)
  | .s n => some (true, n)
  | _ => none

/-- The 32-bit value a universal register supplies (R49, R89); PX supplies PX1 (R59). -/
def State.readU (s : State) : UReg → Word
  | .r n => hi32 (s.dreg false n)
  | .s n => hi32 (s.dreg true n)
  | .i n => s.ireg n
  | .m n => s.mreg n
  | .l n => s.lreg n
  | .b n => s.breg n
  | .faddr => s.freeWord 14 &&& 0x00FFFFFF#32
  | .daddr => s.freeWord 15 &&& 0x00FFFFFF#32
  | .pc => s.seq.pc.setWidth 32
  | .pcstk => s.pcstk s.seqView
  | .pcstkp => BitVec.ofNat 32 s.seqView.pcstkp
  | .laddr => s.seqView.laddr
  | .curlcntr => s.seqView.curlcntr
  | .lcntr => s.lcntr
  | .emuclk => s.sys.emuclk
  | .emuclk2 => s.sys.emuclk2
  | .px => s.data.px.truncate 32
  | .px1 => s.data.px.truncate 32
  | .px2 => s.data.px.extractLsb' 32 32
  | .tperiod => s.sys.tperiod
  | .tcount => s.sys.tcount
  | .sys r => s.readSys r

/-- Replace the top of the PC stack; no effect while it is empty or overflowed (R64, log 22). -/
def Seq.setPcstk (q : Seq) (v : Word) : Seq :=
  if q.pcOv then q
  else
    match q.pcStk with
    | [] => q
    | _ :: t => { q with pcStk := v :: t }

/-- Replace the loop address of the top loop-stack entry (R68); an entry of PUSH LOOP is whole with it (R666). -/
def Seq.setLaddr (q : Seq) (v : Word) : Seq :=
  match q.loopStk with
  | [] => q
  | e :: t => { q with loopStk := { e with laddr := v, restored := .whole } :: t }

/-- Replace the loop counter of the top loop-stack entry: of a counter loop, or of an entry that PUSH LOOP made; no effect
while another kind of loop executes (R69, R666). -/
def Seq.setCurlcntr (q : Seq) (v : Word) : Seq :=
  match q.loopStk with
  | [] => q
  | e :: t =>
    if e.restored ≠ .whole then { q with loopStk := { e with count := v, restored := .counted } :: t }
    else if loopTerm e.laddr = 0b01111#5 then { q with loopStk := { e with count := v } :: t }
    else q

/-- A write of PCSTK that the spec gives no outcome: in the delay slots of a branch that is no CALL (R568, R1221, U11), or
before the LADDR of the loop that PUSH LOOP made (R666, R1230, U18). -/
def Seq.pcstkRefusal (q : Seq) : Option Refusal :=
  if q.branches.any fun b => b.sort != .call then some .delaySlot
  else
    match q.loopStk with
    | [] => none
    | e :: _ => if e.restored ≠ .whole then some .restoreOrder else none

/-- A write of PCSTKP in a delay slot (R1221, U11). -/
def Seq.slotRefusal (q : Seq) : Option Refusal := if q.branches.isEmpty then none else some .delaySlot

/-- A write of CURLCNTR in a delay slot, or after the PC stack was pushed for the loop that PUSH LOOP made (R1221, R1230,
U11, U18). -/
def Seq.curlcntrRefusal (q : Seq) : Option Refusal :=
  if !q.branches.isEmpty then some .delaySlot
  else
    match q.loopStk with
    | [] => none
    | e :: _ => if e.restored = .tied then some .restoreOrder else none

/-- A write of LADDR in a delay slot, or before the CURLCNTR of the loop that PUSH LOOP made (R1221, R1230, U11, U18). -/
def Seq.laddrRefusal (q : Seq) : Option Refusal :=
  if !q.branches.isEmpty then some .delaySlot
  else
    match q.loopStk with
    | [] => none
    | e :: _ => if e.restored = .pushed ∨ e.restored = .tied then some .restoreOrder else none

/-- A write under its refusal, which `finish` makes of the step. -/
def State.guarded (s : State) (q : Seq) (r : Option Refusal) : State :=
  match r with
  | none => { s with seq := q }
  | some x => { s with seq := q, bdry := { s.bdry with refused := some x } }

/-- Write of a 32-bit value to a universal register, with the register's own write effects (R49, R59, R64 to R70, R84,
R89, R275; a read-only register ignores it, D10). A 32-bit value for the combined PX goes into both halves: R59 says it of a source
register, and that a constant does the same is a DESIGN CHOICE (R628; log 36). -/
def State.writeU (s : State) (u : UReg) (v : Word) : State :=
  match u with
  | .r n => s.setDreg false n (reg40 v)
  | .s n => s.setDreg true n (reg40 v)
  | .i n => s.setI n v
  | .m n => s.setM n v
  | .l n => s.setL n v
  | .b n => s.setB n v
  | .faddr => s
  | .daddr => s
  | .pc => s
  | .pcstk => s.guarded (s.seq.setPcstk v) s.seq.pcstkRefusal
  | .pcstkp => s.guarded { s.seq with pcStkpNew := some (v.truncate 5) } s.seq.slotRefusal
  | .laddr => s.guarded (s.seq.setLaddr v) s.seq.laddrRefusal
  | .curlcntr => s.guarded (s.seq.setCurlcntr v) s.seq.curlcntrRefusal
  | .lcntr => { s with seq := s.seq.setLcntr v }
  | .emuclk => s
  | .emuclk2 => s
  | .px => { s with data := { s.data with px := v ++ v } }
  | .px1 => { s with data := { s.data with px := s.data.px.extractLsb' 32 32 ++ v } }
  | .px2 => { s with data := { s.data with px := v ++ s.data.px.truncate 32 } }
  | .tperiod => { s with sys := { s.sys with tperiod := v } }
  | .tcount => { s with sys := { s.sys with tcount := v }, bdry := { s.bdry with tcountWritten := true } }
  | .sys r => s.writeSys r v

/-- What a transfer carries: 32 bits, the 40 bits of a data register, or the 64 bits of PX (R49, R56 to R58). -/
inductive RegVal
  | w32 (v : Word)
  | w40 (v : Reg40)
  | w64 (v : Long)
  deriving DecidableEq, Repr

/-- Write of a transferred value (R49, R57, R58). -/
def State.writeVal (s : State) (u : UReg) (x : RegVal) : State :=
  match u, x with
  | .r n, .w40 v => s.setDreg false n v
  | .s n, .w40 v => s.setDreg true n v
  | .px, .w64 v => { s with data := { s.data with px := v } }
  | .px, .w40 v => { s with data := { s.data with px := v ++ 0#24 } }
  | u, .w32 v => s.writeU u v
  | u, .w40 v => s.writeU u (hi32 v)
  | u, .w64 v => s.writeU u (v.truncate 32)

/-- What a register-to-register transfer carries from `src` to `dst` (R49, R56 to R59). -/
def State.moveVal (s : State) (dst src : UReg) : RegVal :=
  match dregOf dst, dst, dregOf src, src with
  | some _, _, some (y, n), _ => .w40 (s.dreg y n)
  | some _, _, none, .px => .w40 (s.data.px.extractLsb' 24 40)
  | none, .px, some (y, n), _ => .w64 (s.dreg y n ++ 0#24)
  | none, .px, none, .px => .w64 s.data.px
  | none, .px, none, _ =>
    match compOf src with
    | some c => .w64 (s.readU c ++ s.readU src)
    | none => .w64 (s.readU src ++ s.readU src)
  | _, _, _, _ => .w32 (s.readU src)

/-! ### Conditions (R75 to R78) -/

/-- ASTAT of an element as a condition sees it (R131). -/
def State.condAstat (s : State) (y : Bool) : Word :=
  if y then s.sys.condy.getD s.sys.astaty else putBit (s.sys.condx.getD s.sys.astatx) 14 s.data.sf

/-- The truth of a condition code on one element, by the flags alone (R75). -/
def State.cond (s : State) (y : Bool) (c : Cond) : Bool :=
  let a := s.condAstat y
  let sat := s.mode .alusat
  match c with
  | .eq => a.getLsbD 0
  | .lt => ltVal a sat
  | .le => leVal a sat
  | .ac => a.getLsbD 3
  | .av => a.getLsbD 1
  | .mv => a.getLsbD 7
  | .ms => a.getLsbD 6
  | .sv => a.getLsbD 11
  | .sz => a.getLsbD 12
  | .flag0 => s.sys.flag 0
  | .flag1 => s.sys.flag 1
  | .flag2 => s.sys.flag 2
  | .flag3 => s.sys.flag 3
  | .tf => a.getLsbD 18
  | .sf => a.getLsbD 14
  | .notLce => s.seqView.curlcntr != 1#32
  | .ne => !a.getLsbD 0
  | .ge => !ltVal a sat
  | .gt => !leVal a sat
  | .notAc => !a.getLsbD 3
  | .notAv => !a.getLsbD 1
  | .notMv => !a.getLsbD 7
  | .notMs => !a.getLsbD 6
  | .notSv => !a.getLsbD 11
  | .notSz => !a.getLsbD 12
  | .notFlag0 => !s.sys.flag 0
  | .notFlag1 => !s.sys.flag 1
  | .notFlag2 => !s.sys.flag 2
  | .notFlag3 => !s.sys.flag 3
  | .notTf => !a.getLsbD 18
  | .notSf => !a.getLsbD 14
  | .true_ => true

/-- The condition of a compute or data move on one element, with selective execution (R78, R502). -/
def State.condOp (s : State) (y : Bool) (c : Cond) : Bool :=
  match c, s.mode .selpe with
  | .flag2, true => !y
  | .notFlag2, true => y
  | c, _ => s.cond y c

/-- `cx` of R502. -/
def State.cx (s : State) (c : Cond) : Bool := s.condOp false c

/-- `cy` of R502; in SISD mode it is `cx` (R505). -/
def State.cy (s : State) (c : Cond) : Bool := if s.simd then s.condOp true c else s.condOp false c

/-- The condition of a branch (R562, R78). -/
def State.taken (s : State) (c : Cond) : Bool :=
  match c, s.mode .selpe with
  | .flag2, true => true
  | .notFlag2, true => true
  | c, _ => s.cond false c && (!s.simd || s.cond true c)

/-! ### Latches -/

/-- `raise k` (R1035). -/
def State.raise (s : State) (k : Irq) : State := { s with sys := { s.sys with irptl := s.sys.irptl ||| (1#32 <<< k.num) } }

/-- `raise k` if `b`. -/
def State.raiseIf (s : State) (b : Bool) (k : Irq) : State := if b then s.raise k else s

/-- Set a sticky bit of STKYX. -/
def State.stick (s : State) (i : Nat) : State := { s with sys := { s.sys with stkyx := s.sys.stkyx ||| (1#32 <<< i) } }

end Sys2Proof.Machine
end

