-- ==== Sys2Proof/Machine/Mmr.lean ====
section
/-! DEFINITION. The core memory-mapped registers: addresses, reads and writes (spec/20_memory.md R318 to R324,
spec/21_cache.md R373 to R376, spec/61_debug_platform.md R1140 to R1185). -/

namespace Sys2Proof.Machine

open Sys2Proof

/-- The registers of CMMR_RANGE. -/
inductive CoreMmr
  | sysctl | gperrStat | pfbStart | pfbEnd | pfbRange | pwrL1Sd | pwrGlb | pwrL1Ls
  | btbCfg | btbLockStart | btbLockEnd
  | l1cCfg | l1cCfg2 | l1cStart (k : Fin 8) | l1cEnd (k : Fin 8) | invIxstart | invCnt
  | brkstat | ospid | brkctl | revid | iaStart (k : Fin 4) | iaEnd (k : Fin 4) | daStart (k : Fin 2) | daEnd (k : Fin 2)
  | paStart | paEnd | emun | stage (k : Fin 11) | seciId | illop | coreId
  | pfm (k : Fin 17)
  deriving DecidableEq, Repr

/-- Entry `k` of a run of registers that starts at `base` and advances by `stride`. -/
def runIndex (base stride n a : Nat) : Option (Fin n) :=
  if h : base ≤ a ∧ (a - base) % stride = 0 ∧ (a - base) / stride < n then some ⟨(a - base) / stride, h.2.2⟩ else none

/-- The PFM register at an address (R1185). -/
def pfmIndex (a : Nat) : Option (Fin 17) :=
  if a = 0x30200 then some 0
  else
    match runIndex 0x30203 1 4 a, runIndex 0x3020D 1 12 a with
    | some k, _ => some ⟨k + 1, by omega⟩
    | none, some k => some ⟨k + 5, by omega⟩
    | none, none => none

/-- The registers that stand alone, by address (R319, R373, R380, R1140 to R1179). -/
def singleMmr : List (Nat × CoreMmr) :=
  [ (0x30021, .brkstat), (0x30023, .ospid), (0x30024, .sysctl), (0x30025, .brkctl), (0x30026, .revid), (0x300AE, .emun),
    (0x300B8, .paStart), (0x300B9, .paEnd), (0x300EB, .seciId), (0x300EC, .illop), (0x300ED, .coreId),
    (0x31400, .btbCfg), (0x31401, .btbLockStart), (0x31402, .btbLockEnd), (0x3B000, .gperrStat), (0x3B100, .pfbStart),
    (0x3B101, .pfbEnd), (Config.pfbRangeAddr, .pfbRange), (0x3E000, .l1cCfg), (0x3E002, .l1cCfg2), (0x3E020, .invIxstart), (0x3E021, .invCnt),
    (0x3E030, .pwrL1Sd), (0x3E031, .pwrGlb), (0x3E032, .pwrL1Ls) ]

/-- The registers that come in runs, by address. -/
def runMmr (a : Nat) : Option CoreMmr :=
  (runIndex 0x300A0 2 4 a).map .iaStart <|> (runIndex 0x300A1 2 4 a).map .iaEnd
    <|> (runIndex 0x300B2 2 2 a).map .daStart <|> (runIndex 0x300B3 2 2 a).map .daEnd
    <|> (runIndex 0x300E0 1 11 a).map .stage
    <|> (runIndex 0x3E010 2 8 a).map .l1cStart <|> (runIndex 0x3E011 2 8 a).map .l1cEnd
    <|> (pfmIndex a).map .pfm

/-- The register at a CMMR address. -/
def mmrAt (a : Nat) : Option CoreMmr :=
  match singleMmr.find? fun e => decide (e.1 = a) with
  | some e => some e.2
  | none => runMmr a

/-- SHDBG_BRKCTL.UMODE: user space owns the breakpoint unit (R1153). -/
def Mmr.umode (m : Mmr) : Bool := m.brkctl.getLsbD 25

/-- Reading a core memory-mapped register: reserved bits read 0, BRKSTAT reads 0 while UMODE = 0 (R1153), the stage
addresses are free values (R1175, U20). -/
def State.readMmr (s : State) : CoreMmr → Word
  | .sysctl => s.mmr.sysctl
  | .gperrStat => s.mmr.gperrStat
  | .pfbStart => s.mmr.pfbStart
  | .pfbEnd => s.mmr.pfbEnd
  | .pfbRange => s.mmr.pfbRange
  | .pwrL1Sd => s.mmr.pwrL1Sd
  | .pwrGlb => s.mmr.pwrGlb
  | .pwrL1Ls => s.mmr.pwrL1Ls
  | .btbCfg => s.mmr.btbCfg
  | .btbLockStart => s.mmr.btbLockStart
  | .btbLockEnd => s.mmr.btbLockEnd
  | .l1cCfg => s.mmr.l1cCfg
  | .l1cCfg2 => s.mmr.l1cCfg2
  | .l1cStart k => s.mmr.l1cStart[k]
  | .l1cEnd k => s.mmr.l1cEnd[k]
  | .invIxstart => s.mmr.invIxstart
  | .invCnt => s.mmr.invCnt
  | .brkstat => if s.gov.umode then s.mmr.brkstat else 0#32
  | .ospid => s.mmr.ospid
  | .brkctl => s.mmr.brkctl
  | .revid => Config.coreRevid &&& 0xF#32
  | .iaStart k => s.mmr.iaStart[k]
  | .iaEnd k => s.mmr.iaEnd[k]
  | .daStart k => s.mmr.daStart[k]
  | .daEnd k => s.mmr.daEnd[k]
  | .paStart => s.mmr.paStart
  | .paEnd => s.mmr.paEnd
  | .emun => s.mmr.emun
  | .stage k => s.freeWord (32 + k) &&& 0x00FFFFFF#32
  | .seciId => s.mmr.seciId
  | .illop => s.mmr.illop
  | .coreId => Config.coreId
  | .pfm k => s.mmr.pfm[k]

/-- Write of CMMR_GPERR_STAT: 0 clears and unlocks it; any other value is an artificial error, which raises PARI and, if
the register is not locked, leaves the error bits it has (R323, R1081). -/
def State.writeGperr (s : State) (v : Word) : State :=
  if v = 0#32 then { s with mmr := { s.mmr with gperrStat := 0#32 } }
  else
    let s' := if s.mmr.gperrStat = 0#32 then { s with mmr := { s.mmr with gperrStat := v &&& 0xFC0000FF#32 } } else s
    s'.raise .pari

/-- New shutdown controls: a block that they newly shut down loses its contents (R324, R325, U52). -/
def State.setShutdown (s : State) (sysctl pwrSd : Word) : State :=
  let lose (m : Memory) (b : Fin 4) : Memory :=
    if shutBlocks sysctl pwrSd b && !shutBlocks s.mmr.sysctl s.mmr.pwrL1Sd b then m.lose b (s.slot 24) else m
  { s with mmr := { s.mmr with sysctl := sysctl, pwrL1Sd := pwrSd }
           mem := [(0 : Fin 4), 1, 2, 3].foldl lose s.mem }

/-- Write of CMMR_SYSCTL (R322): SRST asks for a reset after the next instruction (R1204). -/
def State.writeSysctl (s : State) (v : Word) : State :=
  let s' := s.setShutdown (v &&& 0x4603FE0D#32) s.mmr.pwrL1Sd
  if v.getLsbD 0 then { s' with seq := { s'.seq with srst := 2 } } else s'

/-- Write of CMMR_PWR_L1_LS_CTL: a block put to light sleep sleeps, a block released from it is awake (R324).
Writing 1 again leaves a block that an access has woken awake, and block 0 sleeps like the others: "always on" is read of
shutdown alone (DESIGN CHOICE, log 37). -/
def State.writeLightSleep (s : State) (v : Word) : State :=
  let x := v &&& 0xF#32
  let power (b : Fin 4) : BlockPower :=
    if x.getLsbD b then (if s.mmr.pwrL1Ls.getLsbD b then s.mem.power[b] else .asleep) else .awake
  { s with mmr := { s.mmr with pwrL1Ls := x }, mem := { s.mem with power := #v[power 0, power 1, power 2, power 3] } }

/-! ### Cache registers (R358, R369 to R376) -/

/-- A register of the cache controller. -/
def CoreMmr.isCache : CoreMmr → Bool
  | .l1cCfg | .l1cCfg2 | .l1cStart _ | .l1cEnd _ | .invIxstart | .invCnt => true
  | _ => false

/-- A register of the branch target buffer. -/
def CoreMmr.isBtb : CoreMmr → Bool
  | .btbCfg | .btbLockStart | .btbLockEnd => true
  | _ => false

/-- Bytes of the upper part of an L1 block that an enabled cache uses (R356, R374). The combinations of enables that R357
does not allow have no behaviour in the spec: that each enable alone reserves its block is a DESIGN CHOICE (log 58). -/
def State.cacheBytes (s : State) (b : Fin 4) : Nat :=
  let c := s.gov.l1cCfg
  match b with
  | 0 => 0
  | 1 => if c.getLsbD 8 then 0x4000 * 2 ^ (c.extractLsb' 9 2).toNat else 0
  | 2 => if c.getLsbD 16 then 0x4000 * 2 ^ (c.extractLsb' 17 2).toNat else 0
  | 3 => if c.getLsbD 0 then 0x4000 * 2 ^ (c.extractLsb' 1 2).toNat else 0

/-- The physical byte lies in the storage of a cache (R382). -/
def State.inCache (s : State) (p : Nat) : Bool :=
  match blockOf p with
  | none => false
  | some b => decide (Config.blockBase b + Config.blockSize b ≤ p + s.cacheBytes b)

/-- The sets of the largest cache that is enabled (R358, R374); which of several caches a range operation counts by is a
DESIGN CHOICE (log 57). -/
def cacheSets (cfg : Word) : Nat :=
  let sets (u : CacheUnit) : Nat := if u.on cfg then u.sets cfg else 0
  max (sets .i) (max (sets .dm) (sets .pm))

/-- Range pair `k` has the function Write-Back Invalidate and is enabled (R375). -/
def wbiRange (cfg2 : Word) (k : Fin 8) : Bool :=
  decide (k.val < 2) && cfg2.getLsbD (2 * k) && cfg2.getLsbD (2 * k + 1)

/-- What the controller computes from a write-back-invalidate range: its first index and its number of indexes (R370,
R376). -/
def Mmr.compute (m : Mmr) (k : Fin 8) : Mmr :=
  if wbiRange m.l1cCfg2 k then
    let sets := cacheSets m.l1cCfg
    let a := normalAddr m.l1cStart[k]
    let b := normalAddr m.l1cEnd[k]
    { m with invIxstart := BitVec.ofNat 32 (a / 64 % sets), invCnt := BitVec.ofNat 32 (min ((b - a + 63) / 64) sets) }
  else m

/-- A store of `v` to SHL1C_CFG changes a property of a cache that is enabled: its enable, its size, its way locks (R374). -/
def CacheUnit.reconfigured (u : CacheUnit) (cfg v : Word) : Bool :=
  u.on cfg && (!u.on v || cfg.extractLsb' (u.base + 1) 2 != v.extractLsb' (u.base + 1) 2 ||
    cfg.extractLsb' (u.base + 4) 2 != v.extractLsb' (u.base + 4) 2)

/-- A store of `v` to SHL1C_CFG2 changes a property of the caches: a lock, write-through or non-cacheable range. The
write-back-invalidate function of pairs 0 and 1 is no property but an operation (R370, R375). -/
def changesRange (cfg2 v : Word) : Bool :=
  let property (k : Fin 8) (x : Word) : BitVec 2 :=
    if wbiRange x k || !x.getLsbD (2 * k + 1) then 0#2 else x.extractLsb' (2 * k) 2
  [(0 : Fin 8), 1, 2, 3, 4, 5, 6, 7].any fun k => property k cfg2 != property k v

/-- A store of `v` to the register changes a property of a cache that still holds lines: it was not written back and invalidated
before (R372). A range is a property of all of them. -/
def State.unflushed (s : State) (r : CoreMmr) (v : Word) : Bool :=
  match r with
  | .l1cCfg => s.cache.lines.any fun x => x.unit.reconfigured s.mmr.l1cCfg v
  | .l1cCfg2 => changesRange s.mmr.l1cCfg2 v && !s.cache.lines.isEmpty
  | _ => false

/-- A register that holds one end of a range (R376). -/
def CoreMmr.isRange : CoreMmr → Bool
  | .l1cStart _ | .l1cEnd _ => true
  | _ => false

/-- A range address has low bits that must be 0: six of a byte address, five of a native one (R372). -/
def lowBits (a : Word) : Bool :=
  match spaceOf a with
  | none | some .bw => a &&& 0x3F#32 != 0#32
  | some _ => a &&& 0x1F#32 != 0#32

/-- The executing instruction stands outside L1 (R372). -/
def State.external (s : State) : Bool :=
  match locate s.seq.pc.toNat with
  | none => false
  | some l =>
    match l.region.target with
    | .l1 _ => false
    | .l2 | .l3 | .smmr | .device => true

/-- In the window after a store to SHL1C_CFG or SHL1C_CFG2 a cache register may not be accessed; one instruction is enough
before a store to a range register (R372). -/
def State.inCacheWindow (s : State) (store : Bool) (r : CoreMmr) : Bool :=
  decide (s.seq.cacheHold ≠ 0) && !(store && r.isRange && decide (s.seq.cacheHold ≤ 11))

/-- An access to a core memory-mapped register that the spec gives no meaning: to a cache register while a range operation
runs, but for a store to INV_IXSTART0, which resumes one; against the restrictions on cache registers; a new property of a
cache before it was written back and invalidated (R370, R372, U51). `cond`: the instruction is a conditional one. -/
def State.mmrRefusal (s : State) (pm cond store : Bool) (r : CoreMmr) (addr : Nat) (v : Word) : Option Refusal :=
  if !r.isCache then none
  else if s.mmr.invRuns && !(store && r == .invIxstart) then some .cacheBusy
  else if pm || cond || s.external || s.inCacheWindow store r || (store && r.isRange && lowBits v) then
    some (.cacheRestriction addr)
  else if store && s.unflushed r v then some .cacheReconfig
  else none

/-- The range registers that hold an address when the function of their pair changes from `cfg2` to `v`: they were written before
it was selected (R372). -/
def Mmr.earlyRanges (m : Mmr) (cfg2 v : Word) : BitVec 16 :=
  [(0 : Fin 8), 1, 2, 3, 4, 5, 6, 7].foldl (fun b (k : Fin 8) =>
    if cfg2.getLsbD (2 * k) == v.getLsbD (2 * k) then b
    else b ||| (BitVec.ofBool (m.l1cStart[k] != 0#32)).setWidth 16 <<< (2 * k.val)
      ||| (BitVec.ofBool (m.l1cEnd[k] != 0#32)).setWidth 16 <<< (2 * k.val + 1)) 0#16

/-- A range register is written after the function of its pair was selected. -/
def CacheNotes.wrote (c : CacheNotes) (n : Nat) : CacheNotes := { c with early := c.early &&& ~~~(1#16 <<< n) }

/-- The register after a store to it: reserved bits ignore writes (R320, D13), the read-only registers ignore all of
them, the breakpoint registers belong to the core only while UMODE = 1 (R1153), a store to SECI_ID acknowledges the event
(R1176), one to a branch target buffer register or to SHL1C_CFG and SHL1C_CFG2 opens the twelve instructions of R1138 and of
R372. -/
def State.storeMmr (s : State) (r : CoreMmr) (v : Word) : State :=
  let own (m : Mmr) : State := if s.gov.umode then { s with mmr := m } else s
  match r with
  | .sysctl => s.writeSysctl v
  | .gperrStat => s.writeGperr v
  | .pfbStart => { s with mmr := { s.mmr with pfbStart := v } }
  | .pfbEnd => { s with mmr := { s.mmr with pfbEnd := v } }
  | .pfbRange => { s with mmr := { s.mmr with pfbRange := v } }
  | .pwrL1Sd => s.setShutdown s.mmr.sysctl (v &&& 0xF#32)
  | .pwrGlb => { s with mmr := { s.mmr with pwrGlb := v &&& 0x3#32 } }
  | .pwrL1Ls => s.writeLightSleep v
  | .btbCfg => { s with mmr := { s.mmr with btbCfg := v &&& 0x19F#32 }, seq := { s.seq with btbHold := 13 } }
  | .btbLockStart => { s with mmr := { s.mmr with btbLockStart := v }, seq := { s.seq with btbHold := 13 } }
  | .btbLockEnd => { s with mmr := { s.mmr with btbLockEnd := v }, seq := { s.seq with btbHold := 13 } }
  | .l1cCfg =>
    { s with mmr := { s.mmr with l1cCfg := v &&& 0x01F7F777#32 }, seq := { s.seq with cacheHold := 13 }
             cache := s.cache.invalidate v }
  | .l1cCfg2 =>
    { s with mmr := { s.mmr with l1cCfg2 := v &&& 0xFFFF#32 }, seq := { s.seq with cacheHold := 13 }
             cache := { s.cache with early := s.cache.early ||| s.mmr.earlyRanges s.mmr.l1cCfg2 v } }
  | .l1cStart k =>
    { s with mmr := { s.mmr with l1cStart := s.mmr.l1cStart.set k v }.compute k, cache := s.cache.wrote (2 * k) }
  | .l1cEnd k =>
    { s with mmr := { s.mmr with l1cEnd := s.mmr.l1cEnd.set k v }.compute k, cache := s.cache.wrote (2 * k + 1) }
  | .invIxstart => { s with mmr := { s.mmr with invIxstart := v } }
  | .invCnt => { s with mmr := { s.mmr with invCnt := v } }
  | .brkstat => s
  | .ospid => { s with mmr := { s.mmr with ospid := v } }
  | .brkctl => { s with mmr := { s.mmr with brkctl := v &&& 0x0F3BFCFF#32 } }
  | .revid => s
  | .iaStart k => own { s.mmr with iaStart := s.mmr.iaStart.set k (v &&& 0x00FFFFFF#32) }
  | .iaEnd k => own { s.mmr with iaEnd := s.mmr.iaEnd.set k (v &&& 0x00FFFFFF#32) }
  | .daStart k => own { s.mmr with daStart := s.mmr.daStart.set k v }
  | .daEnd k => own { s.mmr with daEnd := s.mmr.daEnd.set k v }
  | .paStart => own { s.mmr with paStart := v }
  | .paEnd => own { s.mmr with paEnd := v }
  | .emun => own { s.mmr with emun := v }
  | .stage _ => s
  | .seciId => { s with bus := .secAck :: s.bus }
  | .illop => { s with mmr := { s.mmr with illop := 0#32, illopLocked := false } }
  | .coreId => s
  | .pfm k => { s with mmr := { s.mmr with pfm := s.mmr.pfm.set k v } }

/-- A change that the core itself makes to its memory-mapped registers: the registers before a store that may not have
arrived change with them (R1226). -/
def State.setMmrs (s : State) (f : Mmr → Mmr) : State :=
  { s with mmr := f s.mmr, posted := s.posted.map fun p => { p with was := f p.was } }

/-- Writing a core memory-mapped register: until a SYNC, or for the next four instructions, either the old or the new
registers govern (R320, R1226, U38). -/
def State.writeMmr (s : State) (r : CoreMmr) (v : Word) : State :=
  let t := s.storeMmr r v
  { t with posted := { was := s.mmr, left := 5 } :: s.posted }

end Sys2Proof.Machine
end

