-- ==== Sys2Proof/WellFormed.lean ====
section
/-! DEFINITION. Which instructions of the syntax an encoding exists for: the register classes, size tables and modifier
tables of spec/30_encoding.md and files 40 to 43. What `Instr.wellFormed` refuses is an undefined encoding, another
constructor's word, or a form whose fields have no place in the word (log 8). -/

namespace Sys2Proof

/-- The register belongs to DAG1: I, M, L or B 0..7 (R434). -/
def UReg.isDag1 : UReg → Bool
  | .i n | .m n | .l n | .b n => !n.getLsbD 3
  | _ => false

/-- The register belongs to DAG2: I, M, L or B 8..15 (R434). -/
def UReg.isDag2 : UReg → Bool
  | .i n | .m n | .l n | .b n => n.getLsbD 3
  | _ => false

/-- The register belongs to the DAG that addresses the access (`pm` picks DAG2), so the class UREGXDAG1 or UREGXDAG2
excludes it (R434, R515). -/
def UReg.sameDag (pm : Bool) (u : UReg) : Bool :=
  if pm then u.isDag2 else u.isDag1

/-- A multiply modifier the tables list: rounding exists for fractions only (R445). -/
def MulMod.wellFormed (m : MulMod) : Bool :=
  !m.round || m.frac

/-- The compute fields that the tables list (R440, R445). -/
def Compute.wellFormed : Compute → Bool
  | .mulRn _ m _ _ _ => m.wellFormed
  | .mulMr _ _ m _ _ => m.wellFormed
  | _ => true

/-- The computations whose field has bit 22 set: MR transfers and multifunction computations (R444, R446). -/
def Compute.isMulti : Compute → Bool
  | .readMr .. | .writeMr .. | .mfFix .. | .mfMac .. | .mfFlt .. | .mfFixAddSub .. | .mfFltAddSub .. | .mfDbl .. => true
  | _ => false

/-- The sizes a store may carry: no sign-extending form (R516, R518). -/
def Size.storable : Size → Bool
  | .bwse | .swse => false
  | _ => true

/-- The size is one of the byte and short-word forms (R522). -/
def Size.subWord : Size → Bool
  | .bw | .bwse | .sw | .swse => true
  | _ => false

/-- The instruction has an encoding that decodes back to it. -/
def Instr.wellFormed : Instr → Bool
  | .computeDualMove c _ _ _ _ _ _ _ _ => c.wellFormed
  | .ifCompute cond c => c.wellFormed && (cond != .true_ || c == .none)
  | .loadUreg _ c post pm _ _ _ reg => c.wellFormed && !(post && reg.sameDag pm)
  | .storeUreg _ c _ pm _ _ _ reg => c.wellFormed && !reg.sameDag pm
  | .loadUregSized _ post pm _ _ reg _ _ => !(post && reg.sameDag pm)
  | .storeUregSized _ _ pm _ _ reg size _ => !reg.sameDag pm && size.storable
  | .loadDregImm _ c _ _ _ _ _ => c.wellFormed
  | .storeDregImm _ c _ _ _ _ _ => c.wellFormed
  | .loadDregImmSized _ _ _ _ _ _ size => size.subWord
  | .storeDregImmSized _ _ _ _ _ _ size => size.subWord && size.storable
  | .moveUreg _ c _ _ => c.wellFormed
  | .swapDreg _ c _ _ => c.wellFormed
  | .ifShiftImm cond _ => cond != .true_
  | .modify _ c _ _ _ _ scale => c.wellFormed && (scale == .none || !c.isMulti)
  | .modifyImm _ _ _ _ scale => scale == .none
  | .convertAddr _ c _ _ _ _ _ => c.wellFormed
  | .jumpIndirect _ _ _ _ _ c => c.wellFormed
  | .jumpPcRel6 _ _ _ _ c => c.wellFormed
  | .callIndirect _ _ _ _ _ c => c.wellFormed
  | .callPcRel6 _ _ _ _ c => c.wellFormed
  | .jumpIndirectElseLoad _ _ _ c _ _ _ => c.wellFormed
  | .jumpIndirectElseStore _ _ _ c _ _ _ => c.wellFormed
  | .jumpPcRelElseLoad _ _ c _ _ _ => c.wellFormed
  | .jumpPcRelElseStore _ _ c _ _ _ => c.wellFormed
  | .rts _ _ _ _ c => c.wellFormed
  | .rti _ _ _ c => c.wellFormed
  | .moveDregDirect store _ _ size ex =>
      (size.subWord || ex) && (!store || size.storable)
  | .storeUregOffset pm _ _ reg _ => !reg.sameDag pm
  | .compute c => c.wellFormed
  | .shortCompute _ _ _ => false
  | .moveUregSized _ post pm store _ _ reg size =>
      !((post || store) && reg.sameDag pm) && (!store || size.storable)
  | .moveDregImmSized _ _ store _ _ _ _ size => size != .lw && (!store || size.storable)
  | .moveUregOffset7 pm store _ _ reg _ => !(store && reg.sameDag pm)
  | .mulRn m _ _ _ | .mulMrf m _ _ | .mulMrb m _ _
  | .macAddRnMrf m _ _ _ | .macAddRnMrb m _ _ _ | .macAddMrf m _ _ | .macAddMrb m _ _
  | .macSubRnMrf m _ _ _ | .macSubRnMrb m _ _ _ | .macSubMrf m _ _ | .macSubMrb m _ _ => m.wellFormed
  | _ => true

end Sys2Proof
end

