-- ==== Sys2Proof/Decode.lean ====
section
/-! DEFINITION. The decoder (total on any bits, rejecting by name) and the encoder, both from the encoding rules
of spec/30_encoding.md and the type rules of files 40 to 43. Positions that the spec leaves to parameters are the
model's: log 7 (VISA forms) and log 8 (d types, swap, cache bits). -/

namespace Sys2Proof

/-- Why a word is no instruction of the model. `oddPair` and `stackMix` are the two cases the spec does not call
undefined opcodes (R442, R664); every other one is an undefined opcode, R406. -/
inductive Reject
  /-- No row of the master table has this prefix (R490). -/
  | noType
  /-- Bits that belong to no field are not zero (R490, the checked reading of U2). -/
  | spareBits
  /-- A register code with no register, or outside the class the type allows (R430, R515). -/
  | badUreg
  /-- A size code that the type's table does not list (R516, R518, R521, R522, R623). -/
  | badSize
  /-- A compute field that no table lists (R440, R444, R445, R446). -/
  | badCompute
  /-- A shift-immediate code that no table lists (R448). -/
  | badShiftImm
  /-- A modifier combination that the JUMP or RETURN table does not list (R577, R581). -/
  | badModifier
  /-- A BOP code that the table does not list (R661). -/
  | badBop
  /-- An odd register code where a 64-bit operation needs a pair (R442): outside the model, not an illegal opcode. -/
  | oddPair
  /-- A push with a pop, of one stack or of two, or a cache operation with a stack operation (R664, U9): outside the defined
  behaviour. -/
  | stackMix
  deriving DecidableEq, Repr

/-- The field `f` at bit `lo` and up of a word of `n` bits, all other bits 0. -/
def place (n lo : Nat) {k : Nat} (f : BitVec k) : BitVec n :=
  f.setWidth n <<< lo

/-! ### Codes of conditions and registers -/

/-- The 5-bit code of a condition (R75). -/
def Cond.code : Cond → BitVec 5
  | .eq => 0#5
  | .lt => 1#5
  | .le => 2#5
  | .ac => 3#5
  | .av => 4#5
  | .mv => 5#5
  | .ms => 6#5
  | .sv => 7#5
  | .sz => 8#5
  | .flag0 => 9#5
  | .flag1 => 10#5
  | .flag2 => 11#5
  | .flag3 => 12#5
  | .tf => 13#5
  | .sf => 14#5
  | .notLce => 15#5
  | .ne => 16#5
  | .ge => 17#5
  | .gt => 18#5
  | .notAc => 19#5
  | .notAv => 20#5
  | .notMv => 21#5
  | .notMs => 22#5
  | .notSv => 23#5
  | .notSz => 24#5
  | .notFlag0 => 25#5
  | .notFlag1 => 26#5
  | .notFlag2 => 27#5
  | .notFlag3 => 28#5
  | .notTf => 29#5
  | .notSf => 30#5
  | .true_ => 31#5

/-- The condition of a 5-bit code (R75). -/
def condOf (c : BitVec 5) : Cond :=
  match c.toNat with
  | 0 => .eq
  | 1 => .lt
  | 2 => .le
  | 3 => .ac
  | 4 => .av
  | 5 => .mv
  | 6 => .ms
  | 7 => .sv
  | 8 => .sz
  | 9 => .flag0
  | 10 => .flag1
  | 11 => .flag2
  | 12 => .flag3
  | 13 => .tf
  | 14 => .sf
  | 15 => .notLce
  | 16 => .ne
  | 17 => .ge
  | 18 => .gt
  | 19 => .notAc
  | 20 => .notAv
  | 21 => .notMv
  | 22 => .notMs
  | 23 => .notSv
  | 24 => .notSz
  | 25 => .notFlag0
  | 26 => .notFlag1
  | 27 => .notFlag2
  | 28 => .notFlag3
  | 29 => .notTf
  | 30 => .notSf
  | _ => .true_

/-- The 4-bit code of a system register (R431). -/
def SysReg.code : SysReg → BitVec 4
  | .ustat1 => 0#4
  | .ustat2 => 1#4
  | .mode1 => 2#4
  | .mmask => 3#4
  | .mode2 => 4#4
  | .flags => 5#4
  | .astatx => 6#4
  | .astaty => 7#4
  | .stkyx => 8#4
  | .stkyy => 9#4
  | .irptl => 10#4
  | .imask => 11#4
  | .imaskp => 12#4
  | .mode1stk => 13#4
  | .ustat3 => 14#4
  | .ustat4 => 15#4

/-- The system register of a 4-bit code (R431). -/
def sysRegOf (c : BitVec 4) : SysReg :=
  match c.toNat with
  | 0 => .ustat1
  | 1 => .ustat2
  | 2 => .mode1
  | 3 => .mmask
  | 4 => .mode2
  | 5 => .flags
  | 6 => .astatx
  | 7 => .astaty
  | 8 => .stkyx
  | 9 => .stkyy
  | 10 => .irptl
  | 11 => .imask
  | 12 => .imaskp
  | 13 => .mode1stk
  | 14 => .ustat3
  | _ => .ustat4

/-- The 7-bit code of a universal register (R430). -/
def UReg.code : UReg → BitVec 7
  | .r n => 0#3 ++ n
  | .i n => 1#3 ++ n
  | .m n => 2#3 ++ n
  | .l n => 3#3 ++ n
  | .b n => 4#3 ++ n
  | .s n => 5#3 ++ n
  | .faddr => 0x60#7
  | .daddr => 0x61#7
  | .pc => 0x63#7
  | .pcstk => 0x64#7
  | .pcstkp => 0x65#7
  | .laddr => 0x66#7
  | .curlcntr => 0x67#7
  | .lcntr => 0x68#7
  | .emuclk => 0x69#7
  | .emuclk2 => 0x6A#7
  | .px => 0x6B#7
  | .px1 => 0x6C#7
  | .px2 => 0x6D#7
  | .tperiod => 0x6E#7
  | .tcount => 0x6F#7
  | .sys q => 7#3 ++ q.code

/-- The universal register of a 7-bit code; code 1100010 names none (R430). -/
def uregOf (c : BitVec 7) : Except Reject UReg :=
  let n := c.extractLsb' 0 4
  match (c.extractLsb' 4 3).toNat with
  | 0 => .ok (.r n)
  | 1 => .ok (.i n)
  | 2 => .ok (.m n)
  | 3 => .ok (.l n)
  | 4 => .ok (.b n)
  | 5 => .ok (.s n)
  | 6 =>
    match n.toNat with
    | 0 => .ok .faddr
    | 1 => .ok .daddr
    | 3 => .ok .pc
    | 4 => .ok .pcstk
    | 5 => .ok .pcstkp
    | 6 => .ok .laddr
    | 7 => .ok .curlcntr
    | 8 => .ok .lcntr
    | 9 => .ok .emuclk
    | 10 => .ok .emuclk2
    | 11 => .ok .px
    | 12 => .ok .px1
    | 13 => .ok .px2
    | 14 => .ok .tperiod
    | 15 => .ok .tcount
    | _ => .error .badUreg
  | _ => .ok (.sys (sysRegOf n))

/-- The 8-bit operation code of each `FixOp2` operation (44_alu_fixed.md). -/
def FixOp2.code : FixOp2 → BitVec 8
  | .add => 0x01#8
  | .sub => 0x02#8
  | .addCi => 0x05#8
  | .subCi => 0x06#8
  | .avg => 0x09#8
  | .and => 0x40#8
  | .or => 0x41#8
  | .xor => 0x42#8
  | .min => 0x61#8
  | .max => 0x62#8
  | .clip => 0x63#8

/-- The `FixOp2` operation that an 8-bit operation code names. -/
def fixOp2? (op : BitVec 8) : Option FixOp2 :=
  match op.toNat with
  | 0x01 => some .add
  | 0x02 => some .sub
  | 0x05 => some .addCi
  | 0x06 => some .subCi
  | 0x09 => some .avg
  | 0x40 => some .and
  | 0x41 => some .or
  | 0x42 => some .xor
  | 0x61 => some .min
  | 0x62 => some .max
  | 0x63 => some .clip
  | _ => none

/-- The 8-bit operation code of each `FixOp1` operation (44_alu_fixed.md). -/
def FixOp1.code : FixOp1 → BitVec 8
  | .plusCi => 0x25#8
  | .plusCiMinus1 => 0x26#8
  | .inc => 0x29#8
  | .dec => 0x2A#8
  | .neg => 0x22#8
  | .abs => 0x30#8
  | .pass => 0x21#8
  | .not => 0x43#8

/-- The `FixOp1` operation that an 8-bit operation code names. -/
def fixOp1? (op : BitVec 8) : Option FixOp1 :=
  match op.toNat with
  | 0x25 => some .plusCi
  | 0x26 => some .plusCiMinus1
  | 0x29 => some .inc
  | 0x2A => some .dec
  | 0x22 => some .neg
  | 0x30 => some .abs
  | 0x21 => some .pass
  | 0x43 => some .not
  | _ => none

/-- The 8-bit operation code of each `FltOp2` operation (45_alu_float.md). -/
def FltOp2.code : FltOp2 → BitVec 8
  | .add => 0x81#8
  | .sub => 0x82#8
  | .absAdd => 0x91#8
  | .absSub => 0x92#8
  | .avg => 0x89#8
  | .scalb => 0xBD#8
  | .fixBy => 0xD9#8
  | .truncBy => 0xDD#8
  | .floatBy => 0xDA#8
  | .copysign => 0xE0#8
  | .min => 0xE1#8
  | .max => 0xE2#8
  | .clip => 0xE3#8

/-- The `FltOp2` operation that an 8-bit operation code names. -/
def fltOp2? (op : BitVec 8) : Option FltOp2 :=
  match op.toNat with
  | 0x81 => some .add
  | 0x82 => some .sub
  | 0x91 => some .absAdd
  | 0x92 => some .absSub
  | 0x89 => some .avg
  | 0xBD => some .scalb
  | 0xD9 => some .fixBy
  | 0xDD => some .truncBy
  | 0xDA => some .floatBy
  | 0xE0 => some .copysign
  | 0xE1 => some .min
  | 0xE2 => some .max
  | 0xE3 => some .clip
  | _ => none

/-- The 8-bit operation code of each `FltOp1` operation (45_alu_float.md). -/
def FltOp1.code : FltOp1 → BitVec 8
  | .neg => 0xA2#8
  | .abs => 0xB0#8
  | .pass => 0xA1#8
  | .rnd => 0xA5#8
  | .mant => 0xAD#8
  | .logb => 0xC1#8
  | .fix => 0xC9#8
  | .trunc => 0xCD#8
  | .float => 0xCA#8
  | .recips => 0xC4#8
  | .rsqrts => 0xC5#8

/-- The `FltOp1` operation that an 8-bit operation code names. -/
def fltOp1? (op : BitVec 8) : Option FltOp1 :=
  match op.toNat with
  | 0xA2 => some .neg
  | 0xB0 => some .abs
  | 0xA1 => some .pass
  | 0xA5 => some .rnd
  | 0xAD => some .mant
  | 0xC1 => some .logb
  | 0xC9 => some .fix
  | 0xCD => some .trunc
  | 0xCA => some .float
  | 0xC4 => some .recips
  | 0xC5 => some .rsqrts
  | _ => none

/-- The 8-bit operation code of each `ShiftOp` operation (48_shifter.md). -/
def ShiftOp.code : ShiftOp → BitVec 8
  | .lshift => 0x00#8
  | .orLshift => 0x20#8
  | .ashift => 0x04#8
  | .orAshift => 0x24#8
  | .rot => 0x08#8
  | .bset => 0xC0#8
  | .bclr => 0xC4#8
  | .btgl => 0xC8#8

/-- The `ShiftOp` operation that an 8-bit operation code names. -/
def shiftOp? (op : BitVec 8) : Option ShiftOp :=
  match op.toNat with
  | 0x00 => some .lshift
  | 0x20 => some .orLshift
  | 0x04 => some .ashift
  | 0x24 => some .orAshift
  | 0x08 => some .rot
  | 0xC0 => some .bset
  | 0xC4 => some .bclr
  | 0xC8 => some .btgl
  | _ => none

/-- The 8-bit operation code of each `FieldOp` operation (48_shifter.md). -/
def FieldOp.code : FieldOp → BitVec 8
  | .fdep => 0x44#8
  | .orFdep => 0x64#8
  | .fdepSE => 0x4C#8
  | .orFdepSE => 0x6C#8
  | .fext => 0x40#8
  | .fextSE => 0x48#8

/-- The `FieldOp` operation that an 8-bit operation code names. -/
def fieldOp? (op : BitVec 8) : Option FieldOp :=
  match op.toNat with
  | 0x44 => some .fdep
  | 0x64 => some .orFdep
  | 0x4C => some .fdepSE
  | 0x6C => some .orFdepSE
  | 0x40 => some .fext
  | 0x48 => some .fextSE
  | _ => none

/-- The 8-bit operation code of each `ShiftOp1` operation (48_shifter.md). -/
def ShiftOp1.code : ShiftOp1 → BitVec 8
  | .exp => 0x80#8
  | .expEx => 0x84#8
  | .leftz => 0x88#8
  | .lefto => 0x8C#8
  | .fpack => 0x90#8
  | .funpack => 0x94#8

/-- The `ShiftOp1` operation that an 8-bit operation code names. -/
def shiftOp1? (op : BitVec 8) : Option ShiftOp1 :=
  match op.toNat with
  | 0x80 => some .exp
  | 0x84 => some .expEx
  | 0x88 => some .leftz
  | 0x8C => some .lefto
  | 0x90 => some .fpack
  | 0x94 => some .funpack
  | _ => none

/-- The register code of one of the six MR parts (R432, MRXFBREG). -/
def MrPart.code : MrPart → BitVec 4
  | .mr0f => 0#4
  | .mr1f => 1#4
  | .mr2f => 2#4
  | .mr0b => 4#4
  | .mr1b => 5#4
  | .mr2b => 6#4

/-- The MR part that a 4-bit code names (R432). -/
def mrPart? (c : BitVec 4) : Option MrPart :=
  match c.toNat with
  | 0 => some .mr0f
  | 1 => some .mr1f
  | 2 => some .mr2f
  | 4 => some .mr0b
  | 5 => some .mr1b
  | 6 => some .mr2b
  | _ => none

/-- The pair that a 4-bit DBLREG code names; an odd code is `oddPair` (R432, R442). -/
def pairOf (c : BitVec 4) : Except Reject Pair :=
  if c.getLsbD 0 then .error .oddPair else .ok (c.extractLsb' 1 3)

/-- The DBLREG code of a pair (R432). -/
def Pair.dblCode (p : Pair) : BitVec 4 :=
  p ++ 0#1

/-! ### The 23-bit compute field (R440) -/

/-- The ALU operations of a single-function field, dual add/subtract apart: opcode, rn, rx, ry (R440, R442). -/
def decodeAlu (op : BitVec 8) (rn rx ry : RegNo) : Except Reject Compute :=
  match op.toNat with
  | 0x0A => .ok (.fixComp false rx ry)
  | 0x0B => .ok (.fixComp true rx ry)
  | 0x8A => .ok (.fltComp rx ry)
  | 0x11 => do return .dbl2 false (← pairOf rn) (← pairOf rx) (← pairOf ry)
  | 0x12 => do return .dbl2 true (← pairOf rn) (← pairOf rx) (← pairOf ry)
  | 0x13 => do return .dblComp (← pairOf rx) (← pairOf ry)
  | 0x14 => do return .dbl1 .neg (← pairOf rn) (← pairOf rx)
  | 0x15 => do return .dbl1 .abs (← pairOf rn) (← pairOf rx)
  | 0x16 => do return .dbl1 .pass (← pairOf rn) (← pairOf rx)
  | 0x17 => do return .dblToInt false rn (← pairOf rx)
  | 0x18 => do return .dblToIntBy false rn (← pairOf rx) ry
  | 0x19 => do return .dblToInt true rn (← pairOf rx)
  | 0x1A => do return .dblToIntBy true rn (← pairOf rx) ry
  | 0x1B => do return .dblFloat (← pairOf rn) rx
  | 0x1C => do return .dblFloatBy (← pairOf rn) rx ry
  | 0x1D => do return .dblFromFlt (← pairOf rn) rx
  | 0x1E => do return .fltFromDbl rn (← pairOf rx)
  | 0x1F => do return .dblScalb (← pairOf rn) (← pairOf rx) ry
  | _ =>
    match fixOp2? op with
    | some o => .ok (.fix2 o rn rx ry)
    | none =>
      match fixOp1? op with
      | some o => .ok (.fix1 o rn rx)
      | none =>
        match fltOp2? op with
        | some o => .ok (.flt2 o rn rx ry)
        | none =>
          match fltOp1? op with
          | some o => .ok (.flt1 o rn rx)
          | none => .error .badCompute

/-- A fixed-point multiply opcode: bits 7:6 the kind (01 product, 10 accumulate, 11 subtract), 5 y, 4 x, 3 f,
2 the MR destination, 1 the background register, 0 r (R445, R892 to R898). -/
def decodeMac (op : BitVec 8) (rn rx ry : RegNo) : Except Reject Compute :=
  let mod : MulMod := ⟨op.getLsbD 5, op.getLsbD 4, op.getLsbD 3, op.getLsbD 0⟩
  let bg := op.getLsbD 1
  if mod.wellFormed then
    match (op.extractLsb' 6 2).toNat, op.getLsbD 2 with
    | 1, true => .ok (.mulMr bg .clear mod rx ry)
    | 1, false => if bg then .error .badCompute else .ok (.mulRn .clear mod rn rx ry)
    | 2, true => .ok (.mulMr bg .add mod rx ry)
    | 2, false => .ok (.mulRn (.add bg) mod rn rx ry)
    | 3, true => .ok (.mulMr bg .sub mod rx ry)
    | 3, false => .ok (.mulRn (.sub bg) mod rn rx ry)
    | _, _ => .error .badCompute
  else .error .badCompute

/-- The multiplier operations of a single-function field (R440; 47_multiplier.md). -/
def decodeMul (op : BitVec 8) (rn rx ry : RegNo) : Except Reject Compute :=
  match op.toNat with
  | 0x30 => .ok (.fltMul rn rx ry)
  | 0x31 => do return .dblMul (← pairOf rn) (← pairOf rx) (← pairOf ry)
  | 0x32 => do return .dblMulFlt (← pairOf rn) (← pairOf rx) ry
  | 0x33 => do return .dblMulFlt2 (← pairOf rn) rx ry
  | 0x14 => .ok (.clrMr false)
  | 0x16 => .ok (.clrMr true)
  | 0x18 => .ok (.rndRn false false rn)
  | 0x19 => .ok (.rndRn false true rn)
  | 0x1A => .ok (.rndRn true false rn)
  | 0x1B => .ok (.rndRn true true rn)
  | 0x1C => .ok (.rndMr false false)
  | 0x1D => .ok (.rndMr false true)
  | 0x1E => .ok (.rndMr true false)
  | 0x1F => .ok (.rndMr true true)
  | _ =>
    if op.extractLsb' 4 4 = 0#4 then
      if op.getLsbD 2 then .ok (.satMr (op.getLsbD 1) (op.getLsbD 3) (op.getLsbD 0))
      else .ok (.satRn (op.getLsbD 1) (op.getLsbD 3) (op.getLsbD 0) rn)
    else decodeMac op rn rx ry

/-- The shifter operations of a single-function field (R440; 48_shifter.md). -/
def decodeShift (op : BitVec 8) (rn rx ry : RegNo) : Except Reject Compute :=
  match op.toNat with
  | 0xCC => .ok (.btst rx ry)
  | 0x74 => .ok (.bitdep rx ry)
  | 0x50 => .ok (.bitext false rn rx)
  | 0x58 => .ok (.bitext true rn rx)
  | 0x7C => .ok (.setBffwrp rn)
  | 0x70 => .ok (.getBffwrp rn)
  | _ =>
    match shiftOp? op with
    | some o => .ok (.shift o rn rx ry)
    | none =>
      match fieldOp? op with
      | some o => .ok (.fieldOp o rn rx ry)
      | none =>
        match shiftOp1? op with
        | some o => .ok (.shift1 o rn rx)
        | none => .error .badCompute

/-- The four restricted inputs in bits 7:0 (R444). -/
def mfInOf (f : BitVec 23) : MfIn :=
  ⟨f.extractLsb' 6 2, f.extractLsb' 4 2, f.extractLsb' 2 2, f.extractLsb' 0 2⟩

/-- The four restricted pairs in bits 7:0; the low bit of each code is 0, the codes 01 and 11 are odd pair codes (R444,
R1011, Table 17-27). -/
def mfDblInOf (f : BitVec 23) : Except Reject MfDblIn :=
  if f.getLsbD 6 || f.getLsbD 4 || f.getLsbD 2 || f.getLsbD 0 then .error .oddPair
  else .ok ⟨f.extractLsb' 7 1, f.extractLsb' 5 1, f.extractLsb' 3 1, f.extractLsb' 1 1⟩

/-- The fixed-point ALU half of a multifunction code, from its two low bits (R1008). -/
def mfFixAlu? (c : BitVec 2) : Option MfFixAlu :=
  match c.toNat with
  | 0 => some .add
  | 1 => some .sub
  | 2 => some .avg
  | _ => none

/-- The two low bits of a fixed-point multifunction code (R1008). -/
def MfFixAlu.code : MfFixAlu → BitVec 2
  | .add => 0#2
  | .sub => 1#2
  | .avg => 2#2

/-- The floating-point ALU half of a multifunction code, from its three low bits (R1009). -/
def mfFltAluOf (c : BitVec 3) : MfFltAlu :=
  match c.toNat with
  | 0 => .add
  | 1 => .sub
  | 2 => .floatBy
  | 3 => .fixBy
  | 4 => .avg
  | 5 => .abs
  | 6 => .max
  | _ => .min

/-- The three low bits of a floating-point multifunction code (R1009). -/
def MfFltAlu.code : MfFltAlu → BitVec 3
  | .add => 0#3
  | .sub => 1#3
  | .floatBy => 2#3
  | .fixBy => 3#3
  | .avg => 4#3
  | .abs => 5#3
  | .max => 6#3
  | .min => 7#3

/-- A multifunction field whose code in bits 21:16 begins with 0 (R444, R1008, R1009, R1011). -/
def decodeMf (f : BitVec 23) : Except Reject Compute :=
  let rm := f.extractLsb' 12 4
  let ra := f.extractLsb' 8 4
  let q := mfInOf f
  match (f.extractLsb' 18 3).toNat with
  | 0 =>
    if f.extractLsb' 16 2 = 3#2 then do return .mfDbl false (← pairOf rm) (← pairOf ra) (← mfDblInOf f)
    else .error .badCompute
  | 1 =>
    match mfFixAlu? (f.extractLsb' 16 2) with
    | some a => .ok (.mfFix .mul a rm ra q)
    | none => do return .mfDbl true (← pairOf rm) (← pairOf ra) (← mfDblInOf f)
  | 2 =>
    match mfFixAlu? (f.extractLsb' 16 2) with
    | some a => .ok (.mfMac false a ra q)
    | none => .error .badCompute
  | 3 =>
    match mfFixAlu? (f.extractLsb' 16 2) with
    | some a => .ok (.mfFix .addRm a rm ra q)
    | none => .error .badCompute
  | 4 =>
    match mfFixAlu? (f.extractLsb' 16 2) with
    | some a => .ok (.mfMac true a ra q)
    | none => .error .badCompute
  | 5 =>
    match mfFixAlu? (f.extractLsb' 16 2) with
    | some a => .ok (.mfFix .subRm a rm ra q)
    | none => .error .badCompute
  | _ => .ok (.mfFlt (mfFltAluOf (f.extractLsb' 16 3)) rm ra q)

/-- The computation a 23-bit field names (R411, R440, R443, R444, R446). -/
def decodeCompute (f : BitVec 23) : Except Reject Compute :=
  let rn := f.extractLsb' 8 4
  let rx := f.extractLsb' 4 4
  let ry := f.extractLsb' 0 4
  if f = 0#23 then .ok .none
  else if f.getLsbD 22 then
    if f.extractLsb' 17 5 = 0#5 then
      match mrPart? (f.extractLsb' 12 4) with
      | some p =>
        if f.extractLsb' 0 8 = 0#8 then .ok (if f.getLsbD 16 then .writeMr p rn else .readMr p rn)
        else .error .spareBits
      | none => .error .badCompute
    else
      match (f.extractLsb' 20 2).toNat with
      | 2 => .ok (.mfFixAddSub (f.extractLsb' 12 4) rn (f.extractLsb' 16 4) (mfInOf f))
      | 3 => .ok (.mfFltAddSub (f.extractLsb' 12 4) rn (f.extractLsb' 16 4) (mfInOf f))
      | _ => decodeMf f
  else
    match (f.extractLsb' 20 2).toNat with
    | 0 =>
      match (f.extractLsb' 16 4).toNat with
      | 0x7 => .ok (.fixAddSub rn (f.extractLsb' 12 4) rx ry)
      | 0xF => .ok (.fltAddSub rn (f.extractLsb' 12 4) rx ry)
      | _ => decodeAlu (f.extractLsb' 12 8) rn rx ry
    | 1 => decodeMul (f.extractLsb' 12 8) rn rx ry
    | 2 => decodeShift (f.extractLsb' 12 8) rn rx ry
    | _ => .error .badCompute

/-- A single-function field (R440). -/
def packSingle (cu : BitVec 2) (op : BitVec 8) (rn rx ry : RegNo) : BitVec 23 :=
  place 23 20 cu ||| place 23 12 op ||| place 23 8 rn ||| place 23 4 rx ||| place 23 0 ry

/-- A dual add/subtract field: code in bits 19:16, Rs in 15:12, Ra in 11:8 (R443). -/
def packDual (code rs ra rx ry : RegNo) : BitVec 23 :=
  place 23 16 code ||| place 23 12 rs ||| place 23 8 ra ||| place 23 4 rx ||| place 23 0 ry

/-- An MR transfer field: D in bit 16, the MR part in 15:12, Rn in 11:8 (R446). -/
def packMr (d : BitVec 1) (part rn : RegNo) : BitVec 23 :=
  place 23 22 1#1 ||| place 23 16 d ||| place 23 12 part ||| place 23 8 rn

/-- The opcode of a fixed-point multiply (R445). -/
def packMacOp (kind : BitVec 2) (mod : MulMod) (mr bg : Bool) : BitVec 8 :=
  place 8 6 kind ||| place 8 5 (boolBit mod.ySigned) ||| place 8 4 (boolBit mod.xSigned) |||
    place 8 3 (boolBit mod.frac) ||| place 8 2 (boolBit mr) ||| place 8 1 (boolBit bg) |||
    place 8 0 (boolBit mod.round)

/-- The opcode of RND (`hi` = 1) and SAT (`hi` = 0): f in bit 3, MR destination in 2, background in 1, signed in 0
(R445, R899, R901). -/
def packRndSat (hi f mr bg sgn : Bool) : BitVec 8 :=
  place 8 4 (boolBit hi) ||| place 8 3 (boolBit f) ||| place 8 2 (boolBit mr) ||| place 8 1 (boolBit bg) |||
    place 8 0 (boolBit sgn)

/-- The 6-bit code of a fixed-point multifunction operation: the multiplier half in bits 5:2, the ALU half in 1:0
(R1008). -/
def packCode (mu : BitVec 4) (alu : BitVec 2) : BitVec 6 :=
  place 6 2 mu ||| place 6 0 alu

/-- A multifunction field with a 6-bit code in bits 21:16 and the four restricted inputs (R444). -/
def packMf (code : BitVec 6) (rm ra : RegNo) (q : MfIn) : BitVec 23 :=
  place 23 22 1#1 ||| place 23 16 code ||| place 23 12 rm ||| place 23 8 ra |||
    place 23 6 q.xm ||| place 23 4 q.ym ||| place 23 2 q.xa ||| place 23 0 q.ya

/-- A multifunction field with a dual add/subtract: Rs in bits 19:16 (R444). -/
def packMfDual (kind : BitVec 2) (rm ra rs : RegNo) (q : MfIn) : BitVec 23 :=
  place 23 22 1#1 ||| place 23 20 kind ||| place 23 16 rs ||| place 23 12 rm ||| place 23 8 ra |||
    place 23 6 q.xm ||| place 23 4 q.ym ||| place 23 2 q.xa ||| place 23 0 q.ya

/-- A 64-bit multifunction field: the low bit of each source code is 0 (R444, R1011). -/
def packMfDbl (code : BitVec 6) (m a : Pair) (q : MfDblIn) : BitVec 23 :=
  place 23 22 1#1 ||| place 23 16 code ||| place 23 12 m.dblCode ||| place 23 8 a.dblCode |||
    place 23 7 q.x ||| place 23 5 q.z ||| place 23 3 q.p ||| place 23 1 q.r

/-- The 23-bit field of a computation, unused fields 0 (R440 to R446). -/
def Compute.encode : Compute → BitVec 23
  | .none => 0#23
  | .fix2 op rn rx ry => packSingle 0 op.code rn rx ry
  | .fix1 op rn rx => packSingle 0 op.code rn rx 0
  | .fixComp u rx ry => packSingle 0 (if u then 0x0B else 0x0A) 0 rx ry
  | .flt2 op rn rx ry => packSingle 0 op.code rn rx ry
  | .flt1 op rn rx => packSingle 0 op.code rn rx 0
  | .fltComp rx ry => packSingle 0 0x8A 0 rx ry
  | .dbl2 s m x z => packSingle 0 (if s then 0x12 else 0x11) m.dblCode x.dblCode z.dblCode
  | .dblComp x z => packSingle 0 0x13 0 x.dblCode z.dblCode
  | .dbl1 op m x =>
      packSingle 0 (match op with | .neg => 0x14 | .abs => 0x15 | .pass => 0x16) m.dblCode x.dblCode 0
  | .dblToInt t rn x => packSingle 0 (if t then 0x19 else 0x17) rn x.dblCode 0
  | .dblToIntBy t rn x ry => packSingle 0 (if t then 0x1A else 0x18) rn x.dblCode ry
  | .dblFloat m rx => packSingle 0 0x1B m.dblCode rx 0
  | .dblFloatBy m rx ry => packSingle 0 0x1C m.dblCode rx ry
  | .dblFromFlt m rx => packSingle 0 0x1D m.dblCode rx 0
  | .fltFromDbl rn x => packSingle 0 0x1E rn x.dblCode 0
  | .dblScalb m x ry => packSingle 0 0x1F m.dblCode x.dblCode ry
  | .fixAddSub ra rs rx ry => packDual 0x7 rs ra rx ry
  | .fltAddSub ra rs rx ry => packDual 0xF rs ra rx ry
  | .mulRn .clear m rn rx ry => packSingle 1 (packMacOp 1 m false false) rn rx ry
  | .mulRn (.add bg) m rn rx ry => packSingle 1 (packMacOp 2 m false bg) rn rx ry
  | .mulRn (.sub bg) m rn rx ry => packSingle 1 (packMacOp 3 m false bg) rn rx ry
  | .mulMr bg .clear m rx ry => packSingle 1 (packMacOp 1 m true bg) 0 rx ry
  | .mulMr bg .add m rx ry => packSingle 1 (packMacOp 2 m true bg) 0 rx ry
  | .mulMr bg .sub m rx ry => packSingle 1 (packMacOp 3 m true bg) 0 rx ry
  | .rndRn bg s rn => packSingle 1 (packRndSat true true false bg s) rn 0 0
  | .rndMr bg s => packSingle 1 (packRndSat true true true bg s) 0 0 0
  | .satRn bg f s rn => packSingle 1 (packRndSat false f false bg s) rn 0 0
  | .satMr bg f s => packSingle 1 (packRndSat false f true bg s) 0 0 0
  | .clrMr bg => packSingle 1 (if bg then 0x16 else 0x14) 0 0 0
  | .readMr p rn => packMr 0 p.code rn
  | .writeMr p rn => packMr 1 p.code rn
  | .fltMul rn rx ry => packSingle 1 0x30 rn rx ry
  | .dblMul m x z => packSingle 1 0x31 m.dblCode x.dblCode z.dblCode
  | .dblMulFlt m x ry => packSingle 1 0x32 m.dblCode x.dblCode ry
  | .dblMulFlt2 m rx ry => packSingle 1 0x33 m.dblCode rx ry
  | .shift op rn rx ry => packSingle 2 op.code rn rx ry
  | .btst rx ry => packSingle 2 0xCC 0 rx ry
  | .fieldOp op rn rx ry => packSingle 2 op.code rn rx ry
  | .shift1 op rn rx => packSingle 2 op.code rn rx 0
  | .bitdep rx ry => packSingle 2 0x74 0 rx ry
  | .bitext nu rn rx => packSingle 2 (if nu then 0x58 else 0x50) rn rx 0
  | .setBffwrp rn => packSingle 2 0x7C rn 0 0
  | .getBffwrp rn => packSingle 2 0x70 rn 0 0
  | .mfFix .mul a rm ra q => packMf (packCode 1 a.code) rm ra q
  | .mfFix .addRm a rm ra q => packMf (packCode 3 a.code) rm ra q
  | .mfFix .subRm a rm ra q => packMf (packCode 5 a.code) rm ra q
  | .mfMac false a ra q => packMf (packCode 2 a.code) 0 ra q
  | .mfMac true a ra q => packMf (packCode 4 a.code) 0 ra q
  | .mfFlt a rm ra q => packMf (place 6 3 3#3 ||| place 6 0 a.code) rm ra q
  | .mfFixAddSub rm ra rs q => packMfDual 2 rm ra rs q
  | .mfFltAddSub rm ra rs q => packMfDual 3 rm ra rs q
  | .mfDbl false m a q => packMfDbl 0x03 m a q
  | .mfDbl true m a q => packMfDbl 0x07 m a q

/-! ### The shift-immediate field (R448) -/

/-- The immediate shift that the 23-bit field and `dataex` name (R448). An 8-bit operation asks `dataex` to be 0, and
BFFWRP = data7 asks bit 7 of `data` to be 0 as well: bits of no field (log 9). -/
def decodeShiftImm (ex : BitVec 4) (f : BitVec 23) : Except Reject ShiftImm :=
  let op : BitVec 8 := place 8 2 (f.extractLsb' 16 6)
  let data := f.extractLsb' 8 8
  let rn := f.extractLsb' 4 4
  let rx := f.extractLsb' 0 4
  if f.getLsbD 22 then .error .badShiftImm
  else
    match op.toNat with
    | 0xCC => if ex = 0#4 then .ok (.btst rx data) else .error .spareBits
    | 0x74 => .ok (.bitdep rx (ex ++ data))
    | 0x50 => .ok (.bitext false rn (ex ++ data))
    | 0x58 => .ok (.bitext true rn (ex ++ data))
    | 0x7C => if ex = 0#4 ∧ data.getLsbD 7 = false then .ok (.setBffwrp (data.extractLsb' 0 7)) else .error .spareBits
    | _ =>
      match shiftOp? op with
      | some o => if ex = 0#4 then .ok (.shift o rn rx data) else .error .spareBits
      | none =>
        match fieldOp? op with
        | some o => .ok (.fieldOp o rn rx (data.extractLsb' 0 6) (ex ++ data.extractLsb' 6 2))
        | none => .error .badShiftImm

/-- The `dataex` bits of an immediate shift (R448). -/
def ShiftImm.encodeEx : ShiftImm → BitVec 4
  | .shift .. | .btst .. | .setBffwrp .. => 0#4
  | .fieldOp _ _ _ _ l => l.extractLsb' 2 4
  | .bitdep _ l => l.extractLsb' 8 4
  | .bitext _ _ l => l.extractLsb' 8 4

/-- A shift-immediate field: the code in bits 21:16 is the upper six bits of the 8-bit opcode (R448). -/
def packShiftImm (op : BitVec 8) (data : Byte) (rn rx : RegNo) : BitVec 23 :=
  place 23 16 (op.extractLsb' 2 6) ||| place 23 8 data ||| place 23 4 rn ||| place 23 0 rx

/-- The 23-bit field of an immediate shift, unused fields 0 (R448). -/
def ShiftImm.encode : ShiftImm → BitVec 23
  | .shift op rn rx d => packShiftImm op.code d rn rx
  | .btst rx d => packShiftImm 0xCC d 0 rx
  | .fieldOp op rn rx b l => packShiftImm op.code (l.extractLsb' 0 2 ++ b) rn rx
  | .bitdep rx l => packShiftImm 0x74 (l.extractLsb' 0 8) 0 rx
  | .bitext nu rn l => packShiftImm (if nu then 0x58 else 0x50) (l.extractLsb' 0 8) rn 0
  | .setBffwrp d => packShiftImm 0x7C (0#1 ++ d) 0 0

/-! ### 48-bit words: one decoder for each type (R490) -/

/-- Bits that belong to no field must be 0 (R490, the checked reading of U2). -/
def whenZero {n : Nat} (x : BitVec n) (r : Except Reject Instr) : Except Reject Instr :=
  if x = 0 then r else .error .spareBits

/-- A register code outside the class the type allows is an undefined encoding (R515, R624). -/
def whenClass (bad : Bool) (r : Except Reject Instr) : Except Reject Instr :=
  if bad then .error .badUreg else r

/-- The condition field of Group I, bits 37:33 (R410, R504). -/
def condField (w : Word48) : Cond :=
  condOf (w.extractLsb' 33 5)

/-- The compute field, bits 22:0 (R440). -/
def computeField (w : Word48) : Except Reject Compute :=
  decodeCompute (w.extractLsb' 0 23)

/-- Type 1a (R510). -/
def decode1a (w : Word48) : Except Reject Instr := do
  return .computeDualMove (← computeField w) (w.getLsbD 44) (w.extractLsb' 41 3) (w.extractLsb' 38 3)
    (w.extractLsb' 33 4) (w.getLsbD 37) (w.extractLsb' 30 3) (w.extractLsb' 27 3) (w.extractLsb' 23 4)

/-- The size that the bits l, x, w of a Type 3d word name; x means nothing on a word or long-word load (R518). -/
def size3d (store l x w : Bool) : Except Reject Size :=
  if store && x then .error .badSize
  else if w then .ok (if l then .lw else .none)
  else .ok (if l then (if x then .swse else .sw) else (if x then .bwse else .bw))

/-- Type 3d: bits 22:19 = 0110, x = bit 18, ex = bit 17, w = bit 16 (R518; log 8). -/
def decode3d (w : Word48) : Except Reject Instr := do
  let reg ← uregOf (w.extractLsb' 23 7)
  let size ← size3d (w.getLsbD 31) (w.getLsbD 30) (w.getLsbD 18) (w.getLsbD 16)
  let post := w.getLsbD 44
  let pm := w.getLsbD 32
  if w.getLsbD 31 then
    whenClass (reg.sameDag pm) <| whenZero (w.extractLsb' 0 16) <| whenZero (w.extractLsb' 19 1) <|
      .ok (.storeUregSized (condField w) post pm (w.extractLsb' 41 3) (w.extractLsb' 38 3) reg size (w.getLsbD 17))
  else
    whenClass (post && reg.sameDag pm) <| whenZero (w.extractLsb' 0 16) <| whenZero (w.extractLsb' 19 1) <|
      .ok (.loadUregSized (condField w) post pm (w.extractLsb' 41 3) (w.extractLsb' 38 3) reg size (w.getLsbD 17))

/-- Type 3a (R515). -/
def decode3a (w : Word48) : Except Reject Instr := do
  let reg ← uregOf (w.extractLsb' 23 7)
  let c ← computeField w
  let post := w.getLsbD 44
  let pm := w.getLsbD 32
  if w.getLsbD 31 then
    whenClass (reg.sameDag pm) <|
      .ok (.storeUreg (condField w) c post pm (w.extractLsb' 41 3) (w.extractLsb' 38 3) (w.getLsbD 30) reg)
  else
    whenClass (post && reg.sameDag pm) <|
      .ok (.loadUreg (condField w) c post pm (w.extractLsb' 41 3) (w.extractLsb' 38 3) (w.getLsbD 30) reg)

/-- The signed 6-bit modifier of Type 4: bits 32:27 (R520). -/
def data6Field (w : Word48) : BitVec 6 :=
  w.extractLsb' 27 6

/-- Type 4d: bits 22:19 = 0110, x = bit 18, l = bit 17, w = bit 16 = 0 (R522; log 8). -/
def decode4d (w : Word48) : Except Reject Instr := do
  let size ← size3d (w.getLsbD 39) (w.getLsbD 17) (w.getLsbD 18) false
  whenZero (w.extractLsb' 0 17) <| whenZero (w.extractLsb' 19 1) <|
    .ok (if w.getLsbD 39 then
      .storeDregImmSized (condField w) (w.getLsbD 40) (w.extractLsb' 41 3) (w.getLsbD 38) (data6Field w)
        (w.extractLsb' 23 4) size
    else
      .loadDregImmSized (condField w) (w.getLsbD 40) (w.extractLsb' 41 3) (w.getLsbD 38) (data6Field w)
        (w.extractLsb' 23 4) size)

/-- Type 4a (R520). -/
def decode4a (w : Word48) : Except Reject Instr := do
  let c ← computeField w
  return if w.getLsbD 39 then
      .storeDregImm (condField w) c (w.getLsbD 40) (w.extractLsb' 41 3) (w.getLsbD 38) (data6Field w)
        (w.extractLsb' 23 4)
    else
      .loadDregImm (condField w) c (w.getLsbD 40) (w.extractLsb' 41 3) (w.getLsbD 38) (data6Field w)
        (w.extractLsb' 23 4)

/-- Type 5a, move: source code in bits 42:38 and 32:31, destination in 29:23, bit 30 = 0 (R524). -/
def decode5move (w : Word48) : Except Reject Instr := do
  let src ← uregOf (w.extractLsb' 38 5 ++ w.extractLsb' 31 2)
  let dst ← uregOf (w.extractLsb' 23 7)
  let c ← computeField w
  whenZero (w.extractLsb' 30 1) <| .ok (.moveUreg (condField w) c dst src)

/-- Type 5a, swap: cdreg in bits 41:38, dreg in 26:23 (R526; log 8). -/
def decode5swap (w : Word48) : Except Reject Instr := do
  let c ← computeField w
  whenZero (w.extractLsb' 42 1) <| whenZero (w.extractLsb' 27 6) <|
    .ok (.swapDreg (condField w) c (w.extractLsb' 23 4) (w.extractLsb' 38 4))

/-- Type 6a with memory (R529). -/
def decode6mem (w : Word48) : Except Reject Instr := do
  let sh ← decodeShiftImm (w.extractLsb' 27 4) (w.extractLsb' 0 23)
  let i := w.extractLsb' 41 3
  let m := w.extractLsb' 38 3
  let reg := w.extractLsb' 23 4
  return match w.getLsbD 32, w.getLsbD 31 with
    | false, false => .shiftImmLoadDM (condField w) sh i m reg
    | false, true => .shiftImmStoreDM (condField w) sh i m reg
    | true, false => .shiftImmLoadPM (condField w) sh i m reg
    | true, true => .shiftImmStorePM (condField w) sh i m reg

/-- Type 10a (R580). -/
def decode10a (w : Word48) : Except Reject Instr := do
  let c ← computeField w
  let i := w.extractLsb' 41 3
  let m := w.extractLsb' 38 3
  let reg := w.extractLsb' 23 4
  let md := w.extractLsb' 27 3
  let ic := w.extractLsb' 30 3
  return match w.getLsbD 45, w.getLsbD 44 with
    | false, false => .jumpIndirectElseLoad (condField w) md ic c i m reg
    | false, true => .jumpIndirectElseStore (condField w) md ic c i m reg
    | true, false => .jumpPcRelElseLoad (condField w) (data6Field w) c i m reg
    | true, true => .jumpPcRelElseStore (condField w) (data6Field w) c i m reg

/-- Type 15a (R624). -/
def decode15a (w : Word48) : Except Reject Instr := do
  let reg ← uregOf (w.extractLsb' 32 7)
  let pm := w.getLsbD 44
  if w.getLsbD 40 then
    whenClass (reg.sameDag pm) <|
      .ok (.storeUregOffset pm (w.extractLsb' 41 3) (w.getLsbD 39) reg (w.extractLsb' 0 32))
  else .ok (.loadUregOffset pm (w.extractLsb' 41 3) (w.getLsbD 39) reg (w.extractLsb' 0 32))

/-- Type 16a: bits 36:32 = 0 (R626). -/
def decode16a (w : Word48) : Except Reject Instr :=
  whenZero (w.extractLsb' 32 5) <|
    .ok (.storeImm (w.getLsbD 37) (w.extractLsb' 41 3) (w.extractLsb' 38 3) (w.extractLsb' 0 32))

/-- The instruction whose only part is the computation `c`: Type 2a with condition TRUE, as the constructor of the
computation's own opcode-table row. -/
noncomputable def Instr.ofCompute : Compute → Instr
  | .none => .ifCompute .true_ .none
  | .fix2 .add rn rx ry => .fixAdd rn rx ry
  | .fix2 .sub rn rx ry => .fixSub rn rx ry
  | .fix2 .addCi rn rx ry => .fixAddCarry rn rx ry
  | .fix2 .subCi rn rx ry => .fixSubBorrow rn rx ry
  | .fix2 .avg rn rx ry => .fixAvg rn rx ry
  | .fixComp false rx ry => .fixComp rx ry
  | .fixComp true rx ry => .fixCompU rx ry
  | .fix1 .plusCi rn rx => .fixPlusCarry rn rx
  | .fix1 .plusCiMinus1 rn rx => .fixPlusCarryMinus1 rn rx
  | .fix1 .inc rn rx => .fixInc rn rx
  | .fix1 .dec rn rx => .fixDec rn rx
  | .fix1 .neg rn rx => .fixNeg rn rx
  | .fix1 .abs rn rx => .fixAbs rn rx
  | .fix1 .pass rn rx => .fixPass rn rx
  | .fix2 .and rn rx ry => .fixAnd rn rx ry
  | .fix2 .or rn rx ry => .fixOr rn rx ry
  | .fix2 .xor rn rx ry => .fixXor rn rx ry
  | .fix1 .not rn rx => .fixNot rn rx
  | .fix2 .min rn rx ry => .fixMin rn rx ry
  | .fix2 .max rn rx ry => .fixMax rn rx ry
  | .fix2 .clip rn rx ry => .fixClip rn rx ry
  | .flt2 .add rn rx ry => .fltAdd rn rx ry
  | .flt2 .sub rn rx ry => .fltSub rn rx ry
  | .flt2 .absAdd rn rx ry => .fltAbsAdd rn rx ry
  | .flt2 .absSub rn rx ry => .fltAbsSub rn rx ry
  | .flt2 .avg rn rx ry => .fltAvg rn rx ry
  | .fltComp rx ry => .fltComp rx ry
  | .flt1 .neg rn rx => .fltNeg rn rx
  | .flt1 .abs rn rx => .fltAbs rn rx
  | .flt1 .pass rn rx => .fltPass rn rx
  | .flt1 .rnd rn rx => .fltRnd rn rx
  | .flt2 .scalb rn rx ry => .fltScalb rn rx ry
  | .flt1 .mant rn rx => .fltMant rn rx
  | .flt1 .logb rn rx => .fltLogb rn rx
  | .flt1 .fix rn rx => .fltFix rn rx
  | .flt2 .fixBy rn rx ry => .fltFixBy rn rx ry
  | .flt1 .trunc rn rx => .fltTrunc rn rx
  | .flt2 .truncBy rn rx ry => .fltTruncBy rn rx ry
  | .flt1 .float rn rx => .fltFloat rn rx
  | .flt2 .floatBy rn rx ry => .fltFloatBy rn rx ry
  | .flt1 .recips rn rx => .fltRecips rn rx
  | .flt1 .rsqrts rn rx => .fltRsqrts rn rx
  | .flt2 .copysign rn rx ry => .fltCopysign rn rx ry
  | .flt2 .min rn rx ry => .fltMin rn rx ry
  | .flt2 .max rn rx ry => .fltMax rn rx ry
  | .flt2 .clip rn rx ry => .fltClip rn rx ry
  | .dbl2 false m x z => .dblAdd m x z
  | .dbl2 true m x z => .dblSub m x z
  | .dblComp x z => .dblComp x z
  | .dbl1 .neg m x => .dblNeg m x
  | .dbl1 .abs m x => .dblAbs m x
  | .dbl1 .pass m x => .dblPass m x
  | .dblToInt false rn x => .dblFix rn x
  | .dblToIntBy false rn x ry => .dblFixBy rn x ry
  | .dblToInt true rn x => .dblTrunc rn x
  | .dblToIntBy true rn x ry => .dblTruncBy rn x ry
  | .dblFloat m rx => .dblFloat m rx
  | .dblFloatBy m rx ry => .dblFloatBy m rx ry
  | .dblFromFlt m rx => .dblFromFlt m rx
  | .fltFromDbl rn x => .fltFromDbl rn x
  | .dblScalb m x ry => .dblScalb m x ry
  | .fixAddSub ra rs rx ry => .fixAddSub ra rs rx ry
  | .fltAddSub ra rs rx ry => .fltAddSub ra rs rx ry
  | .mulRn .clear mod rn rx ry => .mulRn mod rn rx ry
  | .mulMr false .clear mod rx ry => .mulMrf mod rx ry
  | .mulMr true .clear mod rx ry => .mulMrb mod rx ry
  | .mulRn (.add false) mod rn rx ry => .macAddRnMrf mod rn rx ry
  | .mulRn (.add true) mod rn rx ry => .macAddRnMrb mod rn rx ry
  | .mulMr false .add mod rx ry => .macAddMrf mod rx ry
  | .mulMr true .add mod rx ry => .macAddMrb mod rx ry
  | .mulRn (.sub false) mod rn rx ry => .macSubRnMrf mod rn rx ry
  | .mulRn (.sub true) mod rn rx ry => .macSubRnMrb mod rn rx ry
  | .mulMr false .sub mod rx ry => .macSubMrf mod rx ry
  | .mulMr true .sub mod rx ry => .macSubMrb mod rx ry
  | .rndRn false sgn rn => .rndRnMrf sgn rn
  | .rndRn true sgn rn => .rndRnMrb sgn rn
  | .rndMr false sgn => .rndMrf sgn
  | .rndMr true sgn => .rndMrb sgn
  | .satRn false frac sgn rn => .satRnMrf frac sgn rn
  | .satRn true frac sgn rn => .satRnMrb frac sgn rn
  | .satMr false frac sgn => .satMrf frac sgn
  | .satMr true frac sgn => .satMrb frac sgn
  | .clrMr false => .clrMrf
  | .clrMr true => .clrMrb
  | .readMr .mr0f rn => .readMr0f rn
  | .writeMr .mr0f rn => .writeMr0f rn
  | .readMr .mr1f rn => .readMr1f rn
  | .writeMr .mr1f rn => .writeMr1f rn
  | .readMr .mr2f rn => .readMr2f rn
  | .writeMr .mr2f rn => .writeMr2f rn
  | .readMr .mr0b rn => .readMr0b rn
  | .writeMr .mr0b rn => .writeMr0b rn
  | .readMr .mr1b rn => .readMr1b rn
  | .writeMr .mr1b rn => .writeMr1b rn
  | .readMr .mr2b rn => .readMr2b rn
  | .writeMr .mr2b rn => .writeMr2b rn
  | .fltMul rn rx ry => .fltMul rn rx ry
  | .dblMul m x z => .dblMul m x z
  | .dblMulFlt m x ry => .dblMulFlt m x ry
  | .dblMulFlt2 m rx ry => .dblMulFlt2 m rx ry
  | .shift .lshift rn rx ry => .lshift rn rx ry
  | .shift .orLshift rn rx ry => .orLshift rn rx ry
  | .shift .ashift rn rx ry => .ashift rn rx ry
  | .shift .orAshift rn rx ry => .orAshift rn rx ry
  | .shift .rot rn rx ry => .rot rn rx ry
  | .shift .bset rn rx ry => .bset rn rx ry
  | .shift .bclr rn rx ry => .bclr rn rx ry
  | .shift .btgl rn rx ry => .btgl rn rx ry
  | .btst rx ry => .btst rx ry
  | .fieldOp .fdep rn rx ry => .fdep rn rx ry
  | .fieldOp .orFdep rn rx ry => .orFdep rn rx ry
  | .fieldOp .fdepSE rn rx ry => .fdepSE rn rx ry
  | .fieldOp .orFdepSE rn rx ry => .orFdepSE rn rx ry
  | .fieldOp .fext rn rx ry => .fext rn rx ry
  | .fieldOp .fextSE rn rx ry => .fextSE rn rx ry
  | .shift1 .exp rn rx => .exp rn rx
  | .shift1 .expEx rn rx => .expEx rn rx
  | .shift1 .leftz rn rx => .leftz rn rx
  | .shift1 .lefto rn rx => .lefto rn rx
  | .shift1 .fpack rn rx => .fpack rn rx
  | .shift1 .funpack rn rx => .funpack rn rx
  | .bitdep rx ry => .bitdep rx ry
  | .bitext false rn rx => .bitext rn rx
  | .bitext true rn rx => .bitextNU rn rx
  | .setBffwrp rn => .setBffwrp rn
  | .getBffwrp rn => .getBffwrp rn
  | .mfFix .mul .add rm ra q => .mfMulAdd rm ra q
  | .mfFix .mul .sub rm ra q => .mfMulSub rm ra q
  | .mfFix .mul .avg rm ra q => .mfMulAvg rm ra q
  | .mfMac false .add ra q => .mfMacAddMrfAdd ra q
  | .mfMac false .sub ra q => .mfMacAddMrfSub ra q
  | .mfMac false .avg ra q => .mfMacAddMrfAvg ra q
  | .mfFix .addRm .add rm ra q => .mfMacAddRmAdd rm ra q
  | .mfFix .addRm .sub rm ra q => .mfMacAddRmSub rm ra q
  | .mfFix .addRm .avg rm ra q => .mfMacAddRmAvg rm ra q
  | .mfMac true .add ra q => .mfMacSubMrfAdd ra q
  | .mfMac true .sub ra q => .mfMacSubMrfSub ra q
  | .mfMac true .avg ra q => .mfMacSubMrfAvg ra q
  | .mfFix .subRm .add rm ra q => .mfMacSubRmAdd rm ra q
  | .mfFix .subRm .sub rm ra q => .mfMacSubRmSub rm ra q
  | .mfFix .subRm .avg rm ra q => .mfMacSubRmAvg rm ra q
  | .mfFlt .add rm ra q => .mfFltAdd rm ra q
  | .mfFlt .sub rm ra q => .mfFltSub rm ra q
  | .mfFlt .floatBy rm ra q => .mfFltFloatBy rm ra q
  | .mfFlt .fixBy rm ra q => .mfFltFixBy rm ra q
  | .mfFlt .avg rm ra q => .mfFltAvg rm ra q
  | .mfFlt .abs rm ra q => .mfFltAbs rm ra q
  | .mfFlt .max rm ra q => .mfFltMax rm ra q
  | .mfFlt .min rm ra q => .mfFltMin rm ra q
  | .mfFixAddSub rm ra rs q => .mfFixAddSub rm ra rs q
  | .mfFltAddSub rm ra rs q => .mfFltAddSub rm ra rs q
  | .mfDbl false m a q => .mfDblAdd m a q
  | .mfDbl true m a q => .mfDblSub m a q

/-- The instruction whose only part is the immediate shift: Type 6a without memory, condition TRUE. -/
def Instr.ofShiftImm : ShiftImm → Instr
  | .shift .lshift rn rx data => .lshiftImm rn rx data
  | .shift .orLshift rn rx data => .orLshiftImm rn rx data
  | .shift .ashift rn rx data => .ashiftImm rn rx data
  | .shift .orAshift rn rx data => .orAshiftImm rn rx data
  | .shift .rot rn rx data => .rotImm rn rx data
  | .shift .bset rn rx data => .bsetImm rn rx data
  | .shift .bclr rn rx data => .bclrImm rn rx data
  | .shift .btgl rn rx data => .btglImm rn rx data
  | .btst rx data => .btstImm rx data
  | .fieldOp .fdep rn rx bit6 len6 => .fdepImm rn rx bit6 len6
  | .fieldOp .orFdep rn rx bit6 len6 => .orFdepImm rn rx bit6 len6
  | .fieldOp .fdepSE rn rx bit6 len6 => .fdepSEImm rn rx bit6 len6
  | .fieldOp .orFdepSE rn rx bit6 len6 => .orFdepSEImm rn rx bit6 len6
  | .fieldOp .fext rn rx bit6 len6 => .fextImm rn rx bit6 len6
  | .fieldOp .fextSE rn rx bit6 len6 => .fextSEImm rn rx bit6 len6
  | .bitdep rx len => .bitdepImm rx len
  | .bitext false rn len => .bitextImm rn len
  | .bitext true rn len => .bitextNUImm rn len
  | .setBffwrp data => .setBffwrpImm data

/-- Type 2a: bits 39:38 = 0, 32:23 = 0 (R512). -/
noncomputable def decode2a (w : Word48) : Except Reject Instr := do
  let c ← computeField w
  whenZero (w.extractLsb' 38 2) <| whenZero (w.extractLsb' 23 10) <|
    .ok (if condField w = .true_ then .ofCompute c else .ifCompute (condField w) c)

/-- Type 6a without memory: bits 39:38, 32:31 and 26:23 = 0 (R530). -/
def decode6nomem (w : Word48) : Except Reject Instr := do
  let sh ← decodeShiftImm (w.extractLsb' 27 4) (w.extractLsb' 0 23)
  whenZero (w.extractLsb' 38 2) <| whenZero (w.extractLsb' 31 2) <| whenZero (w.extractLsb' 23 4) <|
    .ok (if condField w = .true_ then .ofShiftImm sh else .ifShiftImm (condField w) sh)

/-- Type 7a: idis = bits 26:24; the two bits w and l of the flag and the 23 of the computation share bits 23:0. Bit 23 = 0
is no flag; bit 23 = 1 is a flag, bit 22 telling (nw) from (sw), beside a computation whose own bit 22 is 0 (R531; log 8). -/
def decode7a (w : Word48) : Except Reject Instr := do
  let f := w.extractLsb' 0 23
  let c ← decodeCompute (if w.getLsbD 23 then f &&& 0x3FFFFF#23 else f)
  let scale : Scale := if w.getLsbD 23 then (if w.getLsbD 22 then .nw else .sw) else .none
  .ok (.modify (condField w) c (w.getLsbD 38) (w.extractLsb' 30 3) (w.extractLsb' 24 3) (w.extractLsb' 27 3) scale)

/-- Type 7d, bit 39 = 1: breg = bit 29, toby = bit 28, bit 27 = 0, idis = bits 26:24; the mark in bit 23 is written and, as
R490 gives it no row of its own, not asked for (R533; log 8). -/
def decode7d (w : Word48) : Except Reject Instr := do
  let c ← computeField w
  whenZero (w.extractLsb' 27 1) <|
    .ok (.convertAddr (condField w) c (w.getLsbD 38) (w.extractLsb' 30 3) (w.extractLsb' 24 3) (w.getLsbD 28) (w.getLsbD 29))

/-- The jump modifiers that the bits a (la), j (db), ci name (R577). -/
def jumpModsOf (a j ci : Bool) : Except Reject JumpMods :=
  match a, j, ci with
  | false, false, false => .ok .none
  | false, false, true => .ok .ci
  | false, true, false => .ok .db
  | false, true, true => .ok .dbCi
  | true, false, false => .ok .la
  | true, true, false => .ok .dbLa
  | true, _, true => .error .badModifier

/-- The row of the JUMP table that the bits b, a, j, ci name (R577). -/
def branchKindOf (b a j ci : Bool) : Except Reject BranchKind :=
  if b then (if a || ci then .error .badModifier else .ok (.call j))
  else do return .jump (← jumpModsOf a j ci)

/-- Type 8a (R577). -/
def decode8a (w : Word48) : Except Reject Instr := do
  let kind ← branchKindOf (w.getLsbD 39) (w.getLsbD 38) (w.getLsbD 26) (w.getLsbD 24)
  let addr := w.extractLsb' 0 24
  whenZero (w.extractLsb' 27 6) <| whenZero (w.extractLsb' 25 1) <|
    .ok (match kind, w.getLsbD 40 with
      | .jump mods, false => .jumpDirect (condField w) addr mods
      | .jump mods, true => .jumpPcRel (condField w) addr mods
      | .call db, false => .callDirect (condField w) addr db
      | .call db, true => .callPcRel (condField w) addr db)

/-- Type 9a (R578). -/
def decode9a (w : Word48) : Except Reject Instr := do
  let kind ← branchKindOf (w.getLsbD 39) (w.getLsbD 38) (w.getLsbD 26) (w.getLsbD 24)
  let c ← computeField w
  let els := w.getLsbD 25
  let md := w.extractLsb' 27 3
  let ic := w.extractLsb' 30 3
  whenZero (w.extractLsb' 23 1) <|
    .ok (match kind, w.getLsbD 40 with
      | .jump mods, false => .jumpIndirect (condField w) md ic mods els c
      | .jump mods, true => .jumpPcRel6 (condField w) (data6Field w) mods els c
      | .call db, false => .callIndirect (condField w) md ic db els c
      | .call db, true => .callPcRel6 (condField w) (data6Field w) db els c)

/-- Type 11a (R581). -/
def decode11a (w : Word48) : Except Reject Instr := do
  let c ← computeField w
  whenZero (w.extractLsb' 38 2) <| whenZero (w.extractLsb' 27 6) <| whenZero (w.extractLsb' 23 1) <|
    if w.getLsbD 40 then
      (if w.getLsbD 24 then .error .badModifier
       else .ok (.rti (condField w) (w.getLsbD 26) (w.getLsbD 25) c))
    else .ok (.rts (condField w) (w.getLsbD 26) (w.getLsbD 24) (w.getLsbD 25) c)

/-- Type 12a, immediate count (R583). -/
def decode12imm (w : Word48) : Except Reject Instr :=
  .ok (.doCounterImm (w.extractLsb' 24 16) (w.extractLsb' 0 23) (w.getLsbD 23))

/-- Type 12a, count from a register (R584). -/
def decode12ureg (w : Word48) : Except Reject Instr := do
  let reg ← uregOf (w.extractLsb' 32 7)
  whenZero (w.extractLsb' 39 1) <| whenZero (w.extractLsb' 24 8) <|
    .ok (.doCounterUreg reg (w.extractLsb' 0 23) (w.getLsbD 23))

/-- Type 13a (R585). -/
def decode13a (w : Word48) : Except Reject Instr :=
  whenZero (w.extractLsb' 38 2) <| whenZero (w.extractLsb' 24 9) <|
    .ok (.doUntil (condField w) (w.extractLsb' 0 23) (w.getLsbD 23))

/-- Type 17a (R628). -/
def decode17a (w : Word48) : Except Reject Instr := do
  let reg ← uregOf (w.extractLsb' 32 7)
  whenZero (w.extractLsb' 39 1) <| .ok (.moveImm reg (w.extractLsb' 0 32))

/-- Type 14a (R622). -/
def decode14a (w : Word48) : Except Reject Instr := do
  let reg ← uregOf (w.extractLsb' 32 7)
  let addr := w.extractLsb' 0 32
  return if w.getLsbD 40 then .storeUregDirect (w.getLsbD 41) (w.getLsbD 39) reg addr
    else .loadUregDirect (w.getLsbD 41) (w.getLsbD 39) reg addr

/-- Type 18a (R661). -/
def decode18a (w : Word48) : Except Reject Instr :=
  let reg := sysRegOf (w.extractLsb' 32 4)
  let data := w.extractLsb' 0 32
  whenZero (w.extractLsb' 36 1) <|
    match (w.extractLsb' 37 3).toNat with
    | 0 => .ok (.bitSet reg data)
    | 1 => .ok (.bitClr reg data)
    | 2 => .ok (.bitTgl reg data)
    | 4 => .ok (.bitTst reg data)
    | 5 => .ok (.bitXor reg data)
    | _ => .error .badBop

/-- Type 19a: bit 38 = 1 is BITREV; idis = bits 37:35, is = 34:32. Bits 38:32 have no room for sc and w, so that the (sw)
and (nw) forms have no word (R662, R663; log 8). -/
def decode19a (w : Word48) : Except Reject Instr :=
  let src := w.extractLsb' 32 3
  let dst := w.extractLsb' 35 3
  let data := w.extractLsb' 0 32
  .ok (if w.getLsbD 38 then .bitrevImm (w.getLsbD 39) src dst data
    else .modifyImm (w.getLsbD 39) src dst data .none)

/-- Type 20a: lpu, lpo, spu, spo, ppu, ppo, fc are bits 39 to 33, l1ii, l1di, l1dwb, l1pi, l1pwb are bits 32 to 28
(R664; log 8). The constructor is that of the highest set bit. Cache operations of several kinds in one word, which R664
rules out without saying what they do, make one cache operation (DESIGN CHOICE, log 61). -/
def decode20a (w : Word48) : Except Reject Instr :=
  let lpu := w.getLsbD 39
  let lpo := w.getLsbD 38
  let spu := w.getLsbD 37
  let spo := w.getLsbD 36
  let ppu := w.getLsbD 35
  let ppo := w.getLsbD 34
  let fc := w.getLsbD 33
  let push := lpu || spu || ppu
  let pop := lpo || spo || ppo
  let cache := w.extractLsb' 28 5
  whenZero (w.extractLsb' 0 28) <|
    if push && pop then .error .stackMix
    else if (push || pop || fc) && cache != 0#5 then .error .stackMix
    else .ok (
      if lpu then .pushLoop spu ppu fc
      else if lpo then .popLoop spo ppo fc
      else if spu then .pushSts ppu fc
      else if spo then .popSts ppo fc
      else if ppu then .pushPcstk fc
      else if ppo then .popPcstk fc
      else if fc then .flushCache
      else .cacheOp (w.getLsbD 32) (w.getLsbD 31) (w.getLsbD 30) (w.getLsbD 29) (w.getLsbD 28))

/-- Types 21a, 22a and 26a: bit 39 = 1 is IDLE (bit 38 = emu), bits 39:38 = 01 is SYNC (R668, R670, R674; log 8). -/
def decode21a (w : Word48) : Except Reject Instr :=
  whenZero (w.extractLsb' 0 38) <|
    .ok (match w.getLsbD 39, w.getLsbD 38 with
      | false, false => .nop
      | false, true => .sync
      | true, false => .idle
      | true, true => .emuidle)

/-- Type 25a, CJUMP: bits 39:32 = 00000100 direct, 01000100 PC-relative (R671). -/
def decode25a (w : Word48) : Except Reject Instr :=
  whenZero (w.extractLsb' 24 8) <|
    match (w.extractLsb' 32 8).toNat with
    | 0x04 => .ok (.cjump (w.extractLsb' 0 24))
    | 0x44 => .ok (.cjumpPcRel (w.extractLsb' 0 24))
    | _ => .error .spareBits

/-- Type 14d: d = bit 40, l = 39, dreg = 38:35, w = 34, ex = 33, x = 32 (R623; log 8); the word 0x1A0400000000, which as
Type 14d would have w = 1 without ex, is RFRAME (R490, R672). -/
def decode14d (w : Word48) : Except Reject Instr := do
  if w.extractLsb' 0 41 = 0x00400000000#41 then .ok .rframe
  else
    let size ← size3d (w.getLsbD 40) (w.getLsbD 39) (w.getLsbD 32) (w.getLsbD 34)
    if w.getLsbD 34 && !w.getLsbD 33 then .error .badSize
    else .ok (.moveDregDirect (w.getLsbD 40) (w.extractLsb' 35 4) (w.extractLsb' 0 32) size (w.getLsbD 33))

/-- The types whose bits 47:45 are 000, by bits 44:40 (R490). -/
noncomputable def decodeLow (w : Word48) : Except Reject Instr :=
  match (w.extractLsb' 40 5).toNat with
  | 0x00 => decode21a w
  | 0x01 => decode2a w
  | 0x02 => decode6nomem w
  | 0x04 => if w.getLsbD 39 then decode7d w else decode7a w
  | 0x06 => decode8a w
  | 0x07 => decode8a w
  | 0x08 => decode9a w
  | 0x09 => decode9a w
  | 0x0A => decode11a w
  | 0x0B => decode11a w
  | 0x0C => decode12imm w
  | 0x0D => decode12ureg w
  | 0x0E => decode13a w
  | 0x0F => decode17a w
  | 0x10 => decode14a w
  | 0x11 => decode14a w
  | 0x12 => decode14a w
  | 0x13 => decode14a w
  | 0x14 => decode18a w
  | 0x16 => decode19a w
  | 0x17 => decode20a w
  | 0x18 => decode25a w
  | 0x1A => decode14d w
  | 0x1B => decode14d w
  | _ => .error .noType

/-- The instruction of a 48-bit word (R490). -/
noncomputable def decode (w : Word48) : Except Reject Instr :=
  match (w.extractLsb' 45 3).toNat with
  | 0 => decodeLow w
  | 1 => decode1a w
  | 2 => if w.extractLsb' 20 3 = 3#3 then decode3d w else decode3a w
  | 3 =>
    if w.getLsbD 44 then (if w.getLsbD 43 then decode5swap w else decode5move w)
    else (if w.extractLsb' 20 3 = 3#3 then decode4d w else decode4a w)
  | 4 => if w.getLsbD 44 then decode16a w else decode6mem w
  | 5 => decode15a w
  | _ => decode10a w

/-! ### VISA: 16-, 32- and 48-bit instructions (R402, R405; the layouts are log 7) -/

/-- The short compute of a 4-bit code (R447). -/
noncomputable def shortInstr (op : BitVec 4) (rn rx : RegNo) : Instr :=
  match op.toNat with
  | 0 => .shortAdd rn rx
  | 1 => .shortSub rn rx
  | 2 => .shortPass rn rx
  | 3 => .shortComp rn rx
  | 4 => .shortNot rn rx
  | 5 => .shortInc rn rx
  | 6 => .shortDec rn rx
  | 7 => .shortMul rn rx
  | 8 => .shortFltAdd rn rx
  | 9 => .shortFltSub rn rx
  | 10 => .shortFloat rn rx
  | 11 => .shortFltComp rn rx
  | 12 => .shortAnd rn rx
  | 13 => .shortOr rn rx
  | 14 => .shortXor rn rx
  | _ => .shortFltMul rn rx

/-- Type 3c: 1001, dmi in 11:9, dmm in 8:6, d = bit 5, bit 4 = 1, dreg in 3:0 (R517). -/
def decode3c (p : Parcel) : Instr :=
  .moveDregShort (p.getLsbD 5) (p.extractLsb' 0 4) (p.extractLsb' 9 3) (p.extractLsb' 6 3)

/-- Type 11c: 0000101, x = bit 8, bit 7 = 1, j = bit 6, cond in 5:1, lr = bit 0 (R582). -/
def decode11c (p : Parcel) : Except Reject Instr :=
  let cond := condOf (p.extractLsb' 1 5)
  if p.getLsbD 8 then
    (if p.getLsbD 0 then .error .badModifier else .ok (.returnShort cond (.rti (p.getLsbD 6))))
  else .ok (.returnShort cond (.rts (p.getLsbD 6) (p.getLsbD 0)))

/-- The size that the bits l, x, w of a Type 3b or 4b word name; `long` is the meaning of 111 (R516, R521). -/
def size3b (store : Bool) (long plain : Size) (l x w : Bool) : Except Reject Size :=
  match l, x, w with
  | false, false, false => .ok .bw
  | true, false, false => .ok .sw
  | false, true, false => if store then .error .badSize else .ok .bwse
  | true, true, false => if store then .error .badSize else .ok .swse
  | true, true, true => .ok long
  | false, true, true => if plain = long then .error .badSize else .ok plain
  | _, false, true => .error .badSize

/-- Type 3b: the upper 32 bits of Type 3a with bits 22:18 = 01111, x = bit 17, w = bit 16 (R516). -/
def decode3b (w : BitVec 32) : Except Reject Instr := do
  let reg ← uregOf (w.extractLsb' 7 7)
  let store := w.getLsbD 15
  let size ← size3b store .lw .none (w.getLsbD 14) (w.getLsbD 1) (w.getLsbD 0)
  let post := w.getLsbD 28
  let pm := w.getLsbD 16
  whenClass ((post || store) && reg.sameDag pm) <|
    .ok (.moveUregSized (condOf (w.extractLsb' 17 5)) post pm store (w.extractLsb' 25 3) (w.extractLsb' 22 3) reg size)

/-- Type 4b: the upper 32 bits of Type 4a with bits 22:19 = 0111, l = bit 18, x = bit 17, w = bit 16 (R521). -/
def decode4b (w : BitVec 32) : Except Reject Instr := do
  let size ← size3b (w.getLsbD 23) .none .none (w.getLsbD 2) (w.getLsbD 1) (w.getLsbD 0)
  return .moveDregImmSized (condOf (w.extractLsb' 17 5)) (w.getLsbD 24) (w.getLsbD 23) (w.extractLsb' 25 3)
    (w.getLsbD 22) (w.extractLsb' 11 6) (w.extractLsb' 7 4) size

/-- Type 1b: the upper 32 bits of Type 1a with bits 22:16 = 0111111 (R511). -/
def decode1b (w : BitVec 32) : Instr :=
  .dualMove (w.getLsbD 28) (w.extractLsb' 25 3) (w.extractLsb' 22 3) (w.extractLsb' 17 4) (w.getLsbD 21)
    (w.extractLsb' 14 3) (w.extractLsb' 11 3) (w.extractLsb' 7 4)

/-- Type 5b: the upper 32 bits of Type 5a with bits 22:16 = 0111111 (R527, R528). -/
def decode5b (w : BitVec 32) : Except Reject Instr :=
  let cond := condOf (w.extractLsb' 17 5)
  if w.getLsbD 27 then
    whenZero (w.extractLsb' 26 1) <| whenZero (w.extractLsb' 11 6) <|
      .ok (.swapDregShort cond (w.extractLsb' 7 4) (w.extractLsb' 22 4))
  else do
    let src ← uregOf (w.extractLsb' 22 5 ++ w.extractLsb' 15 2)
    let dst ← uregOf (w.extractLsb' 7 7)
    whenZero (w.extractLsb' 14 1) <| .ok (.moveUregShort cond dst src)

/-- Type 7b: the upper 32 bits of Type 7a without flag, with bits 22:16 = 0111111 (R532). -/
def decode7b (w : BitVec 32) : Except Reject Instr :=
  whenZero (w.extractLsb' 23 1) <| whenZero (w.extractLsb' 7 1) <|
    .ok (.modifyShort (condOf (w.extractLsb' 17 5)) (w.getLsbD 22) (w.extractLsb' 14 3) (w.extractLsb' 8 3)
      (w.extractLsb' 11 3))

/-- Type 9b: the upper 32 bits of Type 9a with e = 0 and bits 22:16 = 0111111 (R579). -/
def decode9b (w : BitVec 32) : Except Reject Instr := do
  let kind ← branchKindOf (w.getLsbD 23) (w.getLsbD 22) (w.getLsbD 10) (w.getLsbD 8)
  whenZero (w.extractLsb' 9 1) <| whenZero (w.extractLsb' 7 1) <|
    .ok (.branchShort (condOf (w.extractLsb' 17 5))
      (if w.getLsbD 24 then .pcRel (w.extractLsb' 11 6) else .indirect (w.extractLsb' 11 3) (w.extractLsb' 14 3)) kind)

/-- Type 15b: 1001, data7 in 43:37, bits 36:35 = 01, g = bit 34, then i in 31:29, l = 28, d = 27, ureg in 26:20
(R625). -/
def decode15b (w : BitVec 32) : Except Reject Instr := do
  let reg ← uregOf (w.extractLsb' 4 7)
  let pm := w.getLsbD 18
  let store := w.getLsbD 11
  whenClass (store && reg.sameDag pm) <| whenZero (w.extractLsb' 16 2) <| whenZero (w.extractLsb' 0 4) <|
    .ok (.moveUregOffset7 pm store (w.extractLsb' 13 3) (w.getLsbD 12) reg (w.extractLsb' 21 7))

/-- Types 16b and 17b: 1001 with bits 36:34 = 001; bit 33 = 0 is 16b (i, m, g as in Type 16a), bit 33 = 1 is 17b (ureg
in 43:37) (R627, R629). -/
def decode16b (w : BitVec 32) : Except Reject Instr :=
  whenZero (w.extractLsb' 16 1) <|
    if w.getLsbD 17 then do return .moveImm16 (← uregOf (w.extractLsb' 21 7)) (w.extractLsb' 0 16)
    else .ok (.storeImm16 (w.getLsbD 21) (w.extractLsb' 25 3) (w.extractLsb' 22 3) (w.extractLsb' 0 16))

/-- Type 2b: 000000011 and the 23-bit compute field (R513). -/
def decode2b (w : BitVec 32) : Except Reject Instr := do
  return .compute (← decodeCompute (w.extractLsb' 0 23))

/-- The 16-bit instruction that starts with parcel `p`, if `p` is one (R447, R517, R582, R668, R670). -/
noncomputable def visa16? (p : Parcel) : Option (Except Reject Instr) :=
  if p.extractLsb' 12 4 = 0xC#4 then some (.ok (shortInstr (p.extractLsb' 8 4) (p.extractLsb' 4 4) (p.extractLsb' 0 4)))
  else if p.extractLsb' 12 4 = 9#4 ∧ p.getLsbD 4 = true then some (.ok (decode3c p))
  else if p.extractLsb' 9 7 = 5#7 ∧ p.getLsbD 7 = true then some (decode11c p)
  else if p = 0x0001#16 then some (.ok .nopShort)
  else if p = 0x0081#16 then some (.ok (.idleShort false))
  else if p = 0x00C1#16 then some (.ok (.idleShort true))
  else none

/-- The 32-bit instruction in `w`, if `w` is one: the mark in the bits that would be compute[22:16] (R405, N30). -/
def visa32? (w : BitVec 32) : Option (Except Reject Instr) :=
  let mark := w.extractLsb' 0 7
  if w = 0x1A040000#32 then some (.ok .rframeShort)
  else if w.extractLsb' 23 9 = 3#9 then some (decode2b w)
  else
    match (w.extractLsb' 29 3).toNat with
    | 1 => if mark = 0x3F#7 then some (.ok (decode1b w)) else none
    | 2 => if w.extractLsb' 2 5 = 0xF#5 then some (decode3b w) else none
    | 3 =>
      if w.getLsbD 28 then (if mark = 0x3F#7 then some (decode5b w) else none)
      else (if w.extractLsb' 3 4 = 7#4 then some (decode4b w) else none)
    | 4 =>
      if w.getLsbD 28 then
        (if w.getLsbD 19 then some (decode15b w)
         else if w.getLsbD 18 then some (decode16b w) else none)
      else none
    | 0 =>
      if w.extractLsb' 24 5 = 4#5 then (if mark = 0x3F#7 then some (decode7b w) else none)
      else if w.extractLsb' 25 4 = 4#4 then (if mark = 0x3F#7 then some (decode9b w) else none)
      else none
    | _ => none

/-- The 32-bit instruction that starts with parcels `p0` and `p1`, if they are one. Of the two forms of RFRAME, which begin with
the same parcels, the 48-bit one is read where a parcel of zeros follows (R402, R405, R672, C64; log 7). -/
def visaPair? (p0 p1 p2 : Parcel) : Option (Except Reject Instr) :=
  if p0 = 0x1A04#16 ∧ p1 = 0#16 ∧ p2 = 0#16 then none else visa32? (p0 ++ p1)

/-- The parcel is a 16-bit form (Types 2c, 3c, 11c, 21c, 22c). -/
def isVisa16 (p : Parcel) : Bool :=
  p.extractLsb' 12 4 = 0xC#4 || (p.extractLsb' 12 4 = 9#4 && p.getLsbD 4) || (p.extractLsb' 9 7 = 5#7 && p.getLsbD 7)
    || p = 0x0001#16 || p = 0x0081#16 || p = 0x00C1#16

/-- Whether decoding gave an instruction. -/
def decoded (r : Except Reject Instr) : Bool :=
  match r with
  | .ok _ => true
  | .error _ => false

/-- The parcels to the next instruction from the three at one: an undefined word counts three (R60, D26). -/
def visaLen (p0 p1 p2 : Parcel) : Nat :=
  if isVisa16 p0 then
    if p0.extractLsb' 9 7 = 5#7 && !decoded (decode11c p0) then 3 else 1
  else
    match visaPair? p0 p1 p2 with
    | some r => if decoded r then 2 else 3
    | none => 3

/-- A decoded VISA instruction with its length in parcels (R402). -/
def withLen (n : Nat) (r : Except Reject Instr) : Except Reject (Instr × Nat) :=
  match r with
  | .ok i => .ok (i, n)
  | .error e => .error e

/-- The instruction at three consecutive parcels and its length (R402, R405). A 48-bit VISA instruction decodes as the
ISA word of its three parcels; Type 10a exists in ISA space only (R580). -/
noncomputable def decodeVisa (p0 p1 p2 : Parcel) : Except Reject (Instr × Nat) :=
  match visa16? p0 with
  | some r => withLen 1 r
  | none =>
    match visaPair? p0 p1 p2 with
    | some r => withLen 2 r
    | none =>
      if p0.extractLsb' 14 2 = 3#2 then .error .noType
      else withLen 3 (decode (p0 ++ p1 ++ p2))

/-! ### The encoder -/

/-- The words of an instruction: a 48-bit word, which ISA and VISA share, or a short VISA form. -/
inductive Code
  | word48 (w : Word48)
  | word32 (w : BitVec 32)
  | word16 (w : Parcel)
  deriving DecidableEq, Repr

/-- The fields that most 48-bit types share: condition in 37:33, compute in 22:0 (R504). -/
def packCond (cond : Cond) (c : BitVec 23) : Word48 :=
  place 48 33 cond.code ||| place 48 0 c

/-- The index, modify and condition fields of Types 3 and 6 (R515, R529). -/
def packIM (i m : DagNo) (cond : Cond) : Word48 :=
  place 48 41 i ||| place 48 38 m ||| place 48 33 cond.code

/-- A Type 2a word (R512). -/
def packType2a (cond : Cond) (c : Compute) : Code :=
  .word48 (place 48 40 1#5 ||| packCond cond c.encode)

/-- A Type 6a word without memory (R530). -/
def packType6 (cond : Cond) (s : ShiftImm) : Code :=
  .word48 (place 48 40 2#5 ||| packCond cond s.encode ||| place 48 27 s.encodeEx)

/-- A Type 1 word without its compute field (R510). -/
def packType1 (dmStore : Bool) (dmi dmm : DagNo) (dmReg : RegNo) (pmStore : Bool) (pmi pmm : DagNo) (pmReg : RegNo) :
    Word48 :=
  place 48 45 1#3 ||| place 48 44 (boolBit dmStore) ||| place 48 41 dmi ||| place 48 38 dmm |||
    place 48 37 (boolBit pmStore) ||| place 48 33 dmReg ||| place 48 30 pmi ||| place 48 27 pmm |||
    place 48 23 pmReg

/-- A Type 3 word without its low 23 bits (R515). -/
def packType3 (cond : Cond) (post pm store l : Bool) (i m : DagNo) (reg : UReg) : Word48 :=
  place 48 45 2#3 ||| place 48 44 (boolBit post) ||| packIM i m cond ||| place 48 32 (boolBit pm) |||
    place 48 31 (boolBit store) ||| place 48 30 (boolBit l) ||| place 48 23 reg.code

/-- The bits l, x, w of a size in Types 3d, 4d and 14d (R518, R522, R623). -/
def Size.lxw : Size → Bool × Bool × Bool
  | .none => (false, false, true)
  | .lw => (true, false, true)
  | .bw => (false, false, false)
  | .bwse => (false, true, false)
  | .sw => (true, false, false)
  | .swse => (true, true, false)

/-- The bits l, x, w of a size in Type 3b (R516). -/
def Size.lxw3b : Size → Bool × Bool × Bool
  | .none => (false, true, true)
  | .lw => (true, true, true)
  | .bw => (false, false, false)
  | .bwse => (false, true, false)
  | .sw => (true, false, false)
  | .swse => (true, true, false)

/-- The bits l, x, w of a size in Type 4b, which has no (lw) (R521). -/
def Size.lxw4b : Size → Bool × Bool × Bool
  | .none | .lw => (true, true, true)
  | .bw => (false, false, false)
  | .bwse => (false, true, false)
  | .sw => (true, false, false)
  | .swse => (true, true, false)

/-- A Type 3d word (R518). -/
def packType3d (cond : Cond) (post pm store : Bool) (i m : DagNo) (reg : UReg) (size : Size) (ex : Bool) : Code :=
  .word48 (packType3 cond post pm store size.lxw.1 i m reg ||| place 48 20 3#3 |||
    place 48 18 (boolBit size.lxw.2.1) ||| place 48 17 (boolBit ex) ||| place 48 16 (boolBit size.lxw.2.2))

/-- A Type 4 word without its low 23 bits (R520). -/
def packType4 (cond : Cond) (pm store : Bool) (i : DagNo) (post : Bool) (data : BitVec 6) (reg : RegNo) : Word48 :=
  place 48 44 6#4 ||| place 48 41 i ||| place 48 40 (boolBit pm) ||| place 48 39 (boolBit store) |||
    place 48 38 (boolBit post) ||| place 48 33 cond.code ||| place 48 27 data ||| place 48 23 reg

/-- A Type 4d word (R522). -/
def packType4d (cond : Cond) (pm store : Bool) (i : DagNo) (post : Bool) (data : BitVec 6) (reg : RegNo)
    (size : Size) : Code :=
  .word48 (packType4 cond pm store i post data reg ||| place 48 20 3#3 |||
    place 48 18 (boolBit size.lxw.2.1) ||| place 48 17 (boolBit size.lxw.1))

/-- A Type 5 move word without its low 23 bits (R524). -/
def packType5 (cond : Cond) (dst src : UReg) : Word48 :=
  place 48 43 0xE#5 ||| place 48 38 (src.code.extractLsb' 2 5) ||| place 48 33 cond.code |||
    place 48 31 (src.code.extractLsb' 0 2) ||| place 48 23 dst.code

/-- A Type 5 swap word without its low 23 bits (R526; log 8). -/
def packType5swap (cond : Cond) (reg creg : RegNo) : Word48 :=
  place 48 43 0xF#5 ||| place 48 38 creg ||| place 48 33 cond.code ||| place 48 23 reg

/-- A Type 6a word with memory (R529). -/
def packType6mem (pm store : Bool) (cond : Cond) (s : ShiftImm) (i m : DagNo) (reg : RegNo) : Code :=
  .word48 (place 48 44 8#4 ||| packIM i m cond ||| place 48 32 (boolBit pm) ||| place 48 31 (boolBit store) |||
    place 48 27 s.encodeEx ||| place 48 23 reg ||| place 48 0 s.encode)

/-- The bits a (la), j (db), ci of a jump's modifiers (R577). -/
def JumpMods.bits : JumpMods → Bool × Bool × Bool
  | .none => (false, false, false)
  | .ci => (false, false, true)
  | .db => (false, true, false)
  | .dbCi => (false, true, true)
  | .la => (true, false, false)
  | .dbLa => (true, true, false)

/-- The bits b, a, j, ci of a row of the JUMP table (R577). -/
def BranchKind.bits : BranchKind → Bool × Bool × Bool × Bool
  | .jump mods => (false, mods.bits)
  | .call db => (true, false, db, false)

/-- The branch bits of Types 8a and 9a: prefix and r in 47:40, b, a, cond, j, ci (R577, R578). -/
def packBranch (op : BitVec 5) (cond : Cond) (kind : BranchKind) : Word48 :=
  place 48 40 op ||| place 48 39 (boolBit kind.bits.1) ||| place 48 38 (boolBit kind.bits.2.1) |||
    place 48 33 cond.code ||| place 48 26 (boolBit kind.bits.2.2.1) ||| place 48 24 (boolBit kind.bits.2.2.2)

/-- A Type 8a word (R577). -/
def packType8 (rel : Bool) (cond : Cond) (kind : BranchKind) (addr : IAddr) : Code :=
  .word48 (packBranch (if rel then 7 else 6) cond kind ||| place 48 0 addr)

/-- A Type 9a word (R578). -/
def packType9 (cond : Cond) (kind : BranchKind) (target : ShortTarget) (els : Bool) (c : Compute) : Code :=
  match target with
  | .indirect md ic =>
    .word48 (packBranch 8 cond kind ||| place 48 30 ic ||| place 48 27 md ||| place 48 25 (boolBit els) |||
      place 48 0 c.encode)
  | .pcRel off =>
    .word48 (packBranch 9 cond kind ||| place 48 27 off ||| place 48 25 (boolBit els) ||| place 48 0 c.encode)

/-- A Type 10a word (R580). -/
def packType10 (store : Bool) (cond : Cond) (target : ShortTarget) (c : Compute) (i m : DagNo) (reg : RegNo) : Code :=
  let rest := place 48 46 3#2 ||| place 48 44 (boolBit store) ||| packIM i m cond ||| place 48 23 reg |||
    place 48 0 c.encode
  match target with
  | .indirect md ic => .word48 (rest ||| place 48 30 ic ||| place 48 27 md)
  | .pcRel off => .word48 (rest ||| place 48 45 1#1 ||| place 48 27 off)

/-- A Type 11a word (R581). -/
def packType11 (rti : Bool) (cond : Cond) (db lr els : Bool) (c : Compute) : Code :=
  .word48 (place 48 40 (if rti then 0xB#5 else 0xA#5) ||| packCond cond c.encode ||| place 48 26 (boolBit db) |||
    place 48 25 (boolBit els) ||| place 48 24 (boolBit lr))

/-- A Type 14a word (R622). -/
def packType14 (pm store l : Bool) (reg : UReg) (addr : Word) : Code :=
  .word48 (place 48 42 4#3 ||| place 48 41 (boolBit pm) ||| place 48 40 (boolBit store) ||| place 48 39 (boolBit l) |||
    place 48 32 reg.code ||| place 48 0 addr)

/-- A Type 15a word (R624). -/
def packType15 (pm store : Bool) (i : DagNo) (l : Bool) (reg : UReg) (data : Word) : Code :=
  .word48 (place 48 45 5#3 ||| place 48 44 (boolBit pm) ||| place 48 41 i ||| place 48 40 (boolBit store) |||
    place 48 39 (boolBit l) ||| place 48 32 reg.code ||| place 48 0 data)

/-- A Type 18a word (R661). -/
def packType18 (bop : BitVec 3) (reg : SysReg) (data : Word) : Code :=
  .word48 (place 48 40 0x14#5 ||| place 48 37 bop ||| place 48 32 reg.code ||| place 48 0 data)

/-- A Type 19a word: bit-reverse in bit 38 (R662, R663; log 8). -/
def packType19 (pm br : Bool) (src dst : DagNo) (data : Word) : Code :=
  .word48 (place 48 40 0x16#5 ||| place 48 39 (boolBit pm) ||| place 48 38 (boolBit br) |||
    place 48 35 dst ||| place 48 32 src ||| place 48 0 data)

/-- A Type 20a word: the seven stack and flush bits 39:33, the five cache bits 32:28 (R664; log 8). -/
def packType20 (lpu lpo spu spo ppu ppo fc : Bool) (cache : BitVec 5) : Code :=
  .word48 (place 48 40 0x17#5 ||| place 48 39 (boolBit lpu) ||| place 48 38 (boolBit lpo) |||
    place 48 37 (boolBit spu) ||| place 48 36 (boolBit spo) ||| place 48 35 (boolBit ppu) |||
    place 48 34 (boolBit ppo) ||| place 48 33 (boolBit fc) ||| place 48 28 cache)

/-- The upper 32 bits of a 48-bit word, with the mark 0111111 of the short forms in the lowest seven (R405, log 7). -/
def shortOf (w : Word48) : Code :=
  .word32 (w.extractLsb' 16 32 ||| 0x3F#32)

/-- The bits 23 and 22 of a MODIFY flag (R531; log 8). -/
def Scale.bits : Scale → BitVec 2
  | .none => 0#2
  | .sw => 2#2
  | .nw => 3#2

/-- The 4-bit code of a short compute (R447). -/
def ShortOp.code : ShortOp → BitVec 4
  | .add => 0#4
  | .sub => 1#4
  | .pass => 2#4
  | .comp => 3#4
  | .not => 4#4
  | .inc => 5#4
  | .dec => 6#4
  | .mul => 7#4
  | .fltAdd => 8#4
  | .fltSub => 9#4
  | .float => 10#4
  | .fltComp => 11#4
  | .and => 12#4
  | .or => 13#4
  | .xor => 14#4
  | .fltMul => 15#4

/-- A Type 2c parcel (R447). -/
def packShort (op : ShortOp) (rn rx : RegNo) : Parcel :=
  place 16 12 0xC#4 ||| place 16 8 op.code ||| place 16 4 rn ||| place 16 0 rx

/-- The words of a well-formed instruction (R490, R405). For an instruction that is not well formed the result means
nothing. -/
def encode : Instr → Code
  | .computeDualMove c dmStore dmi dmm dmReg pmStore pmi pmm pmReg => .word48 (packType1 dmStore dmi dmm dmReg pmStore pmi pmm pmReg ||| place 48 0 c.encode)
  | .ifCompute cond c => packType2a cond c
  | .loadUreg cond c post pm i m long reg => .word48 (packType3 cond post pm false long i m reg ||| place 48 0 c.encode)
  | .storeUreg cond c post pm i m long reg => .word48 (packType3 cond post pm true long i m reg ||| place 48 0 c.encode)
  | .loadUregSized cond post pm i m reg size ex => packType3d cond post pm false i m reg size ex
  | .storeUregSized cond post pm i m reg size ex => packType3d cond post pm true i m reg size ex
  | .loadDregImm cond c pm i post data reg => .word48 (packType4 cond pm false i post data reg ||| place 48 0 c.encode)
  | .storeDregImm cond c pm i post data reg => .word48 (packType4 cond pm true i post data reg ||| place 48 0 c.encode)
  | .loadDregImmSized cond pm i post data reg size => packType4d cond pm false i post data reg size
  | .storeDregImmSized cond pm i post data reg size => packType4d cond pm true i post data reg size
  | .moveUreg cond c dst src => .word48 (packType5 cond dst src ||| place 48 0 c.encode)
  | .swapDreg cond c reg creg => .word48 (packType5swap cond reg creg ||| place 48 0 c.encode)
  | .shiftImmLoadDM cond sh i m reg => packType6mem false false cond sh i m reg
  | .shiftImmStoreDM cond sh i m reg => packType6mem false true cond sh i m reg
  | .shiftImmLoadPM cond sh i m reg => packType6mem true false cond sh i m reg
  | .shiftImmStorePM cond sh i m reg => packType6mem true true cond sh i m reg
  | .ifShiftImm cond sh => packType6 cond sh
  | .modify cond c pm src dst m scale =>
      .word48 (place 48 40 4#5 ||| packCond cond c.encode ||| place 48 38 (boolBit pm) ||| place 48 30 src |||
        place 48 27 m ||| place 48 24 dst ||| place 48 22 scale.bits)
  | .convertAddr cond c pm src dst toByte breg =>
      .word48 (place 48 40 4#5 ||| packCond cond c.encode ||| place 48 39 1#1 ||| place 48 38 (boolBit pm) |||
        place 48 30 src ||| place 48 29 (boolBit breg) ||| place 48 28 (boolBit toByte) ||| place 48 24 dst |||
        place 48 23 1#1)
  | .jumpDirect cond addr mods => packType8 false cond (.jump mods) addr
  | .jumpPcRel cond off mods => packType8 true cond (.jump mods) off
  | .callDirect cond addr db => packType8 false cond (.call db) addr
  | .callPcRel cond off db => packType8 true cond (.call db) off
  | .jumpIndirect cond md ic mods els c => packType9 cond (.jump mods) (.indirect md ic) els c
  | .jumpPcRel6 cond off mods els c => packType9 cond (.jump mods) (.pcRel off) els c
  | .callIndirect cond md ic db els c => packType9 cond (.call db) (.indirect md ic) els c
  | .callPcRel6 cond off db els c => packType9 cond (.call db) (.pcRel off) els c
  | .jumpIndirectElseLoad cond md ic c i m reg => packType10 false cond (.indirect md ic) c i m reg
  | .jumpIndirectElseStore cond md ic c i m reg => packType10 true cond (.indirect md ic) c i m reg
  | .jumpPcRelElseLoad cond off c i m reg => packType10 false cond (.pcRel off) c i m reg
  | .jumpPcRelElseStore cond off c i m reg => packType10 true cond (.pcRel off) c i m reg
  | .rts cond db lr els c => packType11 false cond db lr els c
  | .rti cond db els c => packType11 true cond db false els c
  | .doCounterImm count off f1 =>
      .word48 (place 48 40 0xC#5 ||| place 48 24 count ||| place 48 23 (boolBit f1) ||| place 48 0 off)
  | .doCounterUreg reg off f1 =>
      .word48 (place 48 40 0xD#5 ||| place 48 32 reg.code ||| place 48 23 (boolBit f1) ||| place 48 0 off)
  | .doUntil term off f1 =>
      .word48 (place 48 40 0xE#5 ||| place 48 33 term.code ||| place 48 23 (boolBit f1) ||| place 48 0 off)
  | .loadUregDirect pm long reg addr => packType14 pm false long reg addr
  | .storeUregDirect pm long reg addr => packType14 pm true long reg addr
  | .moveDregDirect store reg addr size ex =>
      .word48 (place 48 41 0xD#4 ||| place 48 40 (boolBit store) ||| place 48 39 (boolBit size.lxw.1) |||
        place 48 35 reg ||| place 48 34 (boolBit size.lxw.2.2) ||| place 48 33 (boolBit ex) |||
        place 48 32 (boolBit size.lxw.2.1) ||| place 48 0 addr)
  | .loadUregOffset pm i long reg data => packType15 pm false i long reg data
  | .storeUregOffset pm i long reg data => packType15 pm true i long reg data
  | .storeImm pm i m data =>
      .word48 (place 48 44 9#4 ||| place 48 41 i ||| place 48 38 m ||| place 48 37 (boolBit pm) ||| place 48 0 data)
  | .moveImm reg data => .word48 (place 48 40 0xF#5 ||| place 48 32 reg.code ||| place 48 0 data)
  | .bitSet reg data => packType18 0 reg data
  | .bitClr reg data => packType18 1 reg data
  | .bitTgl reg data => packType18 2 reg data
  | .bitTst reg data => packType18 4 reg data
  | .bitXor reg data => packType18 5 reg data
  | .modifyImm pm src dst data _ => packType19 pm false src dst data
  | .bitrevImm pm src dst data => packType19 pm true src dst data
  | .pushLoop sts pcstk flush => packType20 true false sts false pcstk false flush 0
  | .popLoop sts pcstk flush => packType20 false true false sts false pcstk flush 0
  | .pushSts pcstk flush => packType20 false false true false pcstk false flush 0
  | .popSts pcstk flush => packType20 false false false true false pcstk flush 0
  | .pushPcstk flush => packType20 false false false false true false flush 0
  | .popPcstk flush => packType20 false false false false false true flush 0
  | .flushCache => packType20 false false false false false false true 0
  | .cacheOp l1ii l1di l1dwb l1pi l1pwb =>
      packType20 false false false false false false false
        (place 5 4 (boolBit l1ii) ||| place 5 3 (boolBit l1di) ||| place 5 2 (boolBit l1dwb) |||
          place 5 1 (boolBit l1pi) ||| place 5 0 (boolBit l1pwb))
  | .nop => .word48 0
  | .idle => .word48 (place 48 39 1#1)
  | .emuidle => .word48 (place 48 39 1#1 ||| place 48 38 1#1)
  | .sync => .word48 (place 48 38 1#1)
  | .cjump addr => .word48 (place 48 32 0x1804#16 ||| place 48 0 addr)
  | .cjumpPcRel off => .word48 (place 48 32 0x1844#16 ||| place 48 0 off)
  | .rframe => .word48 (place 48 32 0x1A04#16)
  | .dualMove dmStore dmi dmm dmReg pmStore pmi pmm pmReg => shortOf (packType1 dmStore dmi dmm dmReg pmStore pmi pmm pmReg)
  | .compute c => .word32 (place 32 23 3#9 ||| place 32 0 c.encode)
  | .shortCompute op rn rx => .word16 (packShort op rn rx)
  | .moveUregSized cond post pm store i m reg size =>
      .word32 ((packType3 cond post pm store size.lxw3b.1 i m reg).extractLsb' 16 32 ||| place 32 2 0xF#5 |||
        place 32 1 (boolBit size.lxw3b.2.1) ||| place 32 0 (boolBit size.lxw3b.2.2))
  | .moveDregShort store reg i m =>
      .word16 (place 16 12 9#4 ||| place 16 9 i ||| place 16 6 m ||| place 16 5 (boolBit store) ||| place 16 4 1#1 |||
        place 16 0 reg)
  | .moveDregImmSized cond pm store i post data reg size =>
      .word32 ((packType4 cond pm store i post data reg).extractLsb' 16 32 ||| place 32 3 7#4 |||
        place 32 2 (boolBit size.lxw4b.1) ||| place 32 1 (boolBit size.lxw4b.2.1) |||
        place 32 0 (boolBit size.lxw4b.2.2))
  | .moveUregShort cond dst src => shortOf (packType5 cond dst src)
  | .swapDregShort cond reg creg => shortOf (packType5swap cond reg creg)
  | .modifyShort cond pm src dst m =>
      shortOf (place 48 40 4#5 ||| place 48 38 (boolBit pm) ||| place 48 33 cond.code ||| place 48 30 src |||
        place 48 27 m ||| place 48 24 dst)
  | .branchShort cond target kind =>
      match target with
      | .indirect md ic => shortOf (packBranch 8 cond kind ||| place 48 30 ic ||| place 48 27 md)
      | .pcRel off => shortOf (packBranch 9 cond kind ||| place 48 27 off)
  | .returnShort cond kind =>
      match kind with
      | .rts db lr =>
        .word16 (place 16 9 5#7 ||| place 16 7 1#1 ||| place 16 6 (boolBit db) ||| place 16 1 cond.code |||
          place 16 0 (boolBit lr))
      | .rti db =>
        .word16 (place 16 9 5#7 ||| place 16 8 1#1 ||| place 16 7 1#1 ||| place 16 6 (boolBit db) |||
          place 16 1 cond.code)
  | .moveUregOffset7 pm store i long reg data =>
      .word32 (place 32 28 9#4 ||| place 32 21 data ||| place 32 19 1#1 ||| place 32 18 (boolBit pm) |||
        place 32 13 i ||| place 32 12 (boolBit long) ||| place 32 11 (boolBit store) ||| place 32 4 reg.code)
  | .storeImm16 pm i m data =>
      .word32 (place 32 28 9#4 ||| place 32 25 i ||| place 32 22 m ||| place 32 21 (boolBit pm) ||| place 32 18 1#1 |||
        place 32 0 data)
  | .moveImm16 reg data =>
      .word32 (place 32 28 9#4 ||| place 32 21 reg.code ||| place 32 18 1#1 ||| place 32 17 1#1 ||| place 32 0 data)
  | .nopShort => .word16 0x0001
  | .idleShort emu => .word16 (if emu then 0x00C1 else 0x0081)
  | .rframeShort => .word32 0x1A040000
  | .fixAdd rn rx ry => packType2a .true_ (.fix2 .add rn rx ry)
  | .fixSub rn rx ry => packType2a .true_ (.fix2 .sub rn rx ry)
  | .fixAddCarry rn rx ry => packType2a .true_ (.fix2 .addCi rn rx ry)
  | .fixSubBorrow rn rx ry => packType2a .true_ (.fix2 .subCi rn rx ry)
  | .fixAvg rn rx ry => packType2a .true_ (.fix2 .avg rn rx ry)
  | .fixComp rx ry => packType2a .true_ (.fixComp false rx ry)
  | .fixCompU rx ry => packType2a .true_ (.fixComp true rx ry)
  | .fixPlusCarry rn rx => packType2a .true_ (.fix1 .plusCi rn rx)
  | .fixPlusCarryMinus1 rn rx => packType2a .true_ (.fix1 .plusCiMinus1 rn rx)
  | .fixInc rn rx => packType2a .true_ (.fix1 .inc rn rx)
  | .fixDec rn rx => packType2a .true_ (.fix1 .dec rn rx)
  | .fixNeg rn rx => packType2a .true_ (.fix1 .neg rn rx)
  | .fixAbs rn rx => packType2a .true_ (.fix1 .abs rn rx)
  | .fixPass rn rx => packType2a .true_ (.fix1 .pass rn rx)
  | .fixAnd rn rx ry => packType2a .true_ (.fix2 .and rn rx ry)
  | .fixOr rn rx ry => packType2a .true_ (.fix2 .or rn rx ry)
  | .fixXor rn rx ry => packType2a .true_ (.fix2 .xor rn rx ry)
  | .fixNot rn rx => packType2a .true_ (.fix1 .not rn rx)
  | .fixMin rn rx ry => packType2a .true_ (.fix2 .min rn rx ry)
  | .fixMax rn rx ry => packType2a .true_ (.fix2 .max rn rx ry)
  | .fixClip rn rx ry => packType2a .true_ (.fix2 .clip rn rx ry)
  | .fltAdd rn rx ry => packType2a .true_ (.flt2 .add rn rx ry)
  | .fltSub rn rx ry => packType2a .true_ (.flt2 .sub rn rx ry)
  | .fltAbsAdd rn rx ry => packType2a .true_ (.flt2 .absAdd rn rx ry)
  | .fltAbsSub rn rx ry => packType2a .true_ (.flt2 .absSub rn rx ry)
  | .fltAvg rn rx ry => packType2a .true_ (.flt2 .avg rn rx ry)
  | .fltComp rx ry => packType2a .true_ (.fltComp rx ry)
  | .fltNeg rn rx => packType2a .true_ (.flt1 .neg rn rx)
  | .fltAbs rn rx => packType2a .true_ (.flt1 .abs rn rx)
  | .fltPass rn rx => packType2a .true_ (.flt1 .pass rn rx)
  | .fltRnd rn rx => packType2a .true_ (.flt1 .rnd rn rx)
  | .fltScalb rn rx ry => packType2a .true_ (.flt2 .scalb rn rx ry)
  | .fltMant rn rx => packType2a .true_ (.flt1 .mant rn rx)
  | .fltLogb rn rx => packType2a .true_ (.flt1 .logb rn rx)
  | .fltFix rn rx => packType2a .true_ (.flt1 .fix rn rx)
  | .fltFixBy rn rx ry => packType2a .true_ (.flt2 .fixBy rn rx ry)
  | .fltTrunc rn rx => packType2a .true_ (.flt1 .trunc rn rx)
  | .fltTruncBy rn rx ry => packType2a .true_ (.flt2 .truncBy rn rx ry)
  | .fltFloat rn rx => packType2a .true_ (.flt1 .float rn rx)
  | .fltFloatBy rn rx ry => packType2a .true_ (.flt2 .floatBy rn rx ry)
  | .fltRecips rn rx => packType2a .true_ (.flt1 .recips rn rx)
  | .fltRsqrts rn rx => packType2a .true_ (.flt1 .rsqrts rn rx)
  | .fltCopysign rn rx ry => packType2a .true_ (.flt2 .copysign rn rx ry)
  | .fltMin rn rx ry => packType2a .true_ (.flt2 .min rn rx ry)
  | .fltMax rn rx ry => packType2a .true_ (.flt2 .max rn rx ry)
  | .fltClip rn rx ry => packType2a .true_ (.flt2 .clip rn rx ry)
  | .dblAdd m x z => packType2a .true_ (.dbl2 false m x z)
  | .dblSub m x z => packType2a .true_ (.dbl2 true m x z)
  | .dblComp x z => packType2a .true_ (.dblComp x z)
  | .dblNeg m x => packType2a .true_ (.dbl1 .neg m x)
  | .dblAbs m x => packType2a .true_ (.dbl1 .abs m x)
  | .dblPass m x => packType2a .true_ (.dbl1 .pass m x)
  | .dblFix rn x => packType2a .true_ (.dblToInt false rn x)
  | .dblFixBy rn x ry => packType2a .true_ (.dblToIntBy false rn x ry)
  | .dblTrunc rn x => packType2a .true_ (.dblToInt true rn x)
  | .dblTruncBy rn x ry => packType2a .true_ (.dblToIntBy true rn x ry)
  | .dblFloat m rx => packType2a .true_ (.dblFloat m rx)
  | .dblFloatBy m rx ry => packType2a .true_ (.dblFloatBy m rx ry)
  | .dblFromFlt m rx => packType2a .true_ (.dblFromFlt m rx)
  | .fltFromDbl rn x => packType2a .true_ (.fltFromDbl rn x)
  | .dblScalb m x ry => packType2a .true_ (.dblScalb m x ry)
  | .fixAddSub ra rs rx ry => packType2a .true_ (.fixAddSub ra rs rx ry)
  | .fltAddSub ra rs rx ry => packType2a .true_ (.fltAddSub ra rs rx ry)
  | .mulRn mod rn rx ry => packType2a .true_ (.mulRn .clear mod rn rx ry)
  | .mulMrf mod rx ry => packType2a .true_ (.mulMr false .clear mod rx ry)
  | .mulMrb mod rx ry => packType2a .true_ (.mulMr true .clear mod rx ry)
  | .macAddRnMrf mod rn rx ry => packType2a .true_ (.mulRn (.add false) mod rn rx ry)
  | .macAddRnMrb mod rn rx ry => packType2a .true_ (.mulRn (.add true) mod rn rx ry)
  | .macAddMrf mod rx ry => packType2a .true_ (.mulMr false .add mod rx ry)
  | .macAddMrb mod rx ry => packType2a .true_ (.mulMr true .add mod rx ry)
  | .macSubRnMrf mod rn rx ry => packType2a .true_ (.mulRn (.sub false) mod rn rx ry)
  | .macSubRnMrb mod rn rx ry => packType2a .true_ (.mulRn (.sub true) mod rn rx ry)
  | .macSubMrf mod rx ry => packType2a .true_ (.mulMr false .sub mod rx ry)
  | .macSubMrb mod rx ry => packType2a .true_ (.mulMr true .sub mod rx ry)
  | .rndRnMrf sgn rn => packType2a .true_ (.rndRn false sgn rn)
  | .rndRnMrb sgn rn => packType2a .true_ (.rndRn true sgn rn)
  | .rndMrf sgn => packType2a .true_ (.rndMr false sgn)
  | .rndMrb sgn => packType2a .true_ (.rndMr true sgn)
  | .satRnMrf frac sgn rn => packType2a .true_ (.satRn false frac sgn rn)
  | .satRnMrb frac sgn rn => packType2a .true_ (.satRn true frac sgn rn)
  | .satMrf frac sgn => packType2a .true_ (.satMr false frac sgn)
  | .satMrb frac sgn => packType2a .true_ (.satMr true frac sgn)
  | .clrMrf => packType2a .true_ (.clrMr false)
  | .clrMrb => packType2a .true_ (.clrMr true)
  | .readMr0f rn => packType2a .true_ (.readMr .mr0f rn)
  | .writeMr0f rn => packType2a .true_ (.writeMr .mr0f rn)
  | .readMr1f rn => packType2a .true_ (.readMr .mr1f rn)
  | .writeMr1f rn => packType2a .true_ (.writeMr .mr1f rn)
  | .readMr2f rn => packType2a .true_ (.readMr .mr2f rn)
  | .writeMr2f rn => packType2a .true_ (.writeMr .mr2f rn)
  | .readMr0b rn => packType2a .true_ (.readMr .mr0b rn)
  | .writeMr0b rn => packType2a .true_ (.writeMr .mr0b rn)
  | .readMr1b rn => packType2a .true_ (.readMr .mr1b rn)
  | .writeMr1b rn => packType2a .true_ (.writeMr .mr1b rn)
  | .readMr2b rn => packType2a .true_ (.readMr .mr2b rn)
  | .writeMr2b rn => packType2a .true_ (.writeMr .mr2b rn)
  | .fltMul rn rx ry => packType2a .true_ (.fltMul rn rx ry)
  | .dblMul m x z => packType2a .true_ (.dblMul m x z)
  | .dblMulFlt m x ry => packType2a .true_ (.dblMulFlt m x ry)
  | .dblMulFlt2 m rx ry => packType2a .true_ (.dblMulFlt2 m rx ry)
  | .lshift rn rx ry => packType2a .true_ (.shift .lshift rn rx ry)
  | .lshiftImm rn rx data => packType6 .true_ (.shift .lshift rn rx data)
  | .orLshift rn rx ry => packType2a .true_ (.shift .orLshift rn rx ry)
  | .orLshiftImm rn rx data => packType6 .true_ (.shift .orLshift rn rx data)
  | .ashift rn rx ry => packType2a .true_ (.shift .ashift rn rx ry)
  | .ashiftImm rn rx data => packType6 .true_ (.shift .ashift rn rx data)
  | .orAshift rn rx ry => packType2a .true_ (.shift .orAshift rn rx ry)
  | .orAshiftImm rn rx data => packType6 .true_ (.shift .orAshift rn rx data)
  | .rot rn rx ry => packType2a .true_ (.shift .rot rn rx ry)
  | .rotImm rn rx data => packType6 .true_ (.shift .rot rn rx data)
  | .bset rn rx ry => packType2a .true_ (.shift .bset rn rx ry)
  | .bsetImm rn rx data => packType6 .true_ (.shift .bset rn rx data)
  | .bclr rn rx ry => packType2a .true_ (.shift .bclr rn rx ry)
  | .bclrImm rn rx data => packType6 .true_ (.shift .bclr rn rx data)
  | .btgl rn rx ry => packType2a .true_ (.shift .btgl rn rx ry)
  | .btglImm rn rx data => packType6 .true_ (.shift .btgl rn rx data)
  | .btst rx ry => packType2a .true_ (.btst rx ry)
  | .btstImm rx data => packType6 .true_ (.btst rx data)
  | .fdep rn rx ry => packType2a .true_ (.fieldOp .fdep rn rx ry)
  | .fdepImm rn rx bit6 len6 => packType6 .true_ (.fieldOp .fdep rn rx bit6 len6)
  | .orFdep rn rx ry => packType2a .true_ (.fieldOp .orFdep rn rx ry)
  | .orFdepImm rn rx bit6 len6 => packType6 .true_ (.fieldOp .orFdep rn rx bit6 len6)
  | .fdepSE rn rx ry => packType2a .true_ (.fieldOp .fdepSE rn rx ry)
  | .fdepSEImm rn rx bit6 len6 => packType6 .true_ (.fieldOp .fdepSE rn rx bit6 len6)
  | .orFdepSE rn rx ry => packType2a .true_ (.fieldOp .orFdepSE rn rx ry)
  | .orFdepSEImm rn rx bit6 len6 => packType6 .true_ (.fieldOp .orFdepSE rn rx bit6 len6)
  | .fext rn rx ry => packType2a .true_ (.fieldOp .fext rn rx ry)
  | .fextImm rn rx bit6 len6 => packType6 .true_ (.fieldOp .fext rn rx bit6 len6)
  | .fextSE rn rx ry => packType2a .true_ (.fieldOp .fextSE rn rx ry)
  | .fextSEImm rn rx bit6 len6 => packType6 .true_ (.fieldOp .fextSE rn rx bit6 len6)
  | .exp rn rx => packType2a .true_ (.shift1 .exp rn rx)
  | .expEx rn rx => packType2a .true_ (.shift1 .expEx rn rx)
  | .leftz rn rx => packType2a .true_ (.shift1 .leftz rn rx)
  | .lefto rn rx => packType2a .true_ (.shift1 .lefto rn rx)
  | .fpack rn rx => packType2a .true_ (.shift1 .fpack rn rx)
  | .funpack rn rx => packType2a .true_ (.shift1 .funpack rn rx)
  | .bitdep rx ry => packType2a .true_ (.bitdep rx ry)
  | .bitdepImm rx len => packType6 .true_ (.bitdep rx len)
  | .bitext rn rx => packType2a .true_ (.bitext false rn rx)
  | .bitextImm rn len => packType6 .true_ (.bitext false rn len)
  | .bitextNU rn rx => packType2a .true_ (.bitext true rn rx)
  | .bitextNUImm rn len => packType6 .true_ (.bitext true rn len)
  | .setBffwrp rn => packType2a .true_ (.setBffwrp rn)
  | .setBffwrpImm data => packType6 .true_ (.setBffwrp data)
  | .getBffwrp rn => packType2a .true_ (.getBffwrp rn)
  | .mfMulAdd rm ra q => packType2a .true_ (.mfFix .mul .add rm ra q)
  | .mfMulSub rm ra q => packType2a .true_ (.mfFix .mul .sub rm ra q)
  | .mfMulAvg rm ra q => packType2a .true_ (.mfFix .mul .avg rm ra q)
  | .mfMacAddMrfAdd ra q => packType2a .true_ (.mfMac false .add ra q)
  | .mfMacAddMrfSub ra q => packType2a .true_ (.mfMac false .sub ra q)
  | .mfMacAddMrfAvg ra q => packType2a .true_ (.mfMac false .avg ra q)
  | .mfMacAddRmAdd rm ra q => packType2a .true_ (.mfFix .addRm .add rm ra q)
  | .mfMacAddRmSub rm ra q => packType2a .true_ (.mfFix .addRm .sub rm ra q)
  | .mfMacAddRmAvg rm ra q => packType2a .true_ (.mfFix .addRm .avg rm ra q)
  | .mfMacSubMrfAdd ra q => packType2a .true_ (.mfMac true .add ra q)
  | .mfMacSubMrfSub ra q => packType2a .true_ (.mfMac true .sub ra q)
  | .mfMacSubMrfAvg ra q => packType2a .true_ (.mfMac true .avg ra q)
  | .mfMacSubRmAdd rm ra q => packType2a .true_ (.mfFix .subRm .add rm ra q)
  | .mfMacSubRmSub rm ra q => packType2a .true_ (.mfFix .subRm .sub rm ra q)
  | .mfMacSubRmAvg rm ra q => packType2a .true_ (.mfFix .subRm .avg rm ra q)
  | .mfFltAdd rm ra q => packType2a .true_ (.mfFlt .add rm ra q)
  | .mfFltSub rm ra q => packType2a .true_ (.mfFlt .sub rm ra q)
  | .mfFltFloatBy rm ra q => packType2a .true_ (.mfFlt .floatBy rm ra q)
  | .mfFltFixBy rm ra q => packType2a .true_ (.mfFlt .fixBy rm ra q)
  | .mfFltAvg rm ra q => packType2a .true_ (.mfFlt .avg rm ra q)
  | .mfFltAbs rm ra q => packType2a .true_ (.mfFlt .abs rm ra q)
  | .mfFltMax rm ra q => packType2a .true_ (.mfFlt .max rm ra q)
  | .mfFltMin rm ra q => packType2a .true_ (.mfFlt .min rm ra q)
  | .mfFixAddSub rm ra rs q => packType2a .true_ (.mfFixAddSub rm ra rs q)
  | .mfFltAddSub rm ra rs q => packType2a .true_ (.mfFltAddSub rm ra rs q)
  | .mfDblAdd m a q => packType2a .true_ (.mfDbl false m a q)
  | .mfDblSub m a q => packType2a .true_ (.mfDbl true m a q)
  | .shortAdd rn rx => .word16 (packShort .add rn rx)
  | .shortSub rn rx => .word16 (packShort .sub rn rx)
  | .shortPass rn rx => .word16 (packShort .pass rn rx)
  | .shortComp rn rx => .word16 (packShort .comp rn rx)
  | .shortNot rn rx => .word16 (packShort .not rn rx)
  | .shortInc rn rx => .word16 (packShort .inc rn rx)
  | .shortDec rn rx => .word16 (packShort .dec rn rx)
  | .shortMul rn rx => .word16 (packShort .mul rn rx)
  | .shortFltAdd rn rx => .word16 (packShort .fltAdd rn rx)
  | .shortFltSub rn rx => .word16 (packShort .fltSub rn rx)
  | .shortFloat rn rx => .word16 (packShort .float rn rx)
  | .shortFltComp rn rx => .word16 (packShort .fltComp rn rx)
  | .shortAnd rn rx => .word16 (packShort .and rn rx)
  | .shortOr rn rx => .word16 (packShort .or rn rx)
  | .shortXor rn rx => .word16 (packShort .xor rn rx)
  | .shortFltMul rn rx => .word16 (packShort .fltMul rn rx)

/-- The instruction that encoded words stand for. -/
noncomputable def decodeCode : Code → Except Reject Instr
  | .word48 w => decode w
  | .word32 w => match visa32? w with
    | some r => r
    | none => .error .noType
  | .word16 p => match visa16? p with
    | some r => r
    | none => .error .noType

/-! ### The host's view of one opcode-table word -/

/-- The 23-bit words, with zero operands, of immediate-shift rows that also read as a computation (log 10). -/
def shiftRowWord (f : BitVec 23) : Bool :=
  [0x000000#23, 0x160000#23, 0x190000#23, 0x1B0000#23, 0x1D0000#23, 0x1F0000#23].contains f

/-- The 48-bit word that a 23-bit table word stands for: Type 2a with condition TRUE when the field is a computation,
Type 6a without memory when it is an immediate shift (log 10). -/
def wrapField (f : BitVec 23) : Word48 :=
  match shiftRowWord f, decodeCompute f with
  | false, .ok _ => place 48 40 1#5 ||| packCond .true_ f
  | _, _ => place 48 40 2#5 ||| packCond .true_ f

/-- The parcel after the 32-bit word of an opcode-table row: zeros, but after the short RFRAME the 16-bit NOP, since a parcel of
zeros would make it the 48-bit one (log 7). -/
def afterWord (w : BitVec 32) : Parcel := if w = 0x1A040000#32 then 0x0001#16 else 0#16

/-- The instruction the decoder reads from the bits of an opcode-table row, numbered as the table numbers them: a VISA
row's first parcel is the most significant one; a 24-bit row is a 23-bit compute or shift-immediate field (log 10). -/
noncomputable def decodeTableWord (nbits w : Nat) : Option Instr :=
  if nbits ≤ 16 then
    match decodeVisa (BitVec.ofNat 16 w) 0#16 0#16 with
    | .ok (i, _) => some i
    | .error _ => none
  else if nbits ≤ 24 then
    match decode (wrapField (BitVec.ofNat 23 w)) with
    | .ok i => some i
    | .error _ => none
  else if nbits ≤ 32 then
    match decodeVisa (BitVec.ofNat 16 (w / 65536)) (BitVec.ofNat 16 w) (afterWord (BitVec.ofNat 32 w)) with
    | .ok (i, _) => some i
    | .error _ => none
  else
    match decode (BitVec.ofNat 48 w) with
    | .ok i => some i
    | .error _ => none

end Sys2Proof
end

