-- ==== Sys2Proof/Machine/Fetch.lean ====
section
/-! DEFINITION. Fetching an instruction's bytes (spec/10_state.md R60, spec/20_memory.md R258, R260, R325, R339, R347). -/

namespace Sys2Proof.Machine

open Sys2Proof Config

/-- What stands at an instruction address: one ISA word, or the first three parcels of VISA code (R255, R260). -/
inductive Fetched
  | isa (w : Word48)
  | visa (p0 p1 p2 : Parcel)
  deriving DecidableEq, Repr

/-- What the fetch of a byte meets: zeros while its block sleeps or wakes (R325), zeros that its line came with into the
instruction cache, or comes with from the return-zero range of the prefetch buffer (R367, R378); else memory. -/
def State.codeZero (s : State) (r : Config.Region) (p : Nat) : Bool := !s.blockReads r || s.zeroByte .i r false p

/-- `n` bytes of code at physical byte `p` of a region, little-endian (R257). -/
def State.readCode (s : State) (r : Config.Region) (p n : Nat) : Nat := s.mem.readSome (s.codeZero r) p n

/-- The parcel at a short-word address; 0 beyond the populated range, which only the unused tail of a short last
instruction reaches. An ISA word and the parcels are read from one byte memory, so the parcel at the lowest address holds
bits 15:0 of the normal word there (N20: R260 gives no relation; DESIGN CHOICE, log 65). -/
def State.parcel (s : State) (a : Nat) : Parcel :=
  match locate a with
  | some l => if l.region.space = .sw then BitVec.ofNat 16 (s.readCode l.region (l.region.phys + 2 * l.off) 2) else 0#16
  | none => 0#16

/-- What stands at an instruction address: normal-word space holds ISA words of six bytes, short-word space VISA parcels;
a core memory-mapped register there is read as a word of any value (R255, R258, R260, R339, R347), and no other space
holds code. -/
def State.fetch (s : State) (a : IAddr) : Option Fetched :=
  if inCmmrRange a.toNat then some (.isa ((freeLong (s.slot 112)).truncate 48))
  else
    match locate a.toNat with
    | none => none
    | some l =>
      match l.region.space with
      | .nw =>
        if 6 * l.off + 6 ≤ l.region.bytes then
          some (.isa (BitVec.ofNat 48 (s.readCode l.region (l.region.phys + 6 * l.off) 6)))
        else none
      | .sw => some (.visa (s.parcel a.toNat) (s.parcel (a.toNat + 1)) (s.parcel (a.toNat + 2)))
      | _ => none

/-- The length of what was fetched, in units of the address space (R60). -/
def Fetched.len : Fetched → Nat
  | .isa _ => 1
  | .visa p0 p1 p2 => visaLen p0 p1 p2

/-- Its bytes. -/
def Fetched.bytes : Fetched → Nat
  | .isa _ => 6
  | .visa p0 p1 p2 => 2 * visaLen p0 p1 p2

/-- The instruction that was fetched (R402). -/
noncomputable def Fetched.decode : Fetched → Except Reject Instr
  | .isa w => Sys2Proof.decode w
  | .visa p0 p1 p2 => (decodeVisa p0 p1 p2).map Prod.fst

/-- The region and first physical byte of the instruction at `a`. -/
def codeAt (a : IAddr) : Option (Region × Nat) :=
  (locate a.toNat).map fun l => (l.region, l.region.phys + (if l.region.space = .nw then 6 else 2) * l.off)

/-- The length of the instruction at `a`; the full length where nothing is populated. -/
def State.lenAt (s : State) (a : IAddr) : Nat :=
  match s.fetch a with
  | some f => f.len
  | none => 1

/-- The address after the instruction at `a`, modulo 2^24 (R60, D65). -/
def State.succ (s : State) (a : IAddr) : IAddr := a + BitVec.ofNat 24 (s.lenAt a)

end Sys2Proof.Machine
end

