-- ==== Sys2Proof/Machine/Ops.lean ====
section
/-! DEFINITION. The shared operations of the sequencer: stacks, interrupt entry and return, branches, loops
(spec/10_state.md R63 to R74, spec/41_group2.md R562 to R593, spec/60_exceptions.md R1034 to R1049). -/

namespace Sys2Proof.Machine

open Sys2Proof

/-- Stop with a refusal. -/
def refuse {α : Type} (r : Refusal) : Res α := .error (.refuse r)

/-- Stop with a refusal if `b`. -/
def refuseIf (b : Bool) (r : Refusal) : Res Unit := if b then refuse r else .ok ()

/-! ### Stacks -/

/-- Push of the PC stack; SOVFI when it leaves 29 or more entries (R63 to R66). -/
def State.pushPc (s : State) (w : Word) : State :=
  let q := if 30 ≤ s.seq.pcStk.length then { s.seq with pcOv := true } else { s.seq with pcStk := w :: s.seq.pcStk }
  { s with seq := q }.raiseIf (decide (29 ≤ q.pcstkp)) .sovfi

/-- Pop of the PC stack (R575, U12 for an empty one). -/
def State.popPc (s : State) : Res State :=
  if s.seq.pcStk.isEmpty && !s.seq.pcOv then refuse .emptyStack else .ok { s with seq := s.seq.dropPc }

/-- Push of both loop stacks with a loop address: the counter is LCNTR's (R67, R70). A seventh push overflows and leaves
the top entry a free value (R71, log 22). `r` tells the entry of a DO UNTIL from that of PUSH LOOP. -/
def State.pushLoop (s : State) (laddr : Word) (r : Restored := .whole) : State :=
  match s.seq.loopStk, s.seq.lcntrs with
  | [], [] => { s with seq := { s.seq with loopOv := true } }.raise .sovfi
  | _ :: t, [] =>
    { s with seq := { s.seq with
        loopOv := true
        loopStk := { laddr := s.freeWord 17, count := s.freeWord 18, start := s.freeWord 18, restored := r } :: t } }.raise .sovfi
  | l, c :: above =>
    { s with seq := { s.seq with loopStk := { laddr := laddr, count := c, start := c, restored := r } :: l, lcntrs := above } }

/-- Pop of both loop stacks (R67, U12 for empty ones). -/
def State.popLoop (s : State) : Res State :=
  if s.seq.loopStk.isEmpty then refuse .emptyStack else .ok { s with seq := s.seq.dropLoop }

/-- Push of the status stack and the clearing of MODE1 through MMASK (R72, R665, R1055). A sixteenth push overflows and
leaves the top entry a free value (R74, log 22). -/
def State.pushSts (s : State) : State :=
  let e : StsEntry := { mode1 := s.sys.mode1, astatx := s.astatx, astaty := s.sys.astaty }
  let s' := { s with sys := { s.sys with mode1 := s.sys.mode1 &&& ~~~s.sys.mmask } }
  if 15 ≤ s.seq.stsStk.length then
    let lost : StsEntry := { mode1 := s.freeWord 19, astatx := s.freeWord 20, astaty := s.freeWord 21 }
    { s' with seq := { s'.seq with stsOv := true, stsStk := lost :: s'.seq.stsStk.tail } }.raise .sovfi
  else { s' with seq := { s'.seq with stsStk := e :: s'.seq.stsStk } }

/-- Pop of the status stack: MODE1, ASTATX and ASTATY come back, SF does not (R72, R86, U12 for an empty one). -/
def State.popSts (s : State) : Res State :=
  match s.seq.stsStk with
  | [] => refuse .emptyStack
  | e :: t =>
    let s' := { s with seq := { s.seq with stsStk := t, stsOv := false } }
    .ok (((s'.writeSys .mode1 e.mode1).writeSys .astatx e.astatx).writeSys .astaty e.astaty)

/-! ### Interrupt entry and return -/

/-- The lowest-numbered bit set (R1046). -/
def lowestBit (w : Word) : Option Nat := (List.range 32).find? fun k => w.getLsbD k

/-- IVT_BASE (R1034, U35). -/
def State.ivtBase (s : State) : Res IAddr :=
  match s.gov.sysctl.getLsbD 3, s.gov.sysctl.getLsbD 2 with
  | false, false => .ok Config.ivtBaseL2
  | false, true => .ok Config.ivtBaseL1
  | true, false => .ok Config.ivtBaseL3
  | true, true => refuse .ivtSelect

/-- A PC-stack word: the return address with ISCALL set, and ISINT for an interrupt entry (R63, R565). -/
def pcEntry (a : IAddr) (isInt : Bool) : Word := a.setWidth 32 ||| flagBit 24 true ||| flagBit 25 isInt

/-- A pending write of PCSTKP takes effect: the newest entries go, or free ones come; none on an overflowed stack (R65). That
the overflow is judged here, when the write takes effect and after the pushes and pops of the instruction in between, and not
when the write is made, and that 31 sets the overflow mark, is a DESIGN CHOICE (log 22). -/
def State.settlePcstkp (s : State) (w : Option (BitVec 5)) : State :=
  match w with
  | none => s
  | some v =>
    if s.seq.pcOv then s
    else
      let n := min v.toNat 30
      let old := s.seq.pcStk
      let stk := if n ≤ old.length then old.drop (old.length - n) else List.replicate (n - old.length) (s.freeWord 22) ++ old
      { s with seq := { s.seq with pcStk := stk, pcOv := decide (v.toNat = 31) } }

/-- Taking interrupt `k` (R1047): the pushes of the PC and status stacks, MODE1 through MMASK, SINEST for a self-nesting
SECI (R1049, D54), the latch and IMASKP bits, the vector address. After a parity error of a core access the return address
is any value, and a delayed branch under way is lost (R1081, U25). -/
def State.enter (s : State) (k : Nat) : Res State :=
  match s.ivtBase with
  | .error e => .error e
  | .ok base =>
    let s1 := (s.settlePcstkp s.seq.pcStkpDue).settlePcstkp s.seq.pcStkpNew
    let ret := if k = 3 && s.sys.parity then (s.freeWord 90).truncate 24 else s.seq.pc
    let s2 := (s1.pushPc (pcEntry ret true)).pushSts
    let mode1 := if k = 15 && s.sys.mode2.getLsbD 0 then s2.sys.mode1 ||| flagBit 30 true else s2.sys.mode1
    let v := base + BitVec.ofNat 24 (4 * k)
    .ok { s2 with
      seq := { s2.seq with
        pc := v, npc := v, idle := false, vectorDue := true, pcStkpDue := none, pcStkpNew := none, branches := [], noIrq := 0 }
      sys := { s2.sys with
        parity := s2.sys.parity && k != 3, mode1 := mode1, mode1Act := mode1, condx := none, condy := none
        irptl := s2.sys.irptl &&& ~~~(1#32 <<< k), imaskp := s2.sys.imaskp ||| (1#32 <<< k) } }

/-- Clear the latch and IMASKP bits of the interrupt in service (R567, R575). -/
def State.endService (s : State) (k : Nat) (latch : Bool) : State :=
  { s with sys := { s.sys with
      imaskp := s.sys.imaskp &&& ~~~(1#32 <<< k)
      irptl := if latch then s.sys.irptl &&& ~~~(1#32 <<< k) else s.sys.irptl } }

/-- What an RTI does beside the return (R575, R1048, R1049 d, D59): the IMASKP and latch bits of the interrupt in
service, BRKSTAT after the breakpoint interrupt, the pop of the status stack. With no interrupt in service it clears
nothing and pops the status stack, as D29 has it for JUMP (CI) (DESIGN CHOICE, log 55). -/
def State.leaveIsr (s : State) : Res State :=
  match lowestBit s.sys.imaskp with
  | none => s.popSts
  | some k =>
    if k = 15 && s.mode1stk.getLsbD 30 then s.popSts
    else
      let s1 := s.endService k (!(k = 15 && s.sys.mode2.getLsbD 0))
      let s2 := if k = 12 then { s1 with mmr := { s1.mmr with brkstat := 0#32 } } else s1
      s2.popSts

/-- The (CI) actions of a jump (R567, D29). -/
def State.clearInterrupt (s : State) : Res State :=
  match lowestBit s.sys.imaskp with
  | none => s.popSts
  | some k => (s.endService k true).popSts

/-! ### Branches (R562 to R568) -/

/-- Unit of the instruction address space at `a`: a 48-bit instruction spans 1 or 3 addresses (R60). -/
def unitAt (a : IAddr) : Nat := fullLen a

/-- The last address of a loop (R67). -/
def LoopEntry.last (e : LoopEntry) : IAddr := e.laddr.truncate 24

/-- A counter loop, by its termination code (R590). -/
def LoopEntry.isCounter (e : LoopEntry) : Bool := loopTerm e.laddr = 0b01111#5

/-- An arithmetic loop, by its termination code (R590). -/
def LoopEntry.isArith (e : LoopEntry) : Bool := !e.isCounter && loopTerm e.laddr != 0b11111#5

/-- The executing instruction is one of the last `n` full-length instructions of the loop: the last one but `n - 1` or a later
one. -/
def Seq.amongLast (q : Seq) (e : LoopEntry) (n : Nat) : Bool :=
  decide (q.pc.toNat ≤ e.last.toNat ∧ e.last.toNat ≤ q.pc.toNat + (n - 1) * unitAt q.pc)

/-- A counter loop under way that ends two addresses before the arithmetic loop around it, and whose last three instructions hold
the current one, be it an instruction of a loop inside it (R217, R1037). -/
def Seq.nearNestedEnd (q : Seq) : List LoopEntry → Bool
  | e :: o :: t =>
    (e.isCounter && q.amongLast e 3 && o.isArith && decide (e.last.toNat + 2 * unitAt q.pc = o.last.toNat)) ||
      Seq.nearNestedEnd q (o :: t)
  | _ => false

/-- The restricted sequences of R217 and R1037 that a branch instruction at the current address makes: with (DB) among the
last five of any arithmetic loop under way, or near the end of any counter loop that ends two addresses before the arithmetic
loop around it. -/
def Seq.rinseq (q : Seq) (db : Bool) : Bool :=
  (db && q.loopStk.any fun e => e.isArith && q.amongLast e 5) || q.nearNestedEnd q.loopStk

/-- What every branch instruction does, taken or not: the restricted-sequence interrupt, after which the loop registers
are any value (R1037, U15), and, with (DB), the window in which no interrupt is accepted (R1051). -/
def State.atBranch (s : State) (db : Bool) : State :=
  let r := s.seq.rinseq db
  let s' := s.raiseIf r .rinseqi
  { s' with
    seq := { s'.seq with noIrq := if db then 3 else s'.seq.noIrq }
    bdry := { s'.bdry with loopFree := s'.bdry.loopFree || r } }

/-- A jump, with or without (CI). -/
def BranchSort.isJump : BranchSort → Bool
  | .jump | .jumpCi => true
  | .call | .ret => false

/-- A taken branch may stand here: not within twelve instructions after a store to a branch target buffer register
(R1138), and not in a delay slot, but for a delayed jump in the first slot of a delayed jump (R568, U11). -/
def State.branchAllowed (s : State) (db : Bool) (sort : BranchSort) : Res Unit :=
  if s.seq.btbHold ≠ 0 then refuse .btbWindow
  else
    match s.seq.branches with
    | [] => .ok ()
    | [b] => refuseIf (!(db && sort.isJump && b.sort.isJump && b.slots == 2)) .delaySlot
    | _ => refuse .delaySlot

/-- The transfer of control of a taken branch, at once or after two delay slots (R564). -/
def State.goto (s : State) (t : IAddr) (db : Bool) (sort : BranchSort) : State :=
  if db then
    { s with seq := { s.seq with branches := s.seq.branches ++ [{ target := t, slots := 3, sort := sort }] }
             bdry := { s.bdry with taken := true } }
  else { s with seq := { s.seq with npc := t }, bdry := { s.bdry with taken := true } }

/-- The return address of a CALL (R565): after it, or after its two delay slots. -/
def State.callReturn (s : State) (db : Bool) : IAddr :=
  if db then s.succ (s.succ s.seq.npc) else s.seq.npc

/-- A taken jump (R566, R567, R577). A JUMP (LA) out of an inner loop to the last instruction of an arithmetic loop around it,
which R566 forbids without saying what it does, runs by these rules (DESIGN CHOICE, log 32). -/
def State.takeJump (s : State) (t : IAddr) (db la ci : Bool) : Res State :=
  match s.branchAllowed db .jump with
  | .error e => .error e
  | .ok () =>
    match (if la then s.popPc.bind State.popLoop else if ci then s.clearInterrupt else .ok s) with
    | .error e => .error e
    | .ok s1 =>
      .ok ({ s1 with bdry := { s1.bdry with mode1Now := ci && !db } }.goto t db (if ci then .jumpCi else .jump))

/-- The condition that ends an arithmetic loop: on both elements in SIMD mode (R585, R590). -/
def State.loopCond (s : State) (term : BitVec 5) : Bool :=
  let c := condOf term
  s.cond false c && (!s.simd || s.cond true c)

/-- The condition became true during the CALL. -/
def CallMark.hasTurned : CallMark → Bool
  | .turned _ => true
  | .none | .during _ => false

/-- A CALL by an arithmetic loop: the arithmetic loops around it whose condition was false when it was made are watched until it
returns. `inner`: an arithmetic loop lies inside these (R590, U17). -/
def markCalls (depth : Nat) (off : LoopEntry → Bool) : Bool → List LoopEntry → List LoopEntry
  | _, [] => []
  | inner, e :: t =>
    (if inner && e.isArith && e.call == .none && off e then { e with call := .during depth } else e) ::
      markCalls depth off (inner || e.isArith) t

/-- A watched loop one instruction on: its condition has become true, or false again, or the CALL has returned, delay slots
included (R590, U17). -/
def State.watchCall (s : State) (e : LoopEntry) : LoopEntry :=
  match e.call with
  | .none => e
  | .during d | .turned d =>
    { e with call :=
        if s.loopCond (loopTerm e.laddr) then .turned d
        else if decide (d < s.seq.pcstkp) || !s.seq.branches.isEmpty then .during d else .none }

/-- The watched loops after the instruction executed from `s0` to `s`: a CALL it took starts the watch, with the conditions as
they were before the instruction (R590, U17). -/
def State.passCalls (s0 s : State) : State :=
  let l := if s.bdry.called then markCalls s0.seq.pcstkp (fun e => !s0.loopCond (loopTerm e.laddr)) false s.seq.loopStk
    else s.seq.loopStk
  { s with seq := { s.seq with loopStk := l.map s.watchCall } }

/-- A taken CALL (R565). -/
def State.takeCall (s : State) (t : IAddr) (db : Bool) : Res State :=
  match s.branchAllowed db .call with
  | .error e => .error e
  | .ok () =>
    .ok (({ s with bdry := { s.bdry with called := true } }.pushPc (pcEntry (s.callReturn db) false)).goto t db .call)

/-- A taken RTS or RTI (R575). -/
def State.takeReturn (s : State) (rti db : Bool) : Res State :=
  match s.branchAllowed db .ret with
  | .error e => .error e
  | .ok () =>
    let t : IAddr := (s.pcstk s.seq).truncate 24
    match s.popPc with
    | .error e => .error e
    | .ok s1 =>
      match (if rti then s1.leaveIsr else .ok s1) with
      | .error e => .error e
      | .ok s2 => .ok ({ s2 with bdry := { s2.bdry with mode1Now := rti && !db } }.goto t db .ret)

/-- A PC-relative target (R563). -/
def State.pcRel {n : Nat} (s : State) (off : BitVec n) : IAddr := s.seq.pc + off.signExtend 24

/-- An indirect target, I[8 + ic] + M[8 + md] (R563). -/
def State.indirect (s : State) (md ic : DagNo) : IAddr :=
  (s.ireg (dagNo true ic) + s.mreg (dagNo true md)).truncate 24

/-! ### Loops (R583 to R593) -/

/-- The loop type code of R67: 0 arithmetic, 1 forever, 2 counter in E2-active mode, 3 counter in F1-active mode
(the codes are a DESIGN CHOICE, log 21). -/
def loopType (term : BitVec 5) (f1 : Bool) : BitVec 3 :=
  if term = 0b01111#5 then (if f1 then 3#3 else 2#3) else if term = 0b11111#5 then 1#3 else 0#3

/-- The PC-stack entry of a loop: its top address with ISCALL set, the loop mark in bit 26 and the loop type in bits 29:27
(R63, R590; the places are a DESIGN CHOICE, log 21). -/
def loopPcEntry (top : IAddr) (type : BitVec 3) : Word :=
  pcEntry top false ||| flagBit 26 true ||| (type.setWidth 32 <<< 27)

/-- A loop that would run fewer than eleven instructions in all is E2-active whatever its opcode (R591). -/
def shortLoop (top last : IAddr) (count : Word) : Bool :=
  let body := (last.toNat - top.toNat) / unitAt top + 1
  decide (count ≠ 0#32 ∧ body * count.toNat < 11)

/-- An enclosing loop may not end at the same address, an arithmetic one not within two addresses (R592). In short-word
space two addresses are two 48-bit instructions, six short words, since the last eleven instructions of a loop are
uncompressed (R593); that unit is a DESIGN CHOICE (log 56). -/
def Seq.nestingAllowed (q : Seq) (last : IAddr) : Bool :=
  match q.loopStk with
  | [] => true
  | o :: _ =>
    o.last != last && !(o.isArith && decide (last.toNat ≤ o.last.toNat ∧ o.last.toNat < last.toNat + 2 * unitAt q.pc))

/-- `StartLoop` of R590. MODE2.SLOWLOOP is read here and not again while the loop runs (R194, log 54). -/
def State.startLoop (s : State) (last : IAddr) (term : BitVec 5) (f1 : Bool) : Res State :=
  match refuseIf (!s.seq.branches.isEmpty) .delaySlot, refuseIf (!s.seq.nestingAllowed last) .loopEnd with
  | .error e, _ => .error e
  | _, .error e => .error e
  | .ok (), .ok () =>
    let type := loopType term (f1 && !s.sys.mode2.getLsbD 7 && !shortLoop s.seq.npc last s.lcntr)
    .ok ((s.pushPc (loopPcEntry s.seq.npc type)).pushLoop (type ++ term ++ last))

/-- The condition of an arithmetic loop is on a multiplier flag and was false one instruction before (R590). -/
def State.flagLate (s : State) (term : BitVec 5) : Bool :=
  match condOf term with
  | .mv | .ms | .notMv | .notMs =>
    !{ s with sys := { s.sys with
        astatx := s.sys.astatxWas, astaty := s.sys.astatyWas, condx := none, condy := none } }.loopCond term
  | _ => false

/-- The check of loop number `k` from the innermost, an arithmetic one; `n`: how many more times its end executes once its
condition is true. A condition that a multiplier flag made true just before, or that became true during an inner loop's CALL, may
be missed once, by a free choice; the next check then ends the loop (R590, U17: n or n + 1 iterations). -/
def State.checkLoop (s : State) (k n : Nat) (e : LoopEntry) : LoopEntry :=
  let term := loopTerm e.laddr
  if e.missed then { e with exits := n, call := .none, missed := false }
  else if s.loopCond term then
    if (s.flagLate term || e.call.hasTurned) && Config.freeBit (s.slot (100 + k)) then { e with call := .none, missed := true }
    else { e with exits := n, call := .none }
  else e

/-- The instruction at the current address is where the innermost loop, an arithmetic one, tests its condition: the
third-last of a body of three or more, else the last (R590). -/
def Seq.atLoopCheck (q : Seq) (e : LoopEntry) : Bool :=
  match q.loopTop with
  | none => false
  | some top =>
    let u := unitAt q.pc
    if top.toNat + 2 * u ≤ e.last.toNat then decide (q.pc.toNat + 2 * u = e.last.toNat) else q.pc == e.last

/-- How many more times the last instruction of the innermost loop, an arithmetic one, executes once its condition is true:
the body of one instruction runs it three times in all, of two twice, of three or more once (R590). -/
def Seq.exitsOf (q : Seq) (e : LoopEntry) : Nat :=
  match q.loopTop with
  | none => 1
  | some top =>
    let n := (e.last.toNat - top.toNat) / unitAt q.pc + 1
    if n = 1 then 3 else if n = 2 then 2 else 1

/-- The check of the innermost loop (R590). -/
def State.checkInner (s : State) (e : LoopEntry) : LoopEntry :=
  if e.isArith && decide (e.exits = 0) && s.seq.atLoopCheck e then s.checkLoop 0 (s.seq.exitsOf e) e else e

/-- The check of an enclosing loop, number `k` from the innermost: its body holds a DO UNTIL and the inner loop, so it has
three instructions or more, and its check instruction may be the inner loop's last one (R590, R592). -/
def State.checkOuter (s : State) (k : Nat) (e : LoopEntry) : LoopEntry :=
  if e.isArith && decide (e.exits = 0) && decide (s.seq.pc.toNat + 2 * unitAt s.seq.pc = e.last.toNat) then
    s.checkLoop k 1 e
  else e

/-- Before an instruction executes: the arithmetic loops at their check instruction evaluate their conditions on the state
before it (R590). -/
def State.loopCheck (s : State) : State :=
  match s.seq.loopStk with
  | [] => s
  | e :: t => { s with seq := { s.seq with loopStk := s.checkInner e :: t.mapIdx fun k o => s.checkOuter (k + 1) o } }

/-- After the last instruction of the innermost loop executed and control would fall through: back to the top, or out of
the loop with the pops of the loop and PC stacks (R590). The way back is a change of flow, which may not follow a store to a
branch target buffer register (R1138). -/
def State.loopEnd (s : State) : Res State :=
  match s.seq.loopStk with
  | [] => .ok s
  | e :: t =>
    let top : IAddr := (s.pcstk s.seq).truncate 24
    let out : Res State := ({ s with seq := s.seq.dropLoop }).popPc
    let back (e' : LoopEntry) : Res State :=
      if s.seq.btbHold ≠ 0 then refuse .btbWindow
      else .ok { s with seq := { s.seq with loopStk := e' :: t, npc := top } }
    if e.isCounter then
      if e.count = 1#32 then out else back { e with count := e.count - 1#32 }
    else if e.isArith then
      match e.exits with
      | 0 => back e
      | 1 => out
      | n + 2 => back { e with exits := n + 1 }
    else back e

end Sys2Proof.Machine
end

