-- ==== Sys2Proof/Machine/Boundary.lean ====
section
/-! DEFINITION. What happens at an instruction boundary: acceptance of interrupts, the passing of time, breakpoints, level
interrupt sources, effect latencies, the end of loops and delayed branches, software reset (spec/60_exceptions.md R1035
to R1074, spec/61_debug_platform.md R1150 to R1154, spec/70_reset_and_hazards.md R1200 to R1224). -/

namespace Sys2Proof.Machine

open Sys2Proof

/-! ### Acceptance (R1045, R1046, R1051) -/

/-- The temporary mask (R1046), by NESTM and SNEN. -/
def Sys.tmask (y : Sys) (nestm snen : Bool) (k : Nat) : Bool :=
  match lowestBit y.imaskp with
  | none => false
  | some p =>
    if !nestm then true
    else if snen && p = 15 then decide (15 < k)
    else decide (p ≤ k)

/-- The masks a boundary goes by: IMASK, IRPTEN, NESTM and SNEN, each as it is or, by a free choice, as it was one boundary
ago (R1054). -/
structure Masks where
  imask : Word
  irpten : Bool
  nestm : Bool
  snen : Bool
  deriving DecidableEq, Repr

/-- What a boundary goes by: a value as it is, or as it was one boundary ago (R1054). -/
def State.either {α : Type} [DecidableEq α] (s : State) (k : Nat) (now was : α) : α :=
  if now = was then now else if Config.freeBit (s.slot k) then was else now

/-- The masks of this boundary (R1054). -/
def State.masks (s : State) : Masks :=
  { imask := s.either 92 s.sys.imask s.sys.imaskWas
    irpten := s.either 93 (s.sys.mode1.getLsbD 12) (s.sys.mode1Act.getLsbD 12)
    nestm := s.either 94 (s.sys.mode1.getLsbD 11) (s.sys.mode1Act.getLsbD 11)
    snen := s.either 95 (s.sys.mode2.getLsbD 0) (s.sys.mode2Was.getLsbD 0) }

/-- The interrupt to take under some masks among those latched for a boundary or longer (R1045, R1052): EMUI and RSTI never
latch (D4, R1062). -/
def Sys.accepted (y : Sys) (m : Masks) : Option Nat :=
  let w := y.irptl &&& y.irptlSeen
  if w ≠ 0#32 ∧ m.irpten = true then
    (List.range 32).find? fun k => w.getLsbD k && m.imask.getLsbD k && !y.tmask m.nestm m.snen k
  else none

/-- `interruptible_here` (R1051): not in the slots of a delayed branch, not before the first instruction of a service
routine. -/
def Seq.interruptible (q : Seq) : Bool := q.branches.isEmpty && q.noIrq == 0 && !q.vectorDue

/-- The interrupt taken at this boundary. That of a parity error may be taken where no other can (R1051, R1081). -/
def State.accept (s : State) : Option Nat :=
  let k := s.sys.accepted s.masks
  if s.seq.interruptible then k
  else if s.sys.parity && k == some 3 && Config.freeBit (s.slot 91) then k
  else none

/-! ### Time (R85, R1070 to R1074, D55) -/

/-- One cycle of the running timer: the new TCOUNT, and whether it reached zero (R1071). -/
def timerTick (count period : Word) : Word × Bool :=
  if count = 0#32 then (period, decide (period = 0#32)) else (count - 1#32, decide (count = 1#32))

/-- `n` cycles of the running timer. -/
def timerRun (count period : Word) : Nat → Word × Bool
  | 0 => (count, false)
  | n + 1 =>
    let r := timerRun count period n
    let q := timerTick r.1 period
    (q.1, r.2 || q.2)

/-- Core light sleep (R324, R1053): an idle core with CORE_SLP = 1 and DIS_CCLKG = 0. -/
def State.lightSleep (s : State) : Bool :=
  s.seq.idle && s.gov.pwrGlb.extractLsb' 0 2 = 1#2 && !s.gov.sysctl.getLsbD 25

/-- The phase of the timer after a step of `c` cycles, and how many of them it counted (R1074); `extra`: the choice that
the stopping timer still counts one cycle. -/
def TimerPhase.pass (p : TimerPhase) (timen extra : Bool) (c : Nat) : TimerPhase × Nat :=
  match p, timen with
  | .off, false => (.off, 0)
  | .off, true => (.starting 2, 0)
  | .starting _, false => (.off, 0)
  | .starting n, true => if c < n then (.starting (n - c), 0) else (.on, c - n)
  | .on, true => (.on, c)
  | .on, false => (.stopping, c)
  | .stopping, false => (.off, if extra then 1 else 0)
  | .stopping, true => (.starting 2, if extra then 1 else 0)

/-- TCOUNT after `n` counted cycles of a step from `s0` to `s`, and whether it reached zero: a write made by the step falls
in its last cycle and takes the place of that cycle's count (R1072). -/
def timerStep (s0 s : State) : Nat → Word × Bool
  | 0 => (s.sys.tcount, false)
  | n + 1 =>
    let r := timerRun s0.sys.tcount s0.sys.tperiod n
    if s.bdry.tcountWritten then (s.sys.tcount, r.2)
    else
      let q := timerTick r.1 s.sys.tperiod
      (q.1, r.2 || q.2)

/-- The timer over a step of `c` cycles from `s0` to `s`: when it expires, both its interrupts are latched and the TMREXP pin is
pulsed (R1071, R1073). -/
def State.passTimer (s0 s : State) (c : Nat) : State :=
  match s0.sys.timer, s.sys.mode2.getLsbD 5 with
  | .off, false => s
  | p, timen =>
    let r := p.pass timen (Config.freeBit (s.slot 30)) c
    let q := timerStep s0 s r.2
    let s' : State := { s with
      sys := { s.sys with timer := r.1, tcount := q.1 }
      bus := if q.2 then .timerExpired :: s.bus else s.bus }
    (s'.raiseIf q.2 .tmzhi).raiseIf q.2 .tmzli

/-- The emulation clock counters after `c` cycles (R85). -/
def Sys.passClock (y : Sys) (c : Nat) : Sys :=
  let t := y.emuclk.toNat + c
  { y with emuclk := BitVec.ofNat 32 t, emuclk2 := y.emuclk2 + BitVec.ofNat 32 (t / 2 ^ 32) }

/-- The time a step from `s0` to `s` takes: a positive number of cycles of the environment's choice (D55); in core light
sleep the timer is frozen and the clock may stand. -/
def State.passTime (s0 s : State) : State :=
  let c := Config.freeCycles (s.slot 0)
  let s1 : State := { s with
    sys := s.sys.passClock (if s0.lightSleep then c else c + 1)
    mem := s.mem.passPower (c + 1) }
  if s0.lightSleep then s1 else s0.passTimer s1 (c + 1)

/-! ### Latches at the boundary (R1035, R1038, R1049) -/

/-- The arithmetic exceptions, as levels of the sticky bits of both elements (R1038). -/
def State.arithLevels (s : State) : State :=
  let w := s.sys.stkyx ||| s.sys.stkyy
  (((s.raiseIf (w.getLsbD 2 || w.getLsbD 6) .fixi).raiseIf (w.getLsbD 1 || w.getLsbD 7) .fltoi).raiseIf
    (w.getLsbD 0 || w.getLsbD 8) .fltui).raiseIf (w.getLsbD 5 || w.getLsbD 9) .fltii

/-- The latches forced to 0: those of interrupts in service, but SECI's while it self-nests (R1035, R1049). -/
def Sys.forceClear (y : Sys) : Sys :=
  let hold : Word := if y.mode2.getLsbD 0 then y.imaskp &&& ~~~(1#32 <<< 15) else y.imaskp
  { y with irptl := y.irptl &&& ~~~hold }

/-- The end of every step from `s0` to `s`: time passes, level sources latch, the latches of interrupts in service are
cleared, a parity error whose latch is gone is forgotten (R1081), the latches and masks of the last boundary are kept (R1052,
R1054), the next free values come up. -/
def State.closeStep (s0 s : State) : State :=
  let s1 := (s0.passTime s).arithLevels
  { s1 with
    sys := { s1.sys.forceClear with
      parity := s1.sys.parity && s1.sys.forceClear.irptl.getLsbD 3
      irptlSeen := s0.sys.irptl, imaskWas := s0.sys.imask, mode2Was := s0.sys.mode2
      astatxWas := s0.sys.astatx, astatyWas := s0.sys.astaty }
    free := s1.free + 1 }

/-! ### Breakpoints (R1150 to R1154) -/

/-- The instruction-address sets that hit: bit n is set n + 1 (R1151, D57). -/
def State.instrHits (s : State) : BitVec 4 :=
  let hit (n : Fin 4) : BitVec 1 :=
    let a := s.gov.iaStart[n].toNat
    let b := s.gov.iaEnd[n].toNat
    boolBit (decide (a ≤ b) && (s.gov.brkctl.getLsbD (13 + n) != decide (a ≤ s.seq.pc.toNat ∧ s.seq.pc.toNat ≤ b)))
  hit 3 ++ hit 2 ++ hit 1 ++ hit 0

/-- `event` of R1152 on the groups IA, DA and PA. -/
def breakEvent (brkctl : Word) (ia da pa : Bool) : Bool :=
  let on (bit : Nat) : Bool := brkctl.getLsbD bit
  if on 24 then (on 21 || on 20 || on 19) && (!on 21 || ia) && (!on 20 || da) && (!on 19 || pa)
  else (on 21 && ia) || (on 20 && da) || (on 19 && pa)

/-- The breakpoint unit after the instruction executed from `s0` to `s` (R1154, D58): by the EMUN that governs (R1226). The two
anomalies of R1146, a spurious breakpoint just after a short loop and the status lost of a second breakpoint, do not occur here
(DESIGN CHOICE, log 39). -/
def State.breakpoints (s0 s : State) : State :=
  let ia := s0.instrHits
  let d := s.bdry.hits
  let event := s0.gov.umode &&
    breakEvent s0.gov.brkctl (ia != 0#4) (d.getLsbD 1 || d.getLsbD 2) (d.getLsbD 0)
  if !event then s
  else if s.gov.emun = 0#32 then
    (s.setMmrs fun m => { m with brkstat := m.brkstat ||| (ia ++ d).setWidth 32 }).raise .bkpi
  else s.setMmrs fun m => { m with emun := if m.emun = 0#32 then 0#32 else m.emun - 1#32 }

/-! ### Before and after an instruction -/

/-- Code against the restrictions on the caches: in block 1 or 2 while it holds an enabled data cache; in the window after
a store to SHL1C_CFG or SHL1C_CFG2, outside L1; in the twelve instructions after an access to a cache register, compressed; in L2
or L3 under ranges that break the restrictions (R372). -/
def State.codeRestricted (s : State) (f : Fetched) (t : Config.Target) : Bool :=
  (t == .l1 1 && s.gov.l1cCfg.getLsbD 8) || (t == .l1 2 && s.gov.l1cCfg.getLsbD 16) ||
    (decide (s.seq.cacheHold ≠ 0) && !isL1 t) || (decide (s.cache.near ≠ 0) && decide (f.bytes < 6)) || s.rangeStop t

/-- Code that may not run: from the storage of a cache (R382, U51), against the restrictions on the caches (R372), from bytes
that were stored to and not flushed since (R328, R355, U23). -/
def State.fetchStop (s : State) : Option Refusal :=
  match s.fetch s.seq.pc, codeAt s.seq.pc with
  | some f, some (r, p) =>
    if s.inCache p || s.inCache (p + f.bytes - 1) then some (.cacheStorage s.seq.pc.toNat)
    else if s.codeRestricted f r.target then some (.cacheRestriction s.seq.pc.toNat)
    else if s.mem.stale p f.bytes then some (.selfModified s.seq.pc.toNat)
    else none
  | _, _ => none

/-- What the fetch of the instruction executed from `s0` to `s` leaves: from the core memory-mapped registers the illegal
access of R339; a sleeping block wakes (R324); the `n` bytes use their lines of the instruction cache (R357, R367). -/
def State.afterFetch (s0 s : State) (n : Nat) : State :=
  match codeAt s0.seq.pc with
  | none => if s0.sys.mode2.getLsbD 20 then (s.stick 19).raise .iicdi else s
  | some (r, p) =>
    { s with
      mem := s0.touch s.mem r.target
      cache := s0.useLines (s0.usesOf .i r (fun _ => false) p n) s.cache }

/-- An instruction of `len` units starts: control goes to its successor unless it says otherwise, a write of PCSTKP by the
instruction before takes effect after this one (R65), an arithmetic loop tests its condition (R590). -/
def State.begin (s : State) (len : Nat) : State :=
  let s1 : State := { s with
    seq := { s.seq with npc := s.seq.pc + BitVec.ofNat 24 len, pcStkpDue := s.seq.pcStkpNew, pcStkpNew := none }
    bdry := State.reset.bdry }
  s1.loopCheck

/-- The instruction executing in `s` is the last of the innermost loop. -/
def State.atLoopEnd (s : State) : Bool :=
  match s.seq.loopStk with
  | [] => false
  | e :: _ => e.last == s.seq.pc

/-- A VISA instruction of fewer than three parcels stands among the last eleven of the innermost loop's body (R593). -/
def State.compressedAtEnd (s : State) (len : Nat) : Bool :=
  match s.seq.loopStk, s.seq.pcStk with
  | e :: _, w :: _ =>
    decide (len < fullLen s.seq.pc) && decide ((w.truncate 24 : IAddr).toNat ≤ s.seq.pc.toNat) && s.seq.amongLast e 11
  | _, _ => false

/-- The end of the innermost loop after the instruction executed from `s0` to `s`: outside the loop's restrictions a
refusal (D31, U14). -/
def State.closeLoop (s0 s : State) (len : Nat) : Res State :=
  if s0.compressedAtEnd len then refuse .loopEnd
  else if s0.atLoopEnd then
    if s.bdry.taken || !s0.seq.branches.isEmpty || s.seq.loopStk.length != s0.seq.loopStk.length then refuse .loopEnd
    else s.loopEnd
  else .ok s

/-- Delayed branches one instruction on; the oldest one whose slots are done redirects (R564, R568). An idle core keeps
them. -/
def Seq.passSlots (q : Seq) : Seq :=
  if q.idle then q
  else
    match q.branches with
    | [] => q
    | b :: t =>
      let rest := t.map fun x => { x with slots := x.slots - 1 }
      if b.slots ≤ 1 then { q with npc := b.target, branches := rest }
      else { q with branches := { b with slots := b.slots - 1 } :: rest }

/-- Effect latencies of one instruction: MODE1, explicit writes of ASTAT, a return from interrupt among them, block data
widths, posted stores to core memory-mapped registers (R47, R131, R315, R1226, D62). -/
def State.passLatencies (s0 s : State) : State :=
  { s with
    sys := { s.sys with
      mode1Act := if s.bdry.mode1Now then s.sys.mode1 else s0.sys.mode1
      condx := if s.bdry.astatxWritten then some s0.sys.astatx else none
      condy := if s.bdry.astatyWritten then some s0.sys.astaty else none }
    mmr := { s.mmr with imdwAct := s0.mmr.sysctl.extractLsb' 9 4 }
    posted := (s.posted.map fun p => { p with left := p.left - 1 }).filter fun p => decide (p.left ≠ 0) }

/-- The core after a software reset: as `State.reset`, with memory and the outside kept (R1204, R1205). -/
def State.coreReset (s : State) : State :=
  { State.reset with
    sys := { State.reset.sys with pins := s.sys.pins }
    mem := { s.mem with power := Vector.replicate 4 .awake, writes := [] }
    bus := s.bus
    free := s.free + 1 }

/-- After a restricted branch sequence the loop registers hold any value (R1037, U15). -/
def State.loseLoops (s : State) : State :=
  if s.bdry.loopFree then
    { s with seq := { s.seq with
      loopStk := s.seq.loopStk.mapIdx fun k e => { e with
        laddr := s.freeWord (64 + 3 * k), count := s.freeWord (65 + 3 * k), start := s.freeWord (66 + 3 * k), exits := 0, call := .none, missed := false }
      lcntrs := match s.seq.lcntrs with
        | [] => []
        | _ :: t => s.freeWord 86 :: t } }
  else s

/-- Control goes elsewhere now: a branch was taken at once, or the slots of a delayed one are done. -/
def Seq.redirects (q : Seq) (taken : Bool) : Bool :=
  match q.branches with
  | [] => taken
  | b :: _ => !q.idle && decide (b.slots ≤ 1)

/-- A count of instructions still to come in a window after one more, which a store opens at 13 (R372, R1138): compressed
instructions do not count. -/
def windowLeft (n : Nat) (full : Bool) : Nat := if 12 < n then 12 else if full then n - 1 else n

/-- After the instruction executed from `s0` to `s`. A delayed branch that takes effect in the window of R1138 is refused. -/
def State.finish (s0 s : State) (len : Nat) : Res State :=
  match s.bdry.refused, s0.closeLoop s len with
  | some r, _ => refuse r
  | none, .error e => .error e
  | none, .ok s1 =>
    if s0.seq.srst = 1 then .ok s1.coreReset
    else if s1.seq.redirects s1.bdry.taken && decide (s1.seq.btbHold ≠ 0) then refuse .btbWindow
    else
      let s2 := (s1.settlePcstkp s1.seq.pcStkpDue).loseLoops
      let q := s2.seq.passSlots
      let full := decide (fullLen s0.seq.pc ≤ len)
      let s3 : State := { s2 with
        seq := { q with
          pc := q.npc, pcStkpDue := none, noIrq := q.noIrq - 1, vectorDue := false, srst := q.srst - 1
          btbHold := windowLeft q.btbHold full, cacheHold := windowLeft q.cacheHold full }
        cache := { s2.cache with near := windowLeft s2.cache.near full }
        mem := if s2.seq.redirects s2.bdry.taken then s2.mem.refetch else s2.mem }
      .ok (s0.closeStep (s0.breakpoints (s0.passCalls (s0.passLatencies s3))))

/-- An undefined instruction word: a NOP of full length that raises ILOPI; the first one is captured, with the mark that it
stands where no interrupt can be accepted (R406, R1083, R1177, D26). The lock is the one that governs (R1226). -/
def State.illegal (s : State) : State :=
  let m (x : Mmr) : Mmr :=
    { x with illop := s.seq.pc.setWidth 32 ||| flagBit 24 (!s.seq.interruptible), illopLocked := true }
  { (if s.gov.illopLocked then s else s.setMmrs m) with
    seq := { s.seq with npc := s.seq.pc + BitVec.ofNat 24 (fullLen s.seq.pc) } }.raise .ilopi

/-- Taking an interrupt is a step of its own; the new modes govern at once (R1047, D62). That it ends the latency of a store to
the block data widths too (R315) is a DESIGN CHOICE: D62 speaks of MODE1 (log 68). -/
def State.takeInterrupt (s : State) (k : Nat) : Res State :=
  match s.enter k with
  | .error e => .error e
  | .ok t =>
    let u := s.closeStep { t with mmr := { t.mmr with imdwAct := t.mmr.sysctl.extractLsb' 9 4 }, bdry := State.reset.bdry }
    .ok { u with sys := { u.sys with imaskWas := u.sys.imask, mode2Was := u.sys.mode2 } }

end Sys2Proof.Machine
end

