-- ==== Sys2Proof/Machine/Compute.lean ====
section
/-! DEFINITION. What a computation on one processing element does, and how it is put into the state
(spec/44_alu_fixed.md R720 to R724, spec/40_group1.md R503, spec/49_multifunction.md R1000 to R1003). -/

namespace Sys2Proof.Machine

open Sys2Proof

/-- Everything one element's computation writes. -/
structure PeOut where
  /-- Results, highest precedence first; the registers of one unit are written together or not at all (R1002). -/
  units : List (List (RegNo × Reg40)) := []
  alu : Option AluFlags := none
  /-- The bit a compare accumulates (R132). -/
  cacc : Option Bool := none
  mul : Option MulFlags := none
  sh : Option ShFlags := none
  sticky : Sticky := {}
  /-- A multiplier result register: background or foreground by its physical place, and its value (R882). -/
  mr : Option (Bool × Acc80) := none
  fifo : Option (Long × BitVec 7) := none
  deriving DecidableEq, Repr

/-- The sticky bits of two operations (R1003). -/
def Sticky.or (a b : Sticky) : Sticky :=
  { aus := a.aus || b.aus, avs := a.avs || b.avs, aos := a.aos || b.aos, ais := a.ais || b.ais
    mos := a.mos || b.mos, mvs := a.mvs || b.mvs, mus := a.mus || b.mus, mis := a.mis || b.mis }

/-- The data register of an element by its universal name. -/
def peReg (y : Bool) (n : RegNo) : UReg := if y then .s n else .r n

/-- One unit written, unless a register of it is taken by a write of higher precedence; then none of it (R48, R1002). -/
def State.writeUnit (y : Bool) (p : State × List UReg) (u : List (RegNo × Reg40)) : State × List UReg :=
  if u.any fun q => p.2.contains (peReg y q.1) then p
  else (u.foldl (fun t q => t.setDreg y q.1 q.2) p.1, u.map (fun q => peReg y q.1) ++ p.2)

/-- ASTAT after the computation. -/
def PeOut.astat (o : PeOut) (a : Word) : Word :=
  let a1 := match o.alu with
    | none => a
    | some f => f.apply a
  let a2 := match o.cacc with
    | none => a1
    | some g => pushCacc g a1
  let a3 := match o.mul with
    | none => a2
    | some f => f.apply a2
  match o.sh with
  | none => a3
  | some f => f.apply a3

/-- The physical multiplier result register: `y` the element, `bg` background (R50). -/
def Data.mrPhys (d : Data) (y bg : Bool) : Acc80 :=
  match y, bg with
  | false, false => d.mrf
  | false, true => d.mrb
  | true, false => d.msf
  | true, true => d.msb

/-- Write of a physical multiplier result register. -/
def Data.setMrPhys (d : Data) (y bg : Bool) (v : Acc80) : Data :=
  match y, bg with
  | false, false => { d with mrf := v }
  | false, true => { d with mrb := v }
  | true, false => { d with msf := v }
  | true, true => { d with msb := v }

/-- The flags and sticky bits of an element (R720). -/
def State.applyFlags (s : State) (y : Bool) (o : PeOut) : State :=
  if y then { s with sys := { s.sys with astaty := o.astat s.sys.astaty, stkyy := o.sticky.apply s.sys.stkyy } }
  else { s with sys := { s.sys with astatx := o.astat s.sys.astatx, stkyx := o.sticky.apply s.sys.stkyx } }

/-- The multiplier result register of a computation. -/
def State.applyMr (s : State) (y : Bool) (o : PeOut) : State :=
  match o.mr with
  | none => s
  | some (bg, v) => { s with data := s.data.setMrPhys y bg v }

/-- The bit FIFO of a computation. -/
def State.applyFifo (s : State) (o : PeOut) : State :=
  match o.fifo with
  | none => s
  | some (b, w) => { s with data := { s.data with bff := b, bffwrp := w } }

/-- One element's computation put into the state. `busy`: registers the instruction's loads and moves write (R48). -/
def State.applyPe (s : State) (y : Bool) (busy : List UReg) (o : PeOut) : State :=
  (((o.units.foldl (State.writeUnit y) (s, busy)).1.applyFlags y o).applyMr y o).applyFifo o

/-- A computation on the elements that execute it, each from the state before the instruction (R503, R720). -/
def State.runPe (s : State) (cx cy : Bool) (busy : List UReg) (f : Bool → PeOut) : State :=
  let s1 := if cx then s.applyPe false busy (f false) else s
  if s.simd && cy then s1.applyPe true busy (f true) else s1

/-- A computation alone, unconditional (R512). -/
def State.runAlone (s : State) (f : Bool → PeOut) : State := s.runPe true true [] f

/-! ### Operands -/

/-- `fx(r)` (R722). -/
def State.fx (s : State) (y : Bool) (n : RegNo) : Word := hi32 (s.dreg y n)

/-- ASTAT of an element. -/
def State.astat (s : State) (y : Bool) : Word := if y then s.sys.astaty else s.sys.astatx

/-- The AC bit (R732). -/
def State.ci (s : State) (y : Bool) : Bool := (s.astat y).getLsbD 3

/-- The name of a pair's even register (R841). -/
def evenOf (p : Pair) : RegNo := p ++ 0#1

/-- The name of a pair's odd register (R841). -/
def oddOf (p : Pair) : RegNo := p ++ 1#1

/-- The 64-bit number of a pair (R841). -/
def State.pair (s : State) (y : Bool) (p : Pair) : Long := s.fx y (oddOf p) ++ s.fx y (evenOf p)

/-- The two registers of a 64-bit result, one unit (R841). -/
def pairUnit (p : Pair) (v : Long) : List (RegNo × Reg40) :=
  [(oddOf p, reg40 (v.extractLsb' 32 32)), (evenOf p, reg40 (v.truncate 32))]

/-! ### Results of the ALU -/

/-- An ALU result with its flags. -/
structure AluRes where
  value : Reg40
  flags : AluFlags
  sticky : Sticky := {}
  deriving DecidableEq, Repr

/-- The result into register `n`. -/
def AluRes.to (r : AluRes) (n : RegNo) : PeOut := { units := [[(n, r.value)]], alu := some r.flags, sticky := r.sticky }

/-- A 64-bit ALU result with its flags. -/
structure AluRes64 where
  value : Long
  flags : AluFlags
  sticky : Sticky := {}
  deriving DecidableEq, Repr

/-- The result into pair `p`. -/
def AluRes64.to (r : AluRes64) (p : Pair) : PeOut :=
  { units := [pairUnit p r.value], alu := some r.flags, sticky := r.sticky }

/-- A compare: flags and the accumulated bit, no register (R735). -/
def compareOut (lt eq gt nan float : Bool) : PeOut :=
  { alu := some { az := eq, an := lt, ai := nan, af := float }, cacc := some gt, sticky := { ais := nan } }

/-- The ALU flags of two operations together (R1003). -/
def AluFlags.or (a b : AluFlags) : AluFlags :=
  { az := a.az || b.az, av := a.av || b.av, an := a.an || b.an, ac := a.ac || b.ac, as := a.as || b.as, ai := a.ai || b.ai
    af := a.af || b.af }

/-- Dual add/subtract: the sum beats the difference when both name one register (R1002, R1003). -/
def dualOut (sum diff : AluRes) (ra rs : RegNo) : PeOut :=
  { units := [[(ra, sum.value)], [(rs, diff.value)]], alu := some (sum.flags.or diff.flags), sticky := sum.sticky.or diff.sticky }

/-- An ALU operation beside a multiplier operation: the ALU result first, then the product, then the difference of a dual
add/subtract (R1000, R1002). -/
def parallelOut (alu mul : PeOut) : PeOut :=
  { units := alu.units.take 1 ++ mul.units ++ alu.units.drop 1, alu := alu.alu, mul := mul.mul
    sticky := alu.sticky.or mul.sticky, mr := mul.mr }

end Sys2Proof.Machine
end

