-- ==== Sys2Proof/Machine/Fixed.lean ====
section
/-! DEFINITION. Fixed-point ALU operations and their compute rows (spec/44_alu_fixed.md, spec/49_multifunction.md R1004). -/

namespace Sys2Proof.Machine

open Sys2Proof

/-! ### The adder (R726 to R729) -/

/-- `add3`: raw result, carry and overflow (R726). -/
structure Sum where
  r : Word
  c : Bool
  v : Bool
  deriving DecidableEq, Repr

/-- A 32-bit addition with carry in (R726). -/
def add3 (a b : Word) (ci : Bool) : Sum :=
  let u := a.toNat + b.toNat + ci.toNat
  let r := BitVec.ofNat 32 u
  { r := r, c := decide (2 ^ 32 ≤ u), v := a.msb == b.msb && r.msb != a.msb }

/-- Saturation of an additive result (R727). -/
def Sum.out (x : Sum) (sat : Bool) : Word :=
  if x.v && sat then (if x.r.msb then 0x7FFFFFFF#32 else 0x80000000#32) else x.r

/-- An additive result with its flags (R727, R728). -/
def Sum.res (x : Sum) (sat : Bool) : AluRes :=
  let out := x.out sat
  { value := reg40 out, flags := { az := out == 0#32, av := x.v, an := out.msb, ac := x.c }, sticky := { aos := x.v } }

/-- A logical result with its flags (R729). -/
def logicRes (out : Word) : AluRes := { value := reg40 out, flags := { az := out == 0#32, an := out.msb } }

/-- MODE1.ALUSAT as it governs (R727). -/
def State.alusat (s : State) : Bool := s.mode .alusat

/-! ### The operations (R730 to R750) -/

/-- The average: exact sum, halved; an odd sum goes to the even neighbour or, with TRUNCATE, down (R734, D34). -/
def avgRes (x w : Word) (trunc : Bool) : AluRes :=
  let t : Int := x.toInt + w.toInt
  let h : Int := t / 2
  let out : Word := BitVec.ofInt 32 (if t % 2 = 0 || trunc || h % 2 = 0 then h else h + 1)
  { value := reg40 out, flags := { az := out == 0#32, an := out.msb, ac := (add3 x w false).c } }

/-- CLIP: symmetric at the magnitude of the second operand (R750). -/
def clipWord (x w : Word) : Word :=
  if x.toInt.natAbs < w.toInt.natAbs then x
  else if 0 ≤ x.toInt then BitVec.ofNat 32 w.toInt.natAbs else BitVec.ofInt 32 (-(w.toInt.natAbs : Int))

/-- ABS: AS is the sign, AN and AC are cleared (R742). -/
def absRes (x : Word) (sat : Bool) : AluRes :=
  let t := add3 0#32 (~~~x) true
  let out := if x.msb then t.out sat else x
  let v := x.msb && t.v
  { value := reg40 out, flags := { az := out == 0#32, av := v, as := x.msb }, sticky := { aos := v } }

/-- Rn = Rx + Ry (R730). -/
def State.fixAdd (s : State) (y : Bool) (rx ry : RegNo) : AluRes := (add3 (s.fx y rx) (s.fx y ry) false).res s.alusat

/-- Rn = Rx - Ry (R731). -/
def State.fixSub (s : State) (y : Bool) (rx ry : RegNo) : AluRes := (add3 (s.fx y rx) (~~~(s.fx y ry)) true).res s.alusat

/-- Rn = Rx + Ry + CI (R732). -/
def State.fixAddCarry (s : State) (y : Bool) (rx ry : RegNo) : AluRes := (add3 (s.fx y rx) (s.fx y ry) (s.ci y)).res s.alusat

/-- Rn = Rx - Ry + CI - 1 (R733). -/
def State.fixSubBorrow (s : State) (y : Bool) (rx ry : RegNo) : AluRes := (add3 (s.fx y rx) (~~~(s.fx y ry)) (s.ci y)).res s.alusat

/-- Rn = (Rx + Ry)/2 (R734). -/
def State.fixAvg (s : State) (y : Bool) (rx ry : RegNo) : AluRes := avgRes (s.fx y rx) (s.fx y ry) (s.mode .truncate)

/-- Rn = Rx AND Ry (R744). -/
def State.fixAnd (s : State) (y : Bool) (rx ry : RegNo) : AluRes := logicRes (s.fx y rx &&& s.fx y ry)

/-- Rn = Rx OR Ry (R745). -/
def State.fixOr (s : State) (y : Bool) (rx ry : RegNo) : AluRes := logicRes (s.fx y rx ||| s.fx y ry)

/-- Rn = Rx XOR Ry (R746). -/
def State.fixXor (s : State) (y : Bool) (rx ry : RegNo) : AluRes := logicRes (s.fx y rx ^^^ s.fx y ry)

/-- Rn = MIN(Rx, Ry) (R748). -/
def State.fixMin (s : State) (y : Bool) (rx ry : RegNo) : AluRes := logicRes (if (s.fx y rx).toInt ≤ (s.fx y ry).toInt then s.fx y rx else s.fx y ry)

/-- Rn = MAX(Rx, Ry) (R749). -/
def State.fixMax (s : State) (y : Bool) (rx ry : RegNo) : AluRes := logicRes (if (s.fx y ry).toInt ≤ (s.fx y rx).toInt then s.fx y rx else s.fx y ry)

/-- Rn = CLIP Rx BY Ry (R750). -/
def State.fixClip (s : State) (y : Bool) (rx ry : RegNo) : AluRes := logicRes (clipWord (s.fx y rx) (s.fx y ry))

/-- Rn = Rx + CI (R737). -/
def State.fixPlusCarry (s : State) (y : Bool) (rx : RegNo) : AluRes := (add3 (s.fx y rx) 0#32 (s.ci y)).res s.alusat

/-- Rn = Rx + CI - 1 (R738). -/
def State.fixPlusCarryMinus1 (s : State) (y : Bool) (rx : RegNo) : AluRes := (add3 (s.fx y rx) 0xFFFFFFFF#32 (s.ci y)).res s.alusat

/-- Rn = Rx + 1 (R739). -/
def State.fixInc (s : State) (y : Bool) (rx : RegNo) : AluRes := (add3 (s.fx y rx) 0#32 true).res s.alusat

/-- Rn = Rx - 1 (R740). -/
def State.fixDec (s : State) (y : Bool) (rx : RegNo) : AluRes := (add3 (s.fx y rx) 0xFFFFFFFF#32 false).res s.alusat

/-- Rn = -Rx (R741). -/
def State.fixNeg (s : State) (y : Bool) (rx : RegNo) : AluRes := (add3 0#32 (~~~(s.fx y rx)) true).res s.alusat

/-- Rn = ABS Rx (R742). -/
def State.fixAbs (s : State) (y : Bool) (rx : RegNo) : AluRes := absRes (s.fx y rx) s.alusat

/-- Rn = PASS Rx (R743). -/
def State.fixPass (s : State) (y : Bool) (rx : RegNo) : AluRes := logicRes (s.fx y rx)

/-- Rn = NOT Rx (R747). -/
def State.fixNot (s : State) (y : Bool) (rx : RegNo) : AluRes := logicRes (~~~(s.fx y rx))

/-- COMP(Rx, Ry) (R735). -/
def State.fixComp (s : State) (y : Bool) (rx ry : RegNo) : PeOut :=
  let a := (s.fx y rx).toInt
  let b := (s.fx y ry).toInt
  compareOut (decide (a < b)) (decide (a = b)) (decide (b < a)) false false

/-- COMPU(Rx, Ry) (R736). -/
def State.fixCompU (s : State) (y : Bool) (rx ry : RegNo) : PeOut :=
  let a := (s.fx y rx).toNat
  let b := (s.fx y ry).toNat
  compareOut (decide (a < b)) (decide (a = b)) (decide (b < a)) false false

/-- Ra = Rx + Ry, Rs = Rx - Ry (R1004). -/
def State.fixAddSub (s : State) (y : Bool) (ra rs rx ry : RegNo) : PeOut :=
  dualOut (s.fixAdd y rx ry) (s.fixSub y rx ry) ra rs

/-! ### The rows of the opcode table: the computation alone (R512, log 10) -/

/-- Rn = Rx + Ry (R730). -/
def execFixAdd (rn rx ry : RegNo) (s : State) : Host.Outcome State Fault Refusal :=
  .next (s.runAlone fun y => (s.fixAdd y rx ry).to rn)

/-- Rn = Rx - Ry (R731). -/
def execFixSub (rn rx ry : RegNo) (s : State) : Host.Outcome State Fault Refusal :=
  .next (s.runAlone fun y => (s.fixSub y rx ry).to rn)

/-- Rn = Rx + Ry + CI (R732). -/
def execFixAddCarry (rn rx ry : RegNo) (s : State) : Host.Outcome State Fault Refusal :=
  .next (s.runAlone fun y => (s.fixAddCarry y rx ry).to rn)

/-- Rn = Rx - Ry + CI - 1 (R733). -/
def execFixSubBorrow (rn rx ry : RegNo) (s : State) : Host.Outcome State Fault Refusal :=
  .next (s.runAlone fun y => (s.fixSubBorrow y rx ry).to rn)

/-- Rn = (Rx + Ry)/2 (R734). -/
def execFixAvg (rn rx ry : RegNo) (s : State) : Host.Outcome State Fault Refusal :=
  .next (s.runAlone fun y => (s.fixAvg y rx ry).to rn)

/-- Rn = Rx AND Ry (R744). -/
def execFixAnd (rn rx ry : RegNo) (s : State) : Host.Outcome State Fault Refusal :=
  .next (s.runAlone fun y => (s.fixAnd y rx ry).to rn)

/-- Rn = Rx OR Ry (R745). -/
def execFixOr (rn rx ry : RegNo) (s : State) : Host.Outcome State Fault Refusal :=
  .next (s.runAlone fun y => (s.fixOr y rx ry).to rn)

/-- Rn = Rx XOR Ry (R746). -/
def execFixXor (rn rx ry : RegNo) (s : State) : Host.Outcome State Fault Refusal :=
  .next (s.runAlone fun y => (s.fixXor y rx ry).to rn)

/-- Rn = MIN(Rx, Ry) (R748). -/
def execFixMin (rn rx ry : RegNo) (s : State) : Host.Outcome State Fault Refusal :=
  .next (s.runAlone fun y => (s.fixMin y rx ry).to rn)

/-- Rn = MAX(Rx, Ry) (R749). -/
def execFixMax (rn rx ry : RegNo) (s : State) : Host.Outcome State Fault Refusal :=
  .next (s.runAlone fun y => (s.fixMax y rx ry).to rn)

/-- Rn = CLIP Rx BY Ry (R750). -/
def execFixClip (rn rx ry : RegNo) (s : State) : Host.Outcome State Fault Refusal :=
  .next (s.runAlone fun y => (s.fixClip y rx ry).to rn)

/-- Rn = Rx + CI (R737). -/
def execFixPlusCarry (rn rx : RegNo) (s : State) : Host.Outcome State Fault Refusal :=
  .next (s.runAlone fun y => (s.fixPlusCarry y rx).to rn)

/-- Rn = Rx + CI - 1 (R738). -/
def execFixPlusCarryMinus1 (rn rx : RegNo) (s : State) : Host.Outcome State Fault Refusal :=
  .next (s.runAlone fun y => (s.fixPlusCarryMinus1 y rx).to rn)

/-- Rn = Rx + 1 (R739). -/
def execFixInc (rn rx : RegNo) (s : State) : Host.Outcome State Fault Refusal :=
  .next (s.runAlone fun y => (s.fixInc y rx).to rn)

/-- Rn = Rx - 1 (R740). -/
def execFixDec (rn rx : RegNo) (s : State) : Host.Outcome State Fault Refusal :=
  .next (s.runAlone fun y => (s.fixDec y rx).to rn)

/-- Rn = -Rx (R741). -/
def execFixNeg (rn rx : RegNo) (s : State) : Host.Outcome State Fault Refusal :=
  .next (s.runAlone fun y => (s.fixNeg y rx).to rn)

/-- Rn = ABS Rx (R742). -/
def execFixAbs (rn rx : RegNo) (s : State) : Host.Outcome State Fault Refusal :=
  .next (s.runAlone fun y => (s.fixAbs y rx).to rn)

/-- Rn = PASS Rx (R743). -/
def execFixPass (rn rx : RegNo) (s : State) : Host.Outcome State Fault Refusal :=
  .next (s.runAlone fun y => (s.fixPass y rx).to rn)

/-- Rn = NOT Rx (R747). -/
def execFixNot (rn rx : RegNo) (s : State) : Host.Outcome State Fault Refusal :=
  .next (s.runAlone fun y => (s.fixNot y rx).to rn)

/-- COMP(Rx, Ry) (R735). -/
def execFixComp (rx ry : RegNo) (s : State) : Host.Outcome State Fault Refusal :=
  .next (s.runAlone fun y => s.fixComp y rx ry)

/-- COMPU(Rx, Ry) (R736). -/
def execFixCompU (rx ry : RegNo) (s : State) : Host.Outcome State Fault Refusal :=
  .next (s.runAlone fun y => s.fixCompU y rx ry)

/-- Ra = Rx + Ry, Rs = Rx - Ry (R1004). -/
def execFixAddSub (ra rs rx ry : RegNo) (s : State) : Host.Outcome State Fault Refusal :=
  .next (s.runAlone fun y => s.fixAddSub y ra rs rx ry)

/-- Type 2c, RN = RN + RX (R514, R730). -/
def execShortAdd (rn rx : RegNo) (s : State) : Host.Outcome State Fault Refusal :=
  .next (s.runAlone fun y => (s.fixAdd y rn rx).to rn)

/-- Type 2c, RN = RN - RX (R514, R731). -/
def execShortSub (rn rx : RegNo) (s : State) : Host.Outcome State Fault Refusal :=
  .next (s.runAlone fun y => (s.fixSub y rn rx).to rn)

/-- Type 2c, RN = RN AND RX (R514, R744). -/
def execShortAnd (rn rx : RegNo) (s : State) : Host.Outcome State Fault Refusal :=
  .next (s.runAlone fun y => (s.fixAnd y rn rx).to rn)

/-- Type 2c, RN = RN OR RX (R514, R745). -/
def execShortOr (rn rx : RegNo) (s : State) : Host.Outcome State Fault Refusal :=
  .next (s.runAlone fun y => (s.fixOr y rn rx).to rn)

/-- Type 2c, RN = RN XOR RX (R514, R746). -/
def execShortXor (rn rx : RegNo) (s : State) : Host.Outcome State Fault Refusal :=
  .next (s.runAlone fun y => (s.fixXor y rn rx).to rn)

/-- Type 2c, RN = PASS RX (R514, R743). -/
def execShortPass (rn rx : RegNo) (s : State) : Host.Outcome State Fault Refusal :=
  .next (s.runAlone fun y => (s.fixPass y rx).to rn)

/-- Type 2c, RN = NOT RX (R514, R747). -/
def execShortNot (rn rx : RegNo) (s : State) : Host.Outcome State Fault Refusal :=
  .next (s.runAlone fun y => (s.fixNot y rx).to rn)

/-- Type 2c, RN = RX + 1 (R514, R739). -/
def execShortInc (rn rx : RegNo) (s : State) : Host.Outcome State Fault Refusal :=
  .next (s.runAlone fun y => (s.fixInc y rx).to rn)

/-- Type 2c, RN = RX - 1 (R514, R740). -/
def execShortDec (rn rx : RegNo) (s : State) : Host.Outcome State Fault Refusal :=
  .next (s.runAlone fun y => (s.fixDec y rx).to rn)

/-- Type 2c, COMP(RN, RX) (R514, R735). -/
def execShortComp (rn rx : RegNo) (s : State) : Host.Outcome State Fault Refusal :=
  .next (s.runAlone fun y => s.fixComp y rn rx)

end Sys2Proof.Machine
end

