-- ==== Sys2Proof/Machine/Float.lean ====
section
/-! DEFINITION. The floating-point number model, the 32- and 40-bit ALU operations and their compute rows
(spec/45_alu_float.md, spec/49_multifunction.md R1005). -/

namespace Sys2Proof.Machine

open Sys2Proof

/-! ### Numbers (R781 to R785, R840) -/

/-- A binary format: fraction and exponent widths. -/
structure Fmt where
  frac : Nat
  ebits : Nat
  deriving DecidableEq, Repr

/-- The 40-bit format of a data register (R781). -/
def fmt40 : Fmt := ⟨31, 8⟩
/-- The 64-bit format of a pair (R840). -/
def fmt64 : Fmt := ⟨52, 11⟩

/-- The exponent bias; also the largest unbiased exponent. -/
def Fmt.bias (f : Fmt) : Nat := 2 ^ (f.ebits - 1) - 1

/-- The bits of sign, biased exponent and fraction. -/
def Fmt.encode (f : Fmt) (s : Bool) (e fr : Nat) : Nat := (s.toNat * 2 ^ f.ebits + e) * 2 ^ f.frac + fr

/-- Sign, biased exponent and fraction of a bit pattern. -/
def Fmt.sign (f : Fmt) (v : Nat) : Bool := (v / 2 ^ (f.frac + f.ebits)) % 2 == 1
/-- The biased exponent. -/
def Fmt.exp (f : Fmt) (v : Nat) : Nat := v / 2 ^ f.frac % 2 ^ f.ebits
/-- The stored fraction. -/
def Fmt.fraction (f : Fmt) (v : Nat) : Nat := v % 2 ^ f.frac

/-- A classified operand or an exact result. `num s m e` is (-1)^s * m * 2^e with m not 0. -/
inductive Fl
  | nan (s : Bool)
  | inf (s : Bool)
  | zero (s : Bool)
  | num (s : Bool) (m : Nat) (e : Int)
  deriving DecidableEq, Repr

/-- Classification: a denormal is a zero of its sign (R783, R840). -/
def Fmt.classify (f : Fmt) (v : Nat) : Fl :=
  let s := f.sign v
  if f.exp v = 2 ^ f.ebits - 1 then (if f.fraction v = 0 then .inf s else .nan s)
  else if f.exp v = 0 then .zero s
  else .num s (2 ^ f.frac + f.fraction v) (f.exp v - f.bias - f.frac)

/-- A bit pattern with a denormal flushed to a zero of its sign (R783). -/
def Fmt.flush (f : Fmt) (v : Nat) : Nat := if f.exp v = 0 then f.encode (f.sign v) 0 0 else v

/-- Magnitude order of flushed patterns that are no NAN: negative below zero, both zeros 0 (R795). -/
def Fmt.key (f : Fmt) (v : Nat) : Int :=
  let m : Int := f.flush v % 2 ^ (f.frac + f.ebits)
  if f.sign v then -m else m

/-- The operand is a NAN. -/
def Fl.isNan : Fl → Bool
  | .nan _ => true
  | _ => false

/-- Infinity of a sign. -/
def Fmt.infinity (f : Fmt) (s : Bool) : Nat := f.encode s (2 ^ f.ebits - 1) 0

/-- NORM.MAX of the boundary B (R785). -/
def Fmt.normMax (f : Fmt) (b : Nat) (s : Bool) : Nat :=
  f.encode s (2 ^ f.ebits - 2) ((2 ^ b - 1) * 2 ^ (f.frac - b))

/-- `fround` (R784): m * 2^e to b fraction bits: the significand in [2^b, 2^(b+1)) and the unbiased exponent. -/
def fround (b : Nat) (trunc : Bool) (m : Nat) (e : Int) : Nat × Int :=
  let l := Nat.log2 m
  if l ≤ b then (m * 2 ^ (b - l), l + e)
  else
    let d := l - b
    let q := m / 2 ^ d
    let r := m % 2 ^ d
    let up := !trunc && (decide (2 ^ (d - 1) < r) || (r == 2 ^ (d - 1) && q % 2 == 1))
    let q' := if up then q + 1 else q
    if q' = 2 ^ (b + 1) then (2 ^ b, l + e + 1) else (q', l + e)

/-- A rounded result: bits, overflow, underflow. -/
structure Rounded where
  bits : Nat
  ovf : Bool := false
  unf : Bool := false
  deriving DecidableEq, Repr

/-- Rounding and range of a non-zero exact result (R784, R785, R843). -/
def Fmt.finish (f : Fmt) (b : Nat) (trunc s : Bool) (m : Nat) (e : Int) : Rounded :=
  let r := fround b trunc m e
  if (f.bias : Int) < r.2 then { bits := if trunc then f.normMax b s else f.infinity s, ovf := true }
  else if r.2 < 1 - (f.bias : Int) then { bits := f.encode s 0 0, unf := true }
  else { bits := f.encode s (r.2 + f.bias).toNat ((r.1 - 2 ^ b) * 2 ^ (f.frac - b)) }

/-- The bits of an exact result that is no NAN. -/
def Fmt.round (f : Fmt) (b : Nat) (trunc : Bool) : Fl → Rounded
  | .nan s => { bits := f.encode s (2 ^ f.ebits - 1) (2 ^ f.frac - 1) }
  | .inf s => { bits := f.infinity s }
  | .zero s => { bits := f.encode s 0 0 }
  | .num s m e => f.finish b trunc s m e

/-- Sign complemented. -/
def Fl.neg : Fl → Fl
  | .nan s => .nan s
  | .inf s => .inf (!s)
  | .zero s => .zero (!s)
  | .num s m e => .num (!s) m e

/-- The exact sum; `nan true` for an invalid one (R785, R788, R790). -/
def Fl.add : Fl → Fl → Fl
  | .nan _, _ => .nan true
  | _, .nan _ => .nan true
  | .inf s, .inf t => if s = t then .inf s else .nan true
  | .inf s, _ => .inf s
  | _, .inf s => .inf s
  | .zero s, .zero t => .zero (s && t)
  | .zero _, x => x
  | x, .zero _ => x
  | .num s m e, .num t n d =>
    let c := min e d
    let a : Int := (m : Int) * 2 ^ (e - c).toNat
    let b : Int := (n : Int) * 2 ^ (d - c).toNat
    let r : Int := (if s then -a else a) + (if t then -b else b)
    if r = 0 then .zero false else .num (decide (r < 0)) r.natAbs c

/-- Scaled by a power of two. -/
def Fl.scale (k : Int) : Fl → Fl
  | .num s m e => .num s m (e + k)
  | x => x

/-- An integer as an exact number; 0 is +zero (R808). -/
def Fl.ofInt (n : Int) : Fl := if n = 0 then .zero false else .num (decide (n < 0)) n.natAbs 0

/-! ### Operands and results of 32/40-bit operations -/

/-- The result boundary B (R782). -/
def State.bound (s : State) : Nat := if s.mode .rnd32 then 23 else 31

/-- MODE1.TRUNCATE as it governs (R784). -/
def State.trunc (s : State) : Bool := s.mode .truncate

/-- `in(r)` (R782). -/
def State.fin (s : State) (y : Bool) (n : RegNo) : Nat :=
  let v := s.dreg y n
  (if s.mode .rnd32 then v &&& 0xFFFFFFFF00#40 else v).toNat

/-- The classified operand. -/
def State.fl (s : State) (y : Bool) (n : RegNo) : Fl := fmt40.classify (s.fin y n)

/-- ALL1 (R786). -/
def State.all1 (s : State) : Reg40 := if s.mode .rnd32 then 0xFFFFFFFF00#40 else 0xFFFFFFFFFF#40

/-- The result of a NAN operand or an invalid operation (R786). -/
def State.invalid (s : State) : AluRes := { value := s.all1, flags := { an := true, ai := true, af := true }, sticky := { ais := true } }

/-- A result of known bits: AN its sign, AZ a zero (R786, R798). -/
def exactRes (bits : Nat) : AluRes :=
  { value := BitVec.ofNat 40 bits
    flags := { az := fmt40.exp bits == 0, an := fmt40.sign bits, af := true } }

/-- An exact result rounded to boundary b: AZ for a zero or an underflow (R785, R787, R790). -/
def State.rounded (s : State) (b : Nat) (x : Fl) : AluRes :=
  if x.isNan then s.invalid
  else
    let r := fmt40.round b s.trunc x
    { value := BitVec.ofNat 40 r.bits
      flags := { az := fmt40.exp r.bits == 0, av := r.ovf, an := fmt40.sign r.bits, af := true }
      sticky := { avs := r.ovf, aus := r.unf } }

/-- The magnitude of a sum: an invalid result stays all ones, AN is cleared (R792). -/
def AluRes.magnitude (r : AluRes) : AluRes :=
  { r with value := if r.flags.ai then r.value else r.value &&& 0x7FFFFFFFFF#40, flags := { r.flags with an := false } }

/-! ### Conversion to fixed point (R803, R854) -/

/-- Rounding directions. -/
inductive Dir
  | nearest | floor | zero
  deriving DecidableEq, Repr

/-- The direction of FIX (R804). -/
def State.fixDir (s : State) : Dir := if s.trunc then .floor else .nearest

/-- The integer of (-1)^s * m * 2^e in a direction, and whether the magnitude lies strictly between 0 and 1. A magnitude
below 2^-64 * m rounds as 2^-64 * m does. -/
def roundInt (dir : Dir) (s : Bool) (m : Nat) (e : Int) : Int × Bool :=
  if 0 ≤ e then ((if s then -1 else 1) * ((m : Int) * 2 ^ e.toNat), false)
  else
    let d := min (-e).toNat 64
    let q := m / 2 ^ d
    let r := m % 2 ^ d
    let n := match dir with
      | .zero => q
      | .floor => if s && r != 0 then q + 1 else q
      | .nearest => if 2 ^ (d - 1) < r ∨ (r = 2 ^ (d - 1) ∧ q % 2 = 1) then q + 1 else q
    ((if s then -(n : Int) else n), q == 0 && r != 0)

/-- An overflowing conversion (R803 b). -/
def State.fixOverflow (s : State) (neg : Bool) : AluRes :=
  if s.alusat then
    { value := if neg then 0x8000000000#40 else 0x7FFFFFFF00#40, flags := { av := true, an := neg, af := true }
      sticky := { avs := true } }
  else { value := s.all1, flags := { av := true, an := true, ai := true, af := true }, sticky := { avs := true, ais := true } }

/-- The conversion of an exact number. `early` is the overflow test of R803 before rounding, on the unbiased exponent and
the exact value; a rounded integer outside 32 bits overflows too (D37). -/
def State.toFixed (s : State) (dir : Dir) (early : Bool → Nat → Int → Bool) (x : Fl) : AluRes :=
  match x with
  | .nan _ => s.invalid
  | .inf t => s.fixOverflow t
  | .zero _ => { value := 0#40, flags := { az := true, af := true } }
  | .num t m e =>
    if early t m e then s.fixOverflow t
    else
      let r := roundInt dir t m e
      if r.1 < -2 ^ 31 ∨ 2 ^ 31 - 1 < r.1 then s.fixOverflow t
      else
        let v : Word := BitVec.ofInt 32 r.1
        { value := reg40 v, flags := { az := v == 0#32, an := v.msb, af := true }, sticky := { aus := r.2 } }

/-- The 32-bit test: an unbiased exponent above 30 overflows (R803). -/
def early40 (_ : Bool) (m : Nat) (e : Int) : Bool := decide (30 < (Nat.log2 m : Int) + e)

/-- The 64-bit test: the exact value lies outside the 32-bit range (R854). -/
def early64 (t : Bool) (m : Nat) (e : Int) : Bool :=
  decide (31 < (Nat.log2 m : Int) + e) ||
    (decide ((Nat.log2 m : Int) + e = 31) && !(t && m == 2 ^ Nat.log2 m)) ||
    (decide ((Nat.log2 m : Int) + e = 30) && decide (e < 0) && !t && decide ((2 ^ 31 - 1) * 2 ^ (-e).toNat < m))

/-! ### The operations (R790 to R815) -/

/-- `COMP` of two patterns (R795, D39). -/
def Fmt.compare (f : Fmt) (a b : Nat) : PeOut :=
  if (f.classify a).isNan || (f.classify b).isNan then compareOut false false false true true
  else compareOut (decide (f.key a < f.key b)) (decide (f.key a = f.key b)) (decide (f.key b < f.key a)) false true

/-- A selection between two operands that are no NAN (R812). -/
def State.select (s : State) (y : Bool) (rx ry : RegNo) (pick : Nat → Nat → Nat) : AluRes :=
  if (s.fl y rx).isNan || (s.fl y ry).isNan then s.invalid
  else exactRes (pick (fmt40.flush (s.fin y rx)) (fmt40.flush (s.fin y ry)))

/-- The smaller operand, -zero below +zero (R813). -/
def minBits (a b : Nat) : Nat :=
  if fmt40.key a < fmt40.key b then a else if fmt40.key b < fmt40.key a then b else if fmt40.sign a then a else b

/-- The larger operand, +zero above -zero (R814). -/
def maxBits (a b : Nat) : Nat :=
  if fmt40.key b < fmt40.key a then a else if fmt40.key a < fmt40.key b then b else if fmt40.sign a then b else a

/-- CLIP (R815). -/
def clipBits (a b : Nat) : Nat :=
  if a % 2 ^ 39 < b % 2 ^ 39 then a else (if fmt40.sign a then 2 ^ 39 else 0) + b % 2 ^ 39

/-- COPYSIGN (R812). -/
def copysignBits (a b : Nat) : Nat := (if fmt40.sign b then 2 ^ 39 else 0) + a % 2 ^ 39

/-- Fn = Fx + Fy (R790). -/
def State.fltAdd (s : State) (y : Bool) (rx ry : RegNo) : AluRes := s.rounded s.bound ((s.fl y rx).add (s.fl y ry))

/-- Fn = Fx - Fy (R791). -/
def State.fltSub (s : State) (y : Bool) (rx ry : RegNo) : AluRes := s.rounded s.bound ((s.fl y rx).add (s.fl y ry).neg)

/-- Fn = ABS (Fx + Fy) (R792). -/
def State.fltAbsAdd (s : State) (y : Bool) (rx ry : RegNo) : AluRes := (s.fltAdd y rx ry).magnitude

/-- Fn = ABS (Fx - Fy) (R793). -/
def State.fltAbsSub (s : State) (y : Bool) (rx ry : RegNo) : AluRes := (s.fltSub y rx ry).magnitude

/-- Fn = (Fx + Fy)/2 (R794). -/
def State.fltAvg (s : State) (y : Bool) (rx ry : RegNo) : AluRes := s.rounded s.bound (((s.fl y rx).add (s.fl y ry)).scale (-1))

/-- Fn = SCALB Fx BY Ry (R800). -/
def State.fltScalb (s : State) (y : Bool) (rx ry : RegNo) : AluRes := s.rounded s.bound ((s.fl y rx).scale (s.fx y ry).toInt)

/-- Rn = FIX Fx BY Ry (R805). -/
def State.fltFixBy (s : State) (y : Bool) (rx ry : RegNo) : AluRes := s.toFixed s.fixDir early40 ((s.fl y rx).scale (s.fx y ry).toInt)

/-- Rn = TRUNC Fx BY Ry (R807). -/
def State.fltTruncBy (s : State) (y : Bool) (rx ry : RegNo) : AluRes := s.toFixed .zero early40 ((s.fl y rx).scale (s.fx y ry).toInt)

/-- Fn = FLOAT Rx BY Ry (R809). -/
def State.fltFloatBy (s : State) (y : Bool) (rx ry : RegNo) : AluRes := s.rounded 31 ((Fl.ofInt (s.fx y rx).toInt).scale (s.fx y ry).toInt)

/-- Fn = Fx COPYSIGN Fy (R812). -/
def State.fltCopysign (s : State) (y : Bool) (rx ry : RegNo) : AluRes := s.select y rx ry copysignBits

/-- Fn = MIN(Fx, Fy) (R813). -/
def State.fltMin (s : State) (y : Bool) (rx ry : RegNo) : AluRes := s.select y rx ry minBits

/-- Fn = MAX(Fx, Fy) (R814). -/
def State.fltMax (s : State) (y : Bool) (rx ry : RegNo) : AluRes := s.select y rx ry maxBits

/-- Fn = CLIP Fx BY Fy (R815). -/
def State.fltClip (s : State) (y : Bool) (rx ry : RegNo) : AluRes := s.select y rx ry clipBits

/-- Fn = -Fx (R796). -/
def State.fltNeg (s : State) (y : Bool) (rx : RegNo) : AluRes :=
  if (s.fl y rx).isNan then s.invalid else exactRes (fmt40.flush (s.fin y rx) ^^^ 2 ^ 39)

/-- Fn = ABS Fx: AN cleared, AS the sign of the operand (R797). -/
def State.fltAbs (s : State) (y : Bool) (rx : RegNo) : AluRes :=
  let r := if (s.fl y rx).isNan then s.invalid else exactRes (fmt40.flush (s.fin y rx) % 2 ^ 39)
  { r with flags := { r.flags with an := false, as := fmt40.sign (s.fin y rx) } }

/-- Fn = PASS Fx (R798). -/
def State.fltPass (s : State) (y : Bool) (rx : RegNo) : AluRes :=
  if (s.fl y rx).isNan then s.invalid else exactRes (fmt40.flush (s.fin y rx))

/-- Fn = RND Fx: always to 23 fraction bits (R799). -/
def State.fltRnd (s : State) (y : Bool) (rx : RegNo) : AluRes := s.rounded 23 (s.fl y rx)

/-- Rn = MANT Fx (R801). -/
def State.fltMant (s : State) (y : Bool) (rx : RegNo) : AluRes :=
  let neg := fmt40.sign (s.fin y rx)
  match s.fl y rx with
  | .nan _ => { value := s.all1, flags := { ai := true, as := neg, af := true }, sticky := { ais := true } }
  | .inf _ => { value := s.all1, flags := { av := true, as := neg, af := true }, sticky := { avs := true } }
  | .zero _ => { value := 0#40, flags := { az := true, as := neg, af := true } }
  | .num _ m _ => { value := reg40 (BitVec.ofNat 32 m), flags := { as := neg, af := true } }

/-- Rn = LOGB Fx (R802). -/
def State.fltLogb (s : State) (y : Bool) (rx : RegNo) : AluRes :=
  let special (v : Reg40) : AluRes := { value := v, flags := { av := true, an := v.msb, af := true }, sticky := { avs := true } }
  match s.fl y rx with
  | .nan _ => s.invalid
  | .inf _ => special (if s.alusat then 0x7FFFFFFF00#40 else 0x7F80000000#40)
  | .zero _ => special (if s.alusat then 0x8000000000#40 else 0xFF80000000#40)
  | .num _ _ _ =>
    let v : Word := BitVec.ofInt 32 ((fmt40.exp (s.fin y rx) : Int) - 127)
    { value := reg40 v, flags := { az := v == 0#32, an := v.msb, af := true } }

/-- Rn = FIX Fx (R804). -/
def State.fltFix (s : State) (y : Bool) (rx : RegNo) : AluRes := s.toFixed s.fixDir early40 (s.fl y rx)

/-- Rn = TRUNC Fx (R806). -/
def State.fltTrunc (s : State) (y : Bool) (rx : RegNo) : AluRes := s.toFixed .zero early40 (s.fl y rx)

/-- Fn = FLOAT Rx: always 31 fraction bits (R808). -/
def State.fltFloat (s : State) (y : Bool) (rx : RegNo) : AluRes := s.rounded 31 (Fl.ofInt (s.fx y rx).toInt)

/-- The fraction of a seed: its 8 LSBs are clear with RND32 = 1 (R782). -/
def State.seed (s : State) (f : BitVec 31) : Nat := (if s.mode .rnd32 then f &&& 0x7FFFFF00#31 else f).toNat

/-- Fn = RECIPS Fx: the fraction is the parameter RECIPS_ROM (U57) (R810). -/
def State.fltRecips (s : State) (y : Bool) (rx : RegNo) : AluRes :=
  let v := s.fin y rx
  let neg := fmt40.sign v
  if (s.fl y rx).isNan then { s.invalid with flags := { an := neg, ai := true, af := true } }
  else if fmt40.exp v = 0 then
    { value := BitVec.ofNat 40 (fmt40.infinity neg), flags := { av := true, an := neg, af := true }, sticky := { avs := true } }
  else if 252 < fmt40.exp v then
    { value := BitVec.ofNat 40 (fmt40.encode neg 0 0), flags := { az := true, an := neg, af := true }, sticky := { aus := true } }
  else
    { value := BitVec.ofNat 40 (fmt40.encode neg (253 - fmt40.exp v)
        (s.seed (Config.recipsRom (BitVec.ofNat 7 (fmt40.fraction v / 2 ^ 24)))))
      flags := { an := neg, af := true } }

/-- Fn = RSQRTS Fx: the fraction is the parameter RSQRTS_ROM (U57, D40) (R811). -/
def State.fltRsqrts (s : State) (y : Bool) (rx : RegNo) : AluRes :=
  let v := s.fin y rx
  let neg := fmt40.sign v
  let x : Int := (fmt40.exp v : Int) - 127
  if (s.fl y rx).isNan || (neg && fmt40.exp v != 0) then
    { value := s.all1, flags := { ai := true, af := true }, sticky := { ais := true } }
  else if fmt40.exp v = 0 then
    { value := BitVec.ofNat 40 (fmt40.infinity neg), flags := { av := true, an := neg, af := true }, sticky := { avs := true } }
  else if fmt40.exp v = 255 then { value := 0#40, flags := { az := true, af := true } }
  else
    { value := BitVec.ofNat 40 (fmt40.encode false (126 - x / 2).toNat
        (s.seed (Config.rsqrtsRom (BitVec.ofNat 7 (fmt40.exp v % 2 * 64 + fmt40.fraction v / 2 ^ 25)))))
      flags := { af := true } }

/-- COMP(Fx, Fy) (R795). -/
def State.fltComp (s : State) (y : Bool) (rx ry : RegNo) : PeOut := fmt40.compare (s.fin y rx) (s.fin y ry)

/-- Fa = Fx + Fy, Fs = Fx - Fy (R1005). -/
def State.fltAddSub (s : State) (y : Bool) (ra rs rx ry : RegNo) : PeOut :=
  dualOut (s.fltAdd y rx ry) (s.fltSub y rx ry) ra rs

/-! ### The rows of the opcode table: the computation alone (R512, log 10) -/

/-- Fn = Fx + Fy (R790). -/
def execFltAdd (rn rx ry : RegNo) (s : State) : Host.Outcome State Fault Refusal :=
  .next (s.runAlone fun y => (s.fltAdd y rx ry).to rn)

/-- Fn = Fx - Fy (R791). -/
def execFltSub (rn rx ry : RegNo) (s : State) : Host.Outcome State Fault Refusal :=
  .next (s.runAlone fun y => (s.fltSub y rx ry).to rn)

/-- Fn = ABS (Fx + Fy) (R792). -/
def execFltAbsAdd (rn rx ry : RegNo) (s : State) : Host.Outcome State Fault Refusal :=
  .next (s.runAlone fun y => (s.fltAbsAdd y rx ry).to rn)

/-- Fn = ABS (Fx - Fy) (R793). -/
def execFltAbsSub (rn rx ry : RegNo) (s : State) : Host.Outcome State Fault Refusal :=
  .next (s.runAlone fun y => (s.fltAbsSub y rx ry).to rn)

/-- Fn = (Fx + Fy)/2 (R794). -/
def execFltAvg (rn rx ry : RegNo) (s : State) : Host.Outcome State Fault Refusal :=
  .next (s.runAlone fun y => (s.fltAvg y rx ry).to rn)

/-- Fn = SCALB Fx BY Ry (R800). -/
def execFltScalb (rn rx ry : RegNo) (s : State) : Host.Outcome State Fault Refusal :=
  .next (s.runAlone fun y => (s.fltScalb y rx ry).to rn)

/-- Rn = FIX Fx BY Ry (R805). -/
def execFltFixBy (rn rx ry : RegNo) (s : State) : Host.Outcome State Fault Refusal :=
  .next (s.runAlone fun y => (s.fltFixBy y rx ry).to rn)

/-- Rn = TRUNC Fx BY Ry (R807). -/
def execFltTruncBy (rn rx ry : RegNo) (s : State) : Host.Outcome State Fault Refusal :=
  .next (s.runAlone fun y => (s.fltTruncBy y rx ry).to rn)

/-- Fn = FLOAT Rx BY Ry (R809). -/
def execFltFloatBy (rn rx ry : RegNo) (s : State) : Host.Outcome State Fault Refusal :=
  .next (s.runAlone fun y => (s.fltFloatBy y rx ry).to rn)

/-- Fn = Fx COPYSIGN Fy (R812). -/
def execFltCopysign (rn rx ry : RegNo) (s : State) : Host.Outcome State Fault Refusal :=
  .next (s.runAlone fun y => (s.fltCopysign y rx ry).to rn)

/-- Fn = MIN(Fx, Fy) (R813). -/
def execFltMin (rn rx ry : RegNo) (s : State) : Host.Outcome State Fault Refusal :=
  .next (s.runAlone fun y => (s.fltMin y rx ry).to rn)

/-- Fn = MAX(Fx, Fy) (R814). -/
def execFltMax (rn rx ry : RegNo) (s : State) : Host.Outcome State Fault Refusal :=
  .next (s.runAlone fun y => (s.fltMax y rx ry).to rn)

/-- Fn = CLIP Fx BY Fy (R815). -/
def execFltClip (rn rx ry : RegNo) (s : State) : Host.Outcome State Fault Refusal :=
  .next (s.runAlone fun y => (s.fltClip y rx ry).to rn)

/-- Fn = -Fx (R796). -/
def execFltNeg (rn rx : RegNo) (s : State) : Host.Outcome State Fault Refusal :=
  .next (s.runAlone fun y => (s.fltNeg y rx).to rn)

/-- Fn = ABS Fx (R797). -/
def execFltAbs (rn rx : RegNo) (s : State) : Host.Outcome State Fault Refusal :=
  .next (s.runAlone fun y => (s.fltAbs y rx).to rn)

/-- Fn = PASS Fx (R798). -/
def execFltPass (rn rx : RegNo) (s : State) : Host.Outcome State Fault Refusal :=
  .next (s.runAlone fun y => (s.fltPass y rx).to rn)

/-- Fn = RND Fx (R799). -/
def execFltRnd (rn rx : RegNo) (s : State) : Host.Outcome State Fault Refusal :=
  .next (s.runAlone fun y => (s.fltRnd y rx).to rn)

/-- Rn = MANT Fx (R801). -/
def execFltMant (rn rx : RegNo) (s : State) : Host.Outcome State Fault Refusal :=
  .next (s.runAlone fun y => (s.fltMant y rx).to rn)

/-- Rn = LOGB Fx (R802). -/
def execFltLogb (rn rx : RegNo) (s : State) : Host.Outcome State Fault Refusal :=
  .next (s.runAlone fun y => (s.fltLogb y rx).to rn)

/-- Rn = FIX Fx (R804). -/
def execFltFix (rn rx : RegNo) (s : State) : Host.Outcome State Fault Refusal :=
  .next (s.runAlone fun y => (s.fltFix y rx).to rn)

/-- Rn = TRUNC Fx (R806). -/
def execFltTrunc (rn rx : RegNo) (s : State) : Host.Outcome State Fault Refusal :=
  .next (s.runAlone fun y => (s.fltTrunc y rx).to rn)

/-- Fn = FLOAT Rx (R808). -/
def execFltFloat (rn rx : RegNo) (s : State) : Host.Outcome State Fault Refusal :=
  .next (s.runAlone fun y => (s.fltFloat y rx).to rn)

/-- Fn = RECIPS Fx (R810). -/
def execFltRecips (rn rx : RegNo) (s : State) : Host.Outcome State Fault Refusal :=
  .next (s.runAlone fun y => (s.fltRecips y rx).to rn)

/-- Fn = RSQRTS Fx (R811). -/
def execFltRsqrts (rn rx : RegNo) (s : State) : Host.Outcome State Fault Refusal :=
  .next (s.runAlone fun y => (s.fltRsqrts y rx).to rn)

/-- COMP(Fx, Fy) (R795). -/
def execFltComp (rx ry : RegNo) (s : State) : Host.Outcome State Fault Refusal :=
  .next (s.runAlone fun y => s.fltComp y rx ry)

/-- Fa = Fx + Fy, Fs = Fx - Fy (R1005). -/
def execFltAddSub (ra rs rx ry : RegNo) (s : State) : Host.Outcome State Fault Refusal :=
  .next (s.runAlone fun y => s.fltAddSub y ra rs rx ry)

/-- Type 2c, FN = FN + FX (R514, R790). -/
def execShortFltAdd (rn rx : RegNo) (s : State) : Host.Outcome State Fault Refusal :=
  .next (s.runAlone fun y => (s.fltAdd y rn rx).to rn)

/-- Type 2c, FN = FN - FX (R514, R791). -/
def execShortFltSub (rn rx : RegNo) (s : State) : Host.Outcome State Fault Refusal :=
  .next (s.runAlone fun y => (s.fltSub y rn rx).to rn)

/-- Type 2c, FN = FLOAT RX (R514, R808). -/
def execShortFloat (rn rx : RegNo) (s : State) : Host.Outcome State Fault Refusal :=
  .next (s.runAlone fun y => (s.fltFloat y rx).to rn)

/-- Type 2c, COMP(FN, FX) (R514, R795). -/
def execShortFltComp (rn rx : RegNo) (s : State) : Host.Outcome State Fault Refusal :=
  .next (s.runAlone fun y => s.fltComp y rn rx)

end Sys2Proof.Machine
end

