-- ==== Sys2Proof/Machine/Double.lean ====
section
/-! DEFINITION. 64-bit floating-point ALU operations and their compute rows (spec/46_alu_float64.md). -/

namespace Sys2Proof.Machine

open Sys2Proof

/-- The 64-bit pattern of a pair. -/
def State.dbits (s : State) (y : Bool) (p : Pair) : Nat := (s.pair y p).toNat

/-- The classified 64-bit operand (R840). -/
def State.dl (s : State) (y : Bool) (p : Pair) : Fl := fmt64.classify (s.dbits y p)

/-- The result of a NAN operand or an invalid operation (R844). -/
def invalid64 : AluRes64 :=
  { value := BitVec.allOnes 64, flags := { an := true, ai := true, af := true }, sticky := { ais := true } }

/-- A 64-bit result of known bits. -/
def exactRes64 (bits : Nat) : AluRes64 :=
  { value := BitVec.ofNat 64 bits, flags := { az := fmt64.exp bits == 0, an := fmt64.sign bits, af := true } }

/-- An exact result rounded to 52 fraction bits (R843, R845). -/
def State.rounded64 (s : State) (x : Fl) : AluRes64 :=
  if x.isNan then invalid64
  else
    let r := fmt64.round 52 s.trunc x
    { value := BitVec.ofNat 64 r.bits
      flags := { az := fmt64.exp r.bits == 0, av := r.ovf, an := fmt64.sign r.bits, af := true }
      sticky := { avs := r.ovf, aus := r.unf } }

/-! ### The operations (R848 to R863) -/

/-- Fm:n = Fx:y + Fz:w (R848). -/
def State.dblAdd (s : State) (y : Bool) (x z : Pair) : AluRes64 := s.rounded64 ((s.dl y x).add (s.dl y z))

/-- Fm:n = Fx:y - Fz:w (R849). -/
def State.dblSub (s : State) (y : Bool) (x z : Pair) : AluRes64 := s.rounded64 ((s.dl y x).add (s.dl y z).neg)

/-- COMP(Fx:y, Fz:w) (R850). -/
def State.dblComp (s : State) (y : Bool) (x z : Pair) : PeOut := fmt64.compare (s.dbits y x) (s.dbits y z)

/-- Fm:n = -Fx:y (R851). -/
def State.dblNeg (s : State) (y : Bool) (x : Pair) : AluRes64 :=
  if (s.dl y x).isNan then invalid64 else exactRes64 (fmt64.flush (s.dbits y x) ^^^ 2 ^ 63)

/-- Fm:n = ABS Fx:y: AN cleared, AS the sign of the operand (R852). -/
def State.dblAbs (s : State) (y : Bool) (x : Pair) : AluRes64 :=
  let r := if (s.dl y x).isNan then invalid64 else exactRes64 (fmt64.flush (s.dbits y x) % 2 ^ 63)
  { r with flags := { r.flags with an := false, as := fmt64.sign (s.dbits y x) } }

/-- Fm:n = PASS Fx:y (R853). -/
def State.dblPass (s : State) (y : Bool) (x : Pair) : AluRes64 :=
  if (s.dl y x).isNan then invalid64 else exactRes64 (fmt64.flush (s.dbits y x))

/-- Rn = FIX Fx:y (R855). -/
def State.dblFix (s : State) (y : Bool) (x : Pair) : AluRes := s.toFixed s.fixDir early64 (s.dl y x)

/-- Rn = FIX Fx:y BY Ry (R856). -/
def State.dblFixBy (s : State) (y : Bool) (x : Pair) (ry : RegNo) : AluRes :=
  s.toFixed s.fixDir early64 ((s.dl y x).scale (s.fx y ry).toInt)

/-- Rn = TRUNC Fx:y (R857). -/
def State.dblTrunc (s : State) (y : Bool) (x : Pair) : AluRes := s.toFixed .zero early64 (s.dl y x)

/-- Rn = TRUNC Fx:y BY Ry (R858). -/
def State.dblTruncBy (s : State) (y : Bool) (x : Pair) (ry : RegNo) : AluRes :=
  s.toFixed .zero early64 ((s.dl y x).scale (s.fx y ry).toInt)

/-- Fm:n = FLOAT Rx (R859). -/
def State.dblFloat (s : State) (y : Bool) (rx : RegNo) : AluRes64 := s.rounded64 (Fl.ofInt (s.fx y rx).toInt)

/-- Fm:n = FLOAT Rx BY Ry (R860). -/
def State.dblFloatBy (s : State) (y : Bool) (rx ry : RegNo) : AluRes64 :=
  s.rounded64 ((Fl.ofInt (s.fx y rx).toInt).scale (s.fx y ry).toInt)

/-- Fm:n = CVT Fx: exact (R861). -/
def State.dblFromFlt (s : State) (y : Bool) (rx : RegNo) : AluRes64 := s.rounded64 (s.fl y rx)

/-- Fn = CVT Fx:y (R862). -/
def State.fltFromDbl (s : State) (y : Bool) (x : Pair) : AluRes := s.rounded s.bound (s.dl y x)

/-- Fm:n = SCALB Fx:y BY Ry (R863). -/
def State.dblScalb (s : State) (y : Bool) (x : Pair) (ry : RegNo) : AluRes64 :=
  s.rounded64 ((s.dl y x).scale (s.fx y ry).toInt)

/-! ### The rows of the opcode table: the computation alone (R512, log 10) -/

/-- Fm:n = Fx:y + Fz:w (R848). -/
def execDblAdd (m x z : Pair) (s : State) : Host.Outcome State Fault Refusal :=
  .next (s.runAlone fun y => (s.dblAdd y x z).to m)

/-- Fm:n = Fx:y - Fz:w (R849). -/
def execDblSub (m x z : Pair) (s : State) : Host.Outcome State Fault Refusal :=
  .next (s.runAlone fun y => (s.dblSub y x z).to m)

/-- COMP(Fx:y, Fz:w) (R850). -/
def execDblComp (x z : Pair) (s : State) : Host.Outcome State Fault Refusal :=
  .next (s.runAlone fun y => s.dblComp y x z)

/-- Fm:n = -Fx:y (R851). -/
def execDblNeg (m x : Pair) (s : State) : Host.Outcome State Fault Refusal :=
  .next (s.runAlone fun y => (s.dblNeg y x).to m)

/-- Fm:n = ABS Fx:y (R852). -/
def execDblAbs (m x : Pair) (s : State) : Host.Outcome State Fault Refusal :=
  .next (s.runAlone fun y => (s.dblAbs y x).to m)

/-- Fm:n = PASS Fx:y (R853). -/
def execDblPass (m x : Pair) (s : State) : Host.Outcome State Fault Refusal :=
  .next (s.runAlone fun y => (s.dblPass y x).to m)

/-- Rn = FIX Fx:y (R855). -/
def execDblFix (rn : RegNo) (x : Pair) (s : State) : Host.Outcome State Fault Refusal :=
  .next (s.runAlone fun y => (s.dblFix y x).to rn)

/-- Rn = FIX Fx:y BY Ry (R856). -/
def execDblFixBy (rn : RegNo) (x : Pair) (ry : RegNo) (s : State) : Host.Outcome State Fault Refusal :=
  .next (s.runAlone fun y => (s.dblFixBy y x ry).to rn)

/-- Rn = TRUNC Fx:y (R857). -/
def execDblTrunc (rn : RegNo) (x : Pair) (s : State) : Host.Outcome State Fault Refusal :=
  .next (s.runAlone fun y => (s.dblTrunc y x).to rn)

/-- Rn = TRUNC Fx:y BY Ry (R858). -/
def execDblTruncBy (rn : RegNo) (x : Pair) (ry : RegNo) (s : State) : Host.Outcome State Fault Refusal :=
  .next (s.runAlone fun y => (s.dblTruncBy y x ry).to rn)

/-- Fm:n = FLOAT Rx (R859). -/
def execDblFloat (m : Pair) (rx : RegNo) (s : State) : Host.Outcome State Fault Refusal :=
  .next (s.runAlone fun y => (s.dblFloat y rx).to m)

/-- Fm:n = FLOAT Rx BY Ry (R860). -/
def execDblFloatBy (m : Pair) (rx ry : RegNo) (s : State) : Host.Outcome State Fault Refusal :=
  .next (s.runAlone fun y => (s.dblFloatBy y rx ry).to m)

/-- Fm:n = CVT Fx (R861). -/
def execDblFromFlt (m : Pair) (rx : RegNo) (s : State) : Host.Outcome State Fault Refusal :=
  .next (s.runAlone fun y => (s.dblFromFlt y rx).to m)

/-- Fn = CVT Fx:y (R862). -/
def execFltFromDbl (rn : RegNo) (x : Pair) (s : State) : Host.Outcome State Fault Refusal :=
  .next (s.runAlone fun y => (s.fltFromDbl y x).to rn)

/-- Fm:n = SCALB Fx:y BY Ry (R863). -/
def execDblScalb (m x : Pair) (ry : RegNo) (s : State) : Host.Outcome State Fault Refusal :=
  .next (s.runAlone fun y => (s.dblScalb y x ry).to m)

end Sys2Proof.Machine
end

