-- ==== Sys2Proof/Machine/Access.lean ====
section
/-! DEFINITION. Data moves: address generation, access size, alignment, SIMD, broadcast and long-word transfers, core
memory-mapped registers, exclusive accesses, register moves (spec/20_memory.md sections 3 to 9 and 11,
spec/40_group1.md R505, spec/42_group3.md R621). A move is computed from the state before the instruction as an `Fx`; the
`Fx` is then put into the state. -/

namespace Sys2Proof.Machine

open Sys2Proof Config

/-! ### Address generation (R271 to R281) -/

/-- How an access finds its address. -/
inductive Addr
  /-- Post-modify by a 32-bit modifier (R273). -/
  | post (a : RegNo) (md : Word)
  /-- Pre-modify, no update (R272). -/
  | pre (a : RegNo) (md : Word)
  /-- A direct address (R269). -/
  | direct (addr : Word)
  deriving DecidableEq, Repr

/-- What moves: a universal register, or the constant of Type 16. -/
inductive Mover
  | reg (u : UReg)
  | imm (v : Word)
  deriving DecidableEq, Repr

/-- One data move of R505. `slot` numbers the free values it may draw, `gate` is the condition of the instruction, `through` the
cache lines that a Type 1 instruction misses over both buses (R362). -/
structure Move where
  pm : Bool
  addr : Addr
  store : Bool
  what : Mover
  size : Size := .none
  ex : Bool := false
  dual : Bool := false
  slot : Nat := 3
  gate : Cond := .true_
  through : List Nat := []
  deriving DecidableEq, Repr

/-- Bit-reverse mode applies to index register `a` (R281). -/
def State.reversed (s : State) (a : RegNo) : Bool := (a == 0#4 && s.mode .br0) || (a == 8#4 && s.mode .br8)

/-- `bitrev_if` (R281). -/
def State.present (s : State) (a : RegNo) (v : Word) : Word := if s.reversed a then v.reverse else v

/-- The power of two by which a size scales in byte space (R276). -/
def sizeScale : Size → Nat
  | .bw | .bwse => 0
  | .sw | .swse => 1
  | _ => 2

/-- The scale of a modifier for index register `a`: none outside byte space (R276). -/
def State.scaleFor (s : State) (a : RegNo) (sc : Nat) : Nat :=
  if spaceOf (s.present a (s.ireg a)) = some .bw then sc else 0

/-- `mod'` of R276: an exact integer; the reversed shift is logical (D16). -/
def State.scaledMod (s : State) (a : RegNo) (md : Word) (sc : Nat) : Int :=
  if s.reversed a && sc != 0 then ((md >>> sc).toNat : Int) else md.toInt * 2 ^ sc

/-- `len'` of R276. -/
def State.scaledLen (s : State) (a : RegNo) (sc : Nat) : Nat :=
  if s.reversed a then (s.lreg a >>> sc).toNat else (s.lreg a).toNat * 2 ^ sc

/-- `wrap` of R274 on exact integers (D16), and whether a wrap branch was taken (R286). -/
def circWrap (b : Word) (len : Nat) (t : Int) : Word × Bool :=
  if (b.toNat : Int) + len ≤ t then (BitVec.ofInt 32 (t - len), true)
  else if t < (b.toNat : Int) then (BitVec.ofInt 32 (t + len), true)
  else (BitVec.ofInt 32 t, false)

/-- The modified value of index register `a` (R273, R278); `circ`: circular buffering is on. -/
def State.modified (s : State) (a : RegNo) (md : Word) (sc : Nat) (circ : Bool) : Word × Bool :=
  let t : Int := (s.ireg a).toNat + s.scaledMod a md sc
  if circ then circWrap (s.breg a) (s.scaledLen a sc) t else (BitVec.ofInt 32 t, false)

/-- The legality of a size in a space (R265). -/
def sizeLegal : Size → Option Space → Bool
  | .none, _ => true
  | .lw, sp => sp != some .sw
  | _, sp => sp == some .bw || sp == none

/-- The write of an index register an access makes, and whether it wrapped. -/
structure IndexWrite where
  a : RegNo
  value : Word
  wrapped : Bool
  deriving DecidableEq, Repr

/-- An access with its address resolved. -/
structure Resolved where
  ea : Word
  size : Size
  iladi : Bool
  update : Option IndexWrite
  deriving DecidableEq, Repr

/-- Steps 2, 3 and 5 of R505: space, legality, scaling, effective address and index update. An illegal size latches ILADI,
is dropped, and nothing is scaled (R266). -/
def State.resolve (s : State) (m : Move) : Res Resolved :=
  match m.addr with
  | .direct ea =>
    let ok := sizeLegal m.size (spaceOf ea)
    .ok { ea := ea, size := if ok then m.size else .none, iladi := !ok, update := none }
  | .post a md =>
    let ea := s.present a (s.ireg a)
    let ok := sizeLegal m.size (spaceOf ea)
    let w := s.modified a md (if ok then s.scaleFor a (sizeScale m.size) else 0) (s.mode .cbufen)
    .ok { ea := ea, size := if ok then m.size else .none, iladi := !ok, update := some ⟨a, w.1, w.2⟩ }
  | .pre a md =>
    let base := s.ireg a
    let ea := s.present a (BitVec.ofInt 32 (base.toNat + s.scaledMod a md (s.scaleFor a (sizeScale m.size))))
    let ok := sizeLegal m.size (spaceOf ea)
    let ea' := if ok then ea else s.present a (base + md)
    match spaceOf (s.present a base) with
    | none => .ok { ea := ea', size := if ok then m.size else .none, iladi := !ok, update := none }
    | some sp =>
      if spaceOf ea' = some sp then .ok { ea := ea', size := if ok then m.size else .none, iladi := !ok, update := none }
      else refuse .preModifyLeavesSpace

/-! ### The accessed element (R262, R263, R306 to R314) -/

/-- A data register or constant: what a block in 48-bit mode moves with 40 bits (R263, R268, R626). -/
def Mover.isData : Mover → Bool
  | .reg u => (dregOf u).isSome
  | .imm _ => true

/-- The register takes part in SIMD transfers (R291); a constant does (R626). -/
def Mover.hasComp : Mover → Bool
  | .reg u => (compOf u).isSome
  | .imm _ => true

/-- The access size (R263, R303). -/
def Mover.width (x : Mover) (sz : Size) (sp : Space) (imdw : Bool) : Width :=
  match sp, sz with
  | .lw, _ => .w64
  | _, .lw => .w64
  | .bw, .bw | .bw, .bwse => .w8
  | .bw, .sw | .bw, .swse => .w16
  | .sw, _ => .w16
  | _, _ => if x = .reg .px then .w48 else if x.isData && imdw then .w40 else .w32

/-- The boundary, in units of the space, that R299 and Table 6-13 (R306) ask of an access; 1 for none. `pair`: a SIMD
access; `ex`: an exclusive one. -/
def boundary (sp : Space) (w : Width) (ex pair : Bool) : Nat :=
  match sp, w with
  | .nw, .w64 => 2
  | .bw, .w8 => if ex && pair then 2 else 1
  | .bw, .w16 => if ex then (if pair then 4 else 2) else 1
  | .bw, .w32 => if ex then (if pair then 8 else 4) else if pair then 4 else 1
  | .bw, .w40 => 4
  | .bw, .w64 => 8
  | _, _ => 1

/-- One element of an access: its region, its first physical byte and its width. -/
structure Element where
  region : Region
  phys : Nat
  width : Width
  deriving DecidableEq, Repr

/-- The element of width `w` at unit offset `off` of a region: it must lie inside the region (R341), outside the storage of a
cache (R382), inside L1 in the window after a store to SHL1C_CFG or SHL1C_CFG2, and where no range of the caches breaks the
restrictions (R372). -/
def State.element (s : State) (ea : Word) (r : Region) (off : Nat) (w : Width) : Res Element :=
  let p := physOf r off w (s.imdw r)
  if r.phys + r.bytes < p + w.bytes then .error (.fault (.busHang ea.toNat))
  else if s.inCache p || s.inCache (p + w.bytes - 1) then refuse (.cacheStorage ea.toNat)
  else if s.seq.cacheHold ≠ 0 ∧ isL1 r.target = false then refuse (.cacheRestriction ea.toNat)
  else if s.rangeStop r.target then refuse (.cacheRestriction ea.toNat)
  else .ok ⟨r, p, w⟩

/-- The element of width `w` at an address: the implicit location of a SIMD access (R292), which is no memory-mapped
register (R270, R320, U44). -/
def State.elementAt (s : State) (ea : Word) (w : Width) : Res Element :=
  if inCmmrRange ea.toNat then refuse (.mmrAccessForm ea.toNat)
  else
    match locate ea.toNat with
    | none => .error (.fault (.busHang ea.toNat))
    | some l => if l.region.target = .smmr then refuse (.mmrAccessForm ea.toNat) else s.element ea l.region l.off w

/-- A target behind the system crossbar that is no memory of this model (R346). -/
def isSystem : Target → Bool
  | .smmr | .device => true
  | .l1 _ | .l2 | .l3 => false

/-- The access goes through to the memory on a miss: an exclusive one, and a Type 1 instruction that misses a line over both
buses (R362, R363). -/
def Move.goesThrough (m : Move) (line : Nat) : Bool := m.ex || m.through.contains line

/-- What an element reads (R257): 0 while its block sleeps (R325), the zeros that a cache line came or comes with (R378), the
answer of a target behind the crossbar (R346). -/
def State.readElement (s : State) (m : Move) (e : Element) (slot : Nat) : Nat :=
  let n := e.width.bytes
  if isSystem e.region.target then (sysRead (s.slot slot) s.bus e.phys n).toNat
  else if !s.blockReads e.region then 0
  else if s.mayZero e.region e.phys || s.mayZero e.region (e.phys + n - 1) then
    s.mem.readSome (fun p => s.zeroByte (dataCache m.pm) e.region (m.goesThrough (lineOf p)) p) e.phys n
  else s.mem.readLE e.phys n

/-- `k` of R292. -/
def implicitStep (sp : Space) (w : Width) : Word :=
  match sp with
  | .sw => 2#32
  | .bw => BitVec.ofNat 32 w.bytes
  | _ => 1#32

/-! ### What a move does -/

/-- Bytes a move stores, and the cache lines it uses for them. -/
structure Stored where
  elem : Element
  value : Nat
  uses : List LineUse
  deriving DecidableEq, Repr

/-- Everything a move does, computed from the state before the instruction. -/
structure Fx where
  update : Option IndexWrite := none
  regs : List (UReg × RegVal) := []
  /-- The loads are one 64-bit unit (R302). -/
  long : Bool := false
  stores : List Stored := []
  mmr : Option (CoreMmr × Word) := none
  touched : List Target := []
  iladi : Bool := false
  iira : Bool := false
  u64ma : Bool := false
  /-- AZ of an element after an exclusive access: `true` for PEy (R334). -/
  az : List (Bool × Bool) := []
  /-- The granule that an exclusive load marks (R337). -/
  monitor : Option Nat := none
  /-- The reads it presents on the system crossbar, newest first (R346). -/
  bus : List BusEvent := []
  /-- The cache lines its loads use (R360, R361). -/
  lines : List LineUse := []
  /-- It accesses a cache register (R372). -/
  near : Bool := false
  hits : BitVec 3 := 0#3
  deriving DecidableEq, Repr

/-- The registers a move writes. -/
def Fx.dests (f : Fx) : List UReg := f.regs.map Prod.fst

/-- 32 bits from an 8- or 16-bit datum (R264, R267). -/
def extend (n : Nat) (sgn : Bool) (v : Nat) : Word :=
  if sgn then (BitVec.ofNat n v).signExtend 32 else (BitVec.ofNat n v).setWidth 32

/-- A sub-word load sign-extends: by its modifier in byte space, where "the sign extension mode bit is ignored", by MODE1.SSE
in short-word space (R264, R267; R178 words it otherwise, log 66). -/
def State.signed (s : State) (sp : Space) (sz : Size) : Bool :=
  match sp with
  | .bw => sz == .bwse || sz == .swse
  | _ => s.mode .sse

/-- What a load of at most 48 bits brings to register `u` (R267, R268, R303). A sub-word load of PX is a free value. -/
def State.loadVal (s : State) (u : UReg) (w : Width) (sgn : Bool) (v slot : Nat) : RegVal :=
  match u, w with
  | .px, .w48 => .w64 (BitVec.ofNat 48 v ++ 0#16)
  | .px, _ => .w64 (freeLong (s.slot slot))
  | _, .w8 => .w32 (extend 8 sgn v)
  | _, .w16 => .w32 (extend 16 sgn v)
  | _, .w40 => .w40 (BitVec.ofNat 40 (v / 256))
  | _, _ => .w32 (BitVec.ofNat 32 v)

/-- What a store of at most 48 bits takes from register `u` (R267, R268, R303, R626). -/
def State.storeVal (s : State) (x : Mover) (w : Width) (slot : Nat) : Nat :=
  match x, w with
  | .imm v, .w40 => v.toNat * 0x10000
  | .imm v, _ => v.toNat
  | .reg .px, .w48 => (s.data.px.extractLsb' 16 48).toNat
  | .reg .px, _ => (freeLong (s.slot slot)).toNat
  | .reg u, .w40 =>
    match dregOf u with
    | some (y, n) => (s.dreg y n).toNat * 256
    | none => (s.readU u).toNat
  | .reg u, _ => (s.readU u).toNat

/-- The registers of a 64-bit load and their values: a pair of data registers, a DAG register and its neighbour, PX whole,
a paired system register (its complement in SIMD mode only), any other register from bits 31:0
(R298, R300, R301, R303). -/
def State.loadLong (s : State) (u : UReg) (x : Long) : List (UReg × RegVal) :=
  let lo : RegVal := .w32 (x.truncate 32)
  let hi : RegVal := .w32 (x.extractLsb' 32 32)
  match u with
  | .r n => [(.r (n &&& 14#4), lo), (.r (n ||| 1#4), hi)]
  | .s n => [(.s (n &&& 14#4), lo), (.s (n ||| 1#4), hi)]
  | .i n => [(.i n, lo), (.i (n ^^^ 1#4), hi)]
  | .m n => [(.m n, lo), (.m (n ^^^ 1#4), hi)]
  | .l n => [(.l n, lo), (.l (n ^^^ 1#4), hi)]
  | .b n => [(.b n, lo), (.b (n ^^^ 1#4), hi)]
  | .px => [(.px, .w64 x)]
  | u =>
    match compOf u with
    | some c => if s.simd then [(u, lo), (c, hi)] else [(u, lo)]
    | none => [(u, lo)]

/-- What a 64-bit store takes: a pair, PX whole, a single register replicated, or a constant under zeros (R298, R300, R301, R303,
R626; that the constant is not replicated, as R301 has it, is D32; log 18). -/
def State.storeLong (s : State) (x : Mover) : Long :=
  match x with
  | .imm v => 0#32 ++ v
  | .reg (.r n) => s.readU (.r (n ||| 1#4)) ++ s.readU (.r (n &&& 14#4))
  | .reg (.s n) => s.readU (.s (n ||| 1#4)) ++ s.readU (.s (n &&& 14#4))
  | .reg (.i n) => s.readU (.i (n ^^^ 1#4)) ++ s.readU (.i n)
  | .reg (.m n) => s.readU (.m (n ^^^ 1#4)) ++ s.readU (.m n)
  | .reg (.l n) => s.readU (.l (n ^^^ 1#4)) ++ s.readU (.l n)
  | .reg (.b n) => s.readU (.b (n ^^^ 1#4)) ++ s.readU (.b n)
  | .reg .px => s.data.px
  | .reg u =>
    match compOf u with
    | some c => s.readU c ++ s.readU u
    | none => s.readU u ++ s.readU u

/-- The complementary mover of a SIMD transfer (R291). -/
def Mover.comp : Mover → Mover
  | .reg u => .reg ((compOf u).getD u)
  | x => x

/-- The row of R290 that governs a memory access of more than one element or under its own gate. -/
inductive Row
  /-- 64-bit access: the pair, gated by cx. -/
  | long
  /-- The explicit transfer only, gated by cx. -/
  | single
  /-- Broadcast load, gated by cx. -/
  | broadcast
  /-- SIMD: the explicit transfer gated by cx, the implicit one by cy. -/
  | pair
  /-- SIMD with an uncomplementary register: a load gated by cx or cy, a store by cx. -/
  | alone
  deriving DecidableEq, Repr

/-- A broadcast load: through I1 or I9 with its mode bit, into a data register (R296). -/
def State.isBroadcast (s : State) (m : Move) : Bool :=
  let through := match m.addr with
    | .direct _ => false
    | .post a _ | .pre a _ => (a == 1#4 && s.mode .bdcst1) || (a == 9#4 && s.mode .bdcst9)
  let data := match m.what with
    | .imm _ => false
    | x => x.isData
  !m.store && through && data

/-- The row of R290. -/
def State.row (s : State) (m : Move) (w : Width) (imdw : Bool) : Row :=
  if w = .w64 then .long
  else if w = .w40 then .single
  else if s.isBroadcast m then .broadcast
  else if !s.simd then .single
  else if m.what.hasComp then (if imdw then .single else .pair)
  else .alone

/-- The breakpoint sets of the data buses that an access of this kind hits: bit 0 PA1, 1 DA1, 2 DA2 (R1151, D56, D57). -/
def State.dataHits (s : State) (pm store : Bool) (ea : Word) : BitVec 3 :=
  let mode (lo : Nat) : Bool :=
    (store && s.gov.brkctl.getLsbD lo) || (!store && s.gov.brkctl.getLsbD (lo + 1))
  let sig (a b : Word) (neg : Nat) : Bool :=
    decide (a.toNat ≤ b.toNat) &&
      (s.gov.brkctl.getLsbD neg != decide (a.toNat ≤ ea.toNat ∧ ea.toNat ≤ b.toNat))
  if pm then (boolBit (mode 0 && sig s.gov.paStart s.gov.paEnd 10)).setWidth 3
  else
    boolBit (mode 4 && sig s.gov.daStart[1] s.gov.daEnd[1] 12) ++
      boolBit (mode 2 && sig s.gov.daStart[0] s.gov.daEnd[0] 11) ++ 0#1

/-! ### Exclusive accesses (R333 to R337) -/

/-- The granule of the monitor that a physical byte lies in. -/
def granuleOf (p : Nat) : Nat := p / exclGranule

/-- The cache lines that a move uses for an element; a store to a write-through range fills none on a miss (R363, R364). -/
def State.elementUses (s : State) (m : Move) (e : Element) : List LineUse :=
  s.usesOf (dataCache m.pm) e.region (fun line => m.goesThrough line || (m.store && s.writeThrough line)) e.phys e.width.bytes

/-- The regions that support exclusive accesses: the memories behind the system interface (R336; DESIGN CHOICE, log 15). -/
def supportsExcl : Target → Bool
  | .l2 | .l3 => true
  | .l1 _ | .smmr | .device => false

/-- The exclusive store on an element succeeds (R336, R337). -/
def State.exclHolds (s : State) (e : Element) : Bool :=
  supportsExcl e.region.target && s.excl == some (granuleOf e.phys)

/-- An exclusive access may go to this element: not to L1, not to a cacheable address (R336, U47). -/
def State.exclAllowed (s : State) (m : Move) (ea : Word) (e : Element) : Res Unit :=
  if !m.ex then .ok ()
  else
    match e.region.target with
    | .l1 _ => refuse (.exclusiveTarget ea.toNat)
    | .l2 | .l3 => refuseIf (s.cacheable m.pm e.phys) (.cacheStorage ea.toNat)
    | .smmr | .device => .ok ()

/-! ### One element of a move -/

/-- The stores of a transfer: an exclusive one that fails stores nothing (R334). -/
def State.storeFx (s : State) (m : Move) (e : Element) (y : Bool) (value : Nat) : Fx :=
  let ok := !m.ex || s.exclHolds e
  { stores := if ok then [⟨e, value, s.elementUses m e⟩] else [], touched := [e.region.target], az := if m.ex then [(y, ok)] else [] }

/-- The loads of a transfer. An exclusive one marks the granule; from a region without support for it, it fails and brings
a free value (R334, R336, U48). Of bytes in two granules the first byte's granule is marked (DESIGN CHOICE, log 15). Only the
reads that the instruction makes are presented: the speculative reads of R329 are left out, a difference from the hardware where
a target behind the crossbar notices reads (log 67). -/
def State.loadFx (s : State) (m : Move) (e : Element) (y : Bool) (slot : Nat) (regs : Nat → List (UReg × RegVal)) : Fx :=
  let ok := !m.ex || supportsExcl e.region.target
  { regs := regs (if ok then s.readElement m e slot else (freeLong (s.slot slot)).toNat), touched := [e.region.target]
    az := if m.ex then [(y, ok)] else []
    monitor := if m.ex && ok then some (granuleOf e.phys) else none
    bus := if isSystem e.region.target && ok then [.read e.phys e.width.bytes] else []
    lines := s.elementUses m e }

/-- The effects of a single transfer between mover `x` and element `e`; `y` for the implicit one, whose exclusive result
goes to ASTATY (R334). -/
def State.transfer (s : State) (m : Move) (x : Mover) (e : Element) (sgn y : Bool) (slot : Nat) : Fx :=
  if m.store then s.storeFx m e y (s.storeVal x e.width slot)
  else
    match x with
    | .imm _ => {}
    | .reg u => s.loadFx m e y slot fun v => [(u, s.loadVal u e.width sgn v slot)]

/-- The effects of a 64-bit transfer (R298 to R304); a broadcast load fills both complementary pairs (R296). -/
def State.transferLong (s : State) (m : Move) (e : Element) (slot : Nat) : Fx :=
  if m.store then s.storeFx m e false (s.storeLong m.what).toNat
  else
    match m.what with
    | .imm _ => {}
    | .reg u =>
      { s.loadFx m e false slot fun v =>
          let x : Long := BitVec.ofNat 64 v
          s.loadLong u x ++ if s.isBroadcast m then s.loadLong ((compOf u).getD u) x else [] with long := true }

/-- The move reaches memory or a memory-mapped register. -/
def Fx.performed (f : Fx) : Bool := !f.touched.isEmpty || f.mmr.isSome || !f.regs.isEmpty

/-- Two transfers of one move together. Each exclusive half tests the mark as the instruction found it, and of two granules
that a load marks the implicit half's is kept (DESIGN CHOICE, log 15). The explicit half comes first on the bus: R349 finds no order
of the two stated (DESIGN CHOICE, log 42). -/
def Fx.both (f g : Fx) : Fx :=
  { regs := f.regs ++ g.regs, stores := f.stores ++ g.stores, touched := f.touched ++ g.touched, az := f.az ++ g.az
    monitor := g.monitor <|> f.monitor, bus := g.bus ++ f.bus, lines := f.lines ++ g.lines }

/-- A broadcast load: the register and its complement take the same datum (R296). An exclusive one is one access and gives its
result to ASTATX.AZ alone, in SIMD mode too (R334 speaks of an implicit access; DESIGN CHOICE, log 15). -/
def State.transferBroadcast (s : State) (m : Move) (e : Element) (sgn : Bool) (slot : Nat) : Fx :=
  let f := s.transfer m m.what e sgn false slot
  { f with regs := f.regs ++ f.regs.map fun p => ((compOf p.1).getD p.1, p.2) }

/-- The effects of the explicit transfer of a row. -/
def State.rowFx (s : State) (m : Move) (row : Row) (sgn : Bool) (e : Element) : Fx :=
  match row with
  | .long => s.transferLong m e m.slot
  | .broadcast => s.transferBroadcast m e sgn m.slot
  | .single | .pair | .alone => s.transfer m m.what e sgn false m.slot

/-- The gate of the explicit transfer (R505 step 4). -/
def explicitGate (row : Row) (store cx cy : Bool) : Bool :=
  match row with
  | .alone => cx || (cy && !store)
  | .long | .single | .broadcast | .pair => cx

/-- One transfer under its gate: a location is looked at only for a transfer that is made (R293, R505). -/
def State.gated (s : State) (m : Move) (ea : Word) (go : Bool) (r : Res Element) (f : Element → Fx) : Res Fx :=
  if go then
    match r with
    | .error x => .error x
    | .ok e =>
      match s.exclAllowed m ea e with
      | .error x => .error x
      | .ok () => .ok (f e)
  else .ok {}

/-- A move as it reaches a target: with an I/O register the combined PX moves as its half PX1 (R58). Multi-memory space, which
is other cores' memory, counts as a target of I/O registers here (DESIGN CHOICE, log 16). -/
def Move.at (m : Move) (t : Target) : Move := if isSystem t ∧ m.what = .reg .px then { m with what := .reg .px1 } else m

/-- The size of an access as it reaches a target: with an I/O register PX moves 32 bits, whatever the size (R58). -/
def Move.sizeAt (m : Move) (t : Target) (z : Size) : Size := if isSystem t ∧ m.what = .reg .px then .none else z

/-- The transfers of an access to location `l` of a memory or of the system crossbar (R505 step 4). A system memory-mapped
register takes 32-bit single accesses only, and sets IIRA (R270, R339, R1235, U44). -/
def State.memoryFx (s : State) (m : Move) (q : Resolved) (l : Loc) (cx cy : Bool) : Res Fx :=
  let sp := l.region.space
  let imdw := s.imdw l.region
  let mv := m.at l.region.target
  let w := mv.what.width (m.sizeAt l.region.target q.size) sp imdw
  let row := s.row m w imdw
  let b := boundary sp w m.ex (row == .pair)
  let sgn := s.signed sp q.size
  let go := explicitGate row m.store cx cy
  let smmr := l.region.target == .smmr
  if smmr && (go || (row == .pair && cy)) && (m.dual || q.size != .none || w != .w32 || row == .pair) then refuse (.mmrAccessForm q.ea.toNat)
  else
    match s.gated m q.ea go (s.element q.ea l.region (l.off - l.off % b) w) (s.rowFx mv row sgn) with
    | .error e => .error e
    | .ok f =>
      let fin (f : Fx) : Fx := { f with u64ma := l.off % b != 0, iira := smmr && go && s.sys.mode2.getLsbD 20 }
      if row = .pair then
        match s.gated m q.ea cy (s.elementAt (q.ea - BitVec.ofNat 32 (l.off % b) + implicitStep sp w) w)
            fun e => s.transfer m m.what.comp e sgn true (m.slot + 1) with
        | .error e => .error e
        | .ok g => .ok (fin (f.both g))
      else .ok (fin f)

/-- An access outside the memories makes its transfer (R290, R505): the row of a location that has no width of its own. -/
def State.reaches (s : State) (m : Move) (q : Resolved) (cx cy : Bool) : Bool :=
  if q.size = .lw || s.isBroadcast m then cx
  else if s.simd && m.what.hasComp then cx || cy
  else cx || (cy && !m.store)

/-- An access to a core memory-mapped register: 32 bits, a single transfer (R270, R320, R339, U44). An exclusive one fails, as
this region has no support for it (R334, R336, U48). -/
def State.mmrFx (s : State) (m : Move) (q : Resolved) (cx cy : Bool) : Res Fx :=
  let bc := s.isBroadcast m
  let loads (u : UReg) (v : Word) : List (UReg × RegVal) :=
    let u' := if u = .px then .px1 else u
    (u', .w32 v) :: (if bc then [((compOf u').getD u', .w32 v)] else [])
  if !s.reaches m q cx cy then .ok {}
  else if m.dual || q.size != .none || (s.simd && m.what.hasComp && !bc) then refuse (.mmrAccessForm q.ea.toNat)
  else if m.ex then
    .ok { iira := s.sys.mode2.getLsbD 20, near := ((mmrAt q.ea.toNat).map CoreMmr.isCache).getD false, az := [(false, false)]
          regs := match m.store, m.what with
            | false, .reg u => loads u ((freeLong (s.slot m.slot)).truncate 32)
            | _, _ => [] }
  else
    match mmrAt q.ea.toNat with
    | none => refuse (.noSuchMmr q.ea.toNat)
    | some r =>
      let v := match m.what with
        | .imm v => v
        | .reg u => s.readU u
      match s.mmrRefusal m.pm (m.gate != .true_) m.store r q.ea.toNat v with
      | some x => refuse x
      | none =>
        let f : Fx := { iira := s.sys.mode2.getLsbD 20, near := r.isCache }
        match m.store, m.what with
        | true, _ => .ok { f with mmr := some (r, v) }
        | false, .imm _ => .ok f
        | false, .reg u => .ok { f with regs := loads u (s.readMmr r) }

/-- `Move` of R505 and `MoveDirect` of R621, as effects. The breakpoint unit compares the explicit address of a move that makes a
transfer, also where that is the implicit one alone (R1151 does not say; DESIGN CHOICE, log 39). -/
def State.moveFx (s : State) (m : Move) (cx cy : Bool) : Res Fx :=
  if !(cx || cy) then .ok {}
  else
    match s.resolve m with
    | .error e => .error e
    | .ok q =>
      let access : Res Fx :=
        if inCmmrRange q.ea.toNat then s.mmrFx m q cx cy
        else
          match locate q.ea.toNat with
          | none => if s.reaches m q cx cy then .error (.fault (.busHang q.ea.toNat)) else .ok {}
          | some l => s.memoryFx m q l cx cy
      match access with
      | .error e => .error e
      | .ok f => .ok { f with update := q.update, iladi := q.iladi, hits := if f.performed then s.dataHits m.pm m.store q.ea else 0#3 }

/-! ### Putting the effects into the state -/

/-- A store drops the exclusive monitor's mark when it touches the granule (R337). -/
def dropMonitor (g : Option Nat) (p n : Nat) : Option Nat :=
  match g with
  | none => none
  | some k => if p < (k + 1) * exclGranule ∧ k * exclGranule < p + n then none else some k

/-- The bytes of a store reach memory, unless the block sleeps or is shut down (R324), or the target behind the system
crossbar (R346). Later fetches of them need a flush sequence (R328). -/
def State.applyStore (s : State) (t : Stored) : State :=
  let n := t.elem.width.bytes
  let p := t.elem.phys
  let c := s.useLines t.uses s.cache
  if isSystem t.elem.region.target then
    { s with bus := .write p n (t.value % 256 ^ n) :: s.bus, excl := dropMonitor s.excl p n }
  else
    { s with
      mem := if s.blockWrites t.elem.region then ((s.zerosOut c t.uses s.mem).writeLE p t.value n).note p n else s.mem
      cache := s.noteBytes t.uses p n c
      excl := dropMonitor s.excl p n }

/-- The index update of a post-modify or MODIFY; a wrap of I7 or I15 sets the sticky bit and latches the interrupt
(R286). -/
def State.applyIndex (s : State) (w : IndexWrite) : State :=
  let s1 := s.setI w.a w.value
  if w.wrapped then
    if w.a = 7#4 then (s1.stick 17).raise .cb7i
    else if w.a = 15#4 then (s1.stick 18).raise .cb15i
    else s1
  else s1

/-- AZ of an element after an exclusive access (R334). -/
def State.applyAz (s : State) (p : Bool × Bool) : State :=
  if p.1 then { s with sys := { s.sys with astaty := putBit s.sys.astaty 0 p.2 } }
  else { s with sys := { s.sys with astatx := putBit s.sys.astatx 0 p.2 } }

/-- The latches of an access (R311, R338, R339). A forced alignment sets U64MA whatever MODE2.U64MAE, which decides on the
interrupt (R311, U43; log 17). -/
def State.applyLatches (s : State) (f : Fx) : State :=
  let s1 := s.raiseIf f.iladi .iladi
  let s2 := if f.iira then (s1.stick 19).raise .iicdi else s1
  if f.u64ma then (s2.stick 20).raiseIf (s2.sys.mode2.getLsbD 21) .iicdi else s2

/-- The index update, or the state as it is. -/
def State.applyUpdate (s : State) (w : Option IndexWrite) : State :=
  match w with
  | none => s
  | some x => s.applyIndex x

/-- The registers of a move. -/
def State.applyRegs (s : State) (l : List (UReg × RegVal)) : State := l.foldl (fun t p => t.writeVal p.1 p.2) s

/-- Memory, memory-mapped registers, the crossbar, exclusive monitor and breakpoint hits of a move, and AZ of an exclusive
load or store, which beats a value that the same move loads into ASTATX or ASTATY (R80; DESIGN CHOICE, log 50). -/
def State.applyMemory (s : State) (f : Fx) : State :=
  let s1 := f.stores.foldl State.applyStore s
  let s2 : State := { s1 with
    mem := f.touched.foldl s1.touch s1.mem
    cache := { s.useLines f.lines s1.cache with near := if f.near then 13 else s1.cache.near }
    excl := f.monitor <|> s1.excl
    bus := f.bus ++ s1.bus
    bdry := { s1.bdry with hits := s1.bdry.hits ||| f.hits } }
  let s3 := match f.mmr with
    | none => s2
    | some (r, v) => s2.writeMmr r v
  f.az.foldl State.applyAz s3

/-- One move put into the state: the load of I[a] beats its update (D27), a load of STKYX the sticky bits that its own access
sets (R80; DESIGN CHOICE, log 50). -/
def State.applyFx (s : State) (f : Fx) : State :=
  (((s.applyLatches f).applyUpdate f.update).applyRegs f.regs).applyMemory f

/-- The DM and PM moves of a Type 1 instruction: the DM load wins, and blocks a 64-bit PM load whole (R48, R302). The DM access
comes first, on the crossbar too: R349 finds no order of the two stated (DESIGN CHOICE, log 42). -/
def State.applyDual (s : State) (dm pm : Fx) : State :=
  let clash := pm.long && pm.dests.any fun u => dm.dests.contains u
  let pmRegs := if clash then [] else pm.regs
  (((((((s.applyLatches dm).applyLatches pm).applyUpdate dm.update).applyUpdate pm.update).applyRegs pmRegs).applyRegs
    dm.regs).applyMemory dm).applyMemory pm

/-! ### Register moves (R49, R56 to R59, R77, R524) -/

/-- One of the user status registers. -/
def isUstat : UReg → Bool
  | .sys .ustat1 | .sys .ustat2 | .sys .ustat3 | .sys .ustat4 => true
  | _ => false

/-- A move between universal registers with its SIMD counterpart: both with complements, or an uncomplementary source
to a complementary destination; none for an uncomplementary destination, nor for `USTATn = PX`, which loads USTATn only
(R59, R77). -/
def State.regMoveFx (s : State) (dst src : UReg) (cx cy : Bool) : Fx :=
  let x : List (UReg × RegVal) := if cx then [(dst, s.moveVal dst src)] else []
  let y : List (UReg × RegVal) :=
    match compOf dst with
    | none => []
    | some d =>
      if s.simd && cy then
        match compOf src with
        | some c => [(d, s.moveVal d c)]
        | none => if src = .px && isUstat dst then [] else [(d, s.moveVal d src)]
      else []
  { regs := x ++ y }

/-- The swap of a data register of each element (R526): one half under cx and the other under cy in SIMD mode. -/
def State.swapFx (s : State) (r c : RegNo) (cx cy : Bool) : Fx :=
  { regs := (if cx then [(.r r, .w40 (s.dreg true c))] else []) ++
      (if cy then [(.s c, .w40 (s.dreg false r))] else []) }

/-- A constant to a universal register, and to its complement in SIMD mode (R628). -/
def State.immFx (s : State) (u : UReg) (v : Word) : Fx :=
  let y : List (UReg × RegVal) :=
    match compOf u with
    | some c => if s.simd then [(c, .w32 v)] else []
    | none => []
  { regs := (u, .w32 v) :: y }

/-! ### MODIFY, B2W and W2B (R261, R278, R531, R533) -/

/-- MODIFY with a flag is legal on an index in this space (R265): (sw) in byte space only, (nw) anywhere but in long-word
and short-word space (R221, R338). An index in no populated space or at a core memory-mapped register has no column in
Table 6-12: that (nw) is legal and unscaled there, as those sentences word it, is a DESIGN CHOICE (log 59). -/
def scaleLegal : Scale → Option Space → Bool
  | .none, _ => true
  | .sw, sp => sp == some .bw
  | .nw, sp => sp != some .lw && sp != some .sw

/-- The power of two of a MODIFY flag (R276). -/
def scaleShift : Scale → Nat
  | .none => 0
  | .sw => 1
  | .nw => 2

/-- MODIFY (R278, R531): circular whatever CBUFEN says, the sum unscaled after an ILADI (R266). CB7I and CB15I need source
and destination to be the same register. -/
def State.modifyFx (s : State) (src dst : RegNo) (md : Word) (sc : Scale) (go : Bool) : Fx :=
  if go then
    let ok := scaleLegal sc (spaceOf (s.present src (s.ireg src)))
    let w := s.modified src md (if ok then s.scaleFor src (scaleShift sc) else 0) true
    { iladi := !ok, update := some ⟨dst, w.1, w.2 && dst = src⟩ }
  else {}

/-- BITREV (R280). -/
def State.bitrevFx (s : State) (src dst : RegNo) (data : Word) : Fx :=
  { update := some ⟨dst, (s.ireg src + data).reverse, false⟩ }

/-- The alias of an address in another space and whether it exists (R261). -/
def aliasAddr (a : Word) (sp : Space) : Option Word :=
  match locate a.toNat with
  | none => none
  | some l =>
    match aliasOf l.region sp with
    | none => none
    | some r =>
      let off := l.off * l.region.space.unit / sp.unit
      if off < r.count then some (BitVec.ofNat 32 (r.base + off)) else none

/-- `b2w` and `w2b` with their ILADI (R261, R265): the identity on an address already of the kind asked for; illegal in
long-word and short-word space and where no alias exists. An address in no space is left as it is, with ILADI. -/
def convert (toByte : Bool) (a : Word) : Word × Bool :=
  match spaceOf a, toByte with
  | some .bw, true => (a, false)
  | some .nw, false => (a, false)
  | some .bw, false | some .nw, true =>
    match aliasAddr a (if toByte then .bw else .nw) with
    | some b => (b, false)
    | none => (a, true)
  | _, _ => (a, true)

/-- B2W and W2B on an index or a base register; a base register does not load its index register (R261, R533). -/
def State.applyConvert (s : State) (src dst : RegNo) (toByte breg go : Bool) : State :=
  if go then
    let x := convert toByte (if breg then s.breg src else s.ireg src)
    let s1 := s.raiseIf x.2 .iladi
    if breg then s1.setBOnly dst x.1 else s1.setI dst x.1
  else s

end Sys2Proof.Machine
end

