-- ==== Sys2Proof/Machine/Multiplier.lean ====
section
/-! DEFINITION. Multiplier operations, multiplier register transfers and their compute rows (spec/47_multiplier.md). -/

namespace Sys2Proof.Machine

open Sys2Proof

/-! ### The multiplier result registers (R881, R882) -/

/-- The physical place of the name MRF (`bg = false`) or MRB: exchanged while SRCU = 1 (R882). -/
def State.mrBank (s : State) (bg : Bool) : Bool := bg ^^ s.mode .srcu

/-- `MRreg(e, b)` (R882). -/
def State.mrReg (s : State) (y bg : Bool) : Acc80 := s.data.mrPhys y (s.mrBank bg)

/-! ### Fixed-point products (R886 to R891) -/

/-- A 32-bit operand as a signed or unsigned integer (R887). -/
def opInt (sgn : Bool) (v : Word) : Int := if sgn then v.toInt else (v.toNat : Int)

/-- The product P (R887). -/
def product (m : MulMod) (x w : Word) : Acc80 :=
  let p := opInt m.xSigned x * opInt m.ySigned w
  BitVec.ofInt 80 (if m.frac && m.xSigned && m.ySigned then 2 * p else p)

/-- The result of a product is signed (R887). -/
def mulSigned (m : MulMod) : Bool := m.xSigned || m.ySigned

/-- Rounding at bit 32, ties to even (R889). -/
def roundAcc (t : Acc80) : Acc80 :=
  let h := t.extractLsb' 32 48
  let l := (t.truncate 32 : Word).toNat
  let up := decide (2 ^ 31 < l) || (l == 2 ^ 31 && h.getLsbD 0)
  (if up then h + 1#48 else h) ++ 0#32

/-- The value does not fit its format (R890). -/
def mulOverflow (frac sgn : Bool) (t : Acc80) : Bool :=
  match frac, sgn with
  | true, true => t.extractLsb' 63 17 != 0#17 && t.extractLsb' 63 17 != BitVec.allOnes 17
  | false, true => t.extractLsb' 31 49 != 0#49 && t.extractLsb' 31 49 != BitVec.allOnes 49
  | true, false => t.extractLsb' 64 16 != 0#16
  | false, false => t.extractLsb' 32 48 != 0#48

/-- A fractional result underflows (R890). -/
def mulUnderflow (frac sgn : Bool) (t : Acc80) : Bool :=
  frac && t.truncate 32 != 0#32 &&
    (t.extractLsb' 32 48 == 0#48 || (sgn && t.extractLsb' 32 48 == BitVec.allOnes 48))

/-- Flags of a fixed-point result (R890). -/
def mulFlags (frac sgn : Bool) (t : Acc80) : MulFlags :=
  { mn := t.msb, mv := mulOverflow frac sgn t, mu := mulUnderflow frac sgn t }

/-- The 32 bits an Rn destination takes (R891). -/
def accWord (frac : Bool) (t : Acc80) : Word := if frac then t.extractLsb' 32 32 else t.truncate 32

/-- A multiplier result to a data register. -/
def mulToReg (frac : Bool) (t : Acc80) (f : MulFlags) (st : Sticky) (rn : RegNo) : PeOut :=
  { units := [[(rn, reg40 (accWord frac t))]], mul := some f, sticky := st }

/-- A multiplier result to a multiplier result register. -/
def State.mulToMr (s : State) (bg : Bool) (t : Acc80) (f : MulFlags) (st : Sticky) : PeOut :=
  { mr := some (s.mrBank bg, t), mul := some f, sticky := st }

/-- The rounded value of a product, accumulation or subtraction (R888, R889). -/
def mulFinal (m : MulMod) (t : Acc80) : Acc80 := if m.round then roundAcc t else t

/-- The accumulation of R888 for a data-register result. -/
def State.accRn (s : State) (y : Bool) (acc : MulAcc) (p : Acc80) : Acc80 :=
  match acc with
  | .clear => p
  | .add bg => s.mrReg y bg + p
  | .sub bg => s.mrReg y bg - p

/-- Rn = [MR + or -] Rx * Ry MOD1 (R892, R895, R897). -/
def State.mulRn (s : State) (y : Bool) (acc : MulAcc) (m : MulMod) (rn rx ry : RegNo) : PeOut :=
  let t := mulFinal m (s.accRn y acc (product m (s.fx y rx) (s.fx y ry)))
  let f := mulFlags m.frac (mulSigned m) t
  mulToReg m.frac t f { mos := f.mv } rn

/-- MR = [MR + or -] Rx * Ry MOD1 (R893, R894, R896, R898). -/
def State.mulMr (s : State) (y bg : Bool) (acc : MrAcc) (m : MulMod) (rx ry : RegNo) : PeOut :=
  let p := product m (s.fx y rx) (s.fx y ry)
  let t := mulFinal m (match acc with
    | .clear => p
    | .add => s.mrReg y bg + p
    | .sub => s.mrReg y bg - p)
  let f := mulFlags m.frac (mulSigned m) t
  s.mulToMr bg t f { mos := f.mv }

/-- RND MR MOD3 to a data register (R899). -/
def State.rndRn (s : State) (y bg sgn : Bool) (rn : RegNo) : PeOut :=
  let t := roundAcc (s.mrReg y bg)
  let f := mulFlags true sgn t
  mulToReg true t f { mos := f.mv } rn

/-- MR = RND MR MOD3 (R899). -/
def State.rndMr (s : State) (y bg sgn : Bool) : PeOut :=
  let t := roundAcc (s.mrReg y bg)
  let f := mulFlags true sgn t
  s.mulToMr bg t f { mos := f.mv }

/-- The saturated value (R900, R902). -/
def satAcc (frac sgn : Bool) (t : Acc80) : Acc80 :=
  if mulOverflow frac sgn t then
    match frac, sgn with
    | true, true => if t.msb then 0xFFFF8000000000000000#80 else 0x00007FFFFFFFFFFFFFFF#80
    | false, true => if t.msb then 0xFFFFFFFFFFFF80000000#80 else 0x0000000000007FFFFFFF#80
    | true, false => 0x0000FFFFFFFFFFFFFFFF#80
    | false, false => 0x000000000000FFFFFFFF#80
  else t

/-- The flags of SAT (R902). -/
def satFlags (frac sgn : Bool) (t : Acc80) : MulFlags := { mn := t.msb, mu := mulUnderflow frac sgn t }

/-- Rn = SAT MR MOD2 (R901, R902). -/
def State.satRn (s : State) (y bg frac sgn : Bool) (rn : RegNo) : PeOut :=
  let t := satAcc frac sgn (s.mrReg y bg)
  mulToReg frac t (satFlags frac sgn t) {} rn

/-- MR = SAT MR MOD2 (R901, R902). -/
def State.satMr (s : State) (y bg frac sgn : Bool) : PeOut :=
  let t := satAcc frac sgn (s.mrReg y bg)
  s.mulToMr bg t (satFlags frac sgn t) {}

/-- MR = 0 (R903). -/
def State.clrMr (s : State) (bg : Bool) : PeOut := s.mulToMr bg 0#80 {} {}

/-! ### MR transfers (R905 to R907) -/

/-- Rn = MR part; MR2 is sign-extended (R906). -/
def State.readMr (s : State) (y : Bool) (part : MrPart) (rn : RegNo) : PeOut :=
  let t := s.mrReg y (match part with
    | .mr0f | .mr1f | .mr2f => false
    | .mr0b | .mr1b | .mr2b => true)
  let v : Word := match part with
    | .mr0f | .mr0b => t.truncate 32
    | .mr1f | .mr1b => t.extractLsb' 32 32
    | .mr2f | .mr2b => (t.extractLsb' 64 16).signExtend 32
  { units := [[(rn, reg40 v)]], mul := some {} }

/-- MR part = Rn; a write of MR1 is sign-extended into MR2 (R907). -/
def State.writeMr (s : State) (y : Bool) (part : MrPart) (rn : RegNo) : PeOut :=
  let bg := match part with
    | .mr0f | .mr1f | .mr2f => false
    | .mr0b | .mr1b | .mr2b => true
  let t := s.mrReg y bg
  let v := s.fx y rn
  let t' : Acc80 := match part with
    | .mr0f | .mr0b => t.extractLsb' 32 48 ++ v
    | .mr1f | .mr1b => (v.signExtend 48) ++ (t.truncate 32 : Word)
    | .mr2f | .mr2b => (v.truncate 16 : BitVec 16) ++ t.extractLsb' 0 64
  s.mulToMr bg t' {} {}

/-! ### Floating-point products (R908 to R913) -/

/-- The exact product; the sign of a NAN result is the NAN operand's, or the OR of both; an infinity times a zero is
invalid, `nan true` (R908, D45). -/
def Fl.mul : Fl → Fl → Fl
  | .nan s, .nan t => .nan (s || t)
  | .nan s, _ => .nan s
  | _, .nan t => .nan t
  | .inf _, .zero _ => .nan true
  | .zero _, .inf _ => .nan true
  | .inf s, .inf t => .inf (s ^^ t)
  | .inf s, .num t _ _ => .inf (s ^^ t)
  | .num s _ _, .inf t => .inf (s ^^ t)
  | .zero s, .zero t => .zero (s ^^ t)
  | .zero s, .num t _ _ => .zero (s ^^ t)
  | .num s _ _, .zero t => .zero (s ^^ t)
  | .num s m e, .num t n d => .num (s ^^ t) (m * n) (e + d)

/-- Flags of a floating-point product (R908). -/
def fltMulFlags (r : Rounded) (x : Fl) (sign : Bool) : MulFlags := { mn := sign, mv := r.ovf, mu := r.unf, mi := x.isNan }

/-- Sticky bits of a floating-point product (R908). -/
def fltMulSticky (r : Rounded) (x : Fl) : Sticky := { mvs := r.ovf, mus := r.unf, mis := x.isNan }

/-- Fn = Fx * Fy (R908). -/
def State.fltMul (s : State) (y : Bool) (rn rx ry : RegNo) : PeOut :=
  let x := (s.fl y rx).mul (s.fl y ry)
  let r := fmt40.round s.bound s.trunc x
  let v : Reg40 := BitVec.ofNat 40 r.bits
  let w := if x.isNan && s.mode .rnd32 then v &&& 0xFFFFFFFF00#40 else v
  { units := [[(rn, w)]], mul := some (fltMulFlags r x v.msb), sticky := fltMulSticky r x }

/-- A 64-bit product; the foreground multiplier register becomes a free value (R909, R913, U33). -/
def State.product64 (s : State) (y : Bool) (m : Pair) (x : Fl) : PeOut :=
  let r := fmt64.round 52 s.trunc x
  let v : Long := BitVec.ofNat 64 r.bits
  { units := [pairUnit m v], mul := some (fltMulFlags r x v.msb), sticky := fltMulSticky r x
    mr := some (s.mrBank false, Config.freeAcc (s.slot (1 + y.toNat))) }

/-- Fm:n = Fx:y * Fz:w (R910). -/
def State.dblMul (s : State) (y : Bool) (m x z : Pair) : PeOut := s.product64 y m ((s.dl y x).mul (s.dl y z))

/-- Fm:n = Fx:y * Fy (R911). -/
def State.dblMulFlt (s : State) (y : Bool) (m x : Pair) (ry : RegNo) : PeOut :=
  s.product64 y m ((s.dl y x).mul (s.fl y ry))

/-- Fm:n = Fx * Fy (R912). -/
def State.dblMulFlt2 (s : State) (y : Bool) (m : Pair) (rx ry : RegNo) : PeOut :=
  s.product64 y m ((s.fl y rx).mul (s.fl y ry))

/-! ### The rows of the opcode table: the computation alone (R512, log 10) -/

/-- Rn = Rx * Ry MOD1 (R892). -/
def execMulRn (mod : MulMod) (rn rx ry : RegNo) (s : State) : Host.Outcome State Fault Refusal :=
  .next (s.runAlone fun y => s.mulRn y .clear mod rn rx ry)

/-- MRF = Rx * Ry MOD1 (R893). -/
def execMulMrf (mod : MulMod) (rx ry : RegNo) (s : State) : Host.Outcome State Fault Refusal :=
  .next (s.runAlone fun y => s.mulMr y false .clear mod rx ry)

/-- MRB = Rx * Ry MOD1 (R894). -/
def execMulMrb (mod : MulMod) (rx ry : RegNo) (s : State) : Host.Outcome State Fault Refusal :=
  .next (s.runAlone fun y => s.mulMr y true .clear mod rx ry)

/-- Rn = MRF + Rx * Ry MOD1 (R895). -/
def execMacAddRnMrf (mod : MulMod) (rn rx ry : RegNo) (s : State) : Host.Outcome State Fault Refusal :=
  .next (s.runAlone fun y => s.mulRn y (.add false) mod rn rx ry)

/-- Rn = MRB + Rx * Ry MOD1 (R895). -/
def execMacAddRnMrb (mod : MulMod) (rn rx ry : RegNo) (s : State) : Host.Outcome State Fault Refusal :=
  .next (s.runAlone fun y => s.mulRn y (.add true) mod rn rx ry)

/-- MRF = MRF + Rx * Ry MOD1 (R896). -/
def execMacAddMrf (mod : MulMod) (rx ry : RegNo) (s : State) : Host.Outcome State Fault Refusal :=
  .next (s.runAlone fun y => s.mulMr y false .add mod rx ry)

/-- MRB = MRB + Rx * Ry MOD1 (R896). -/
def execMacAddMrb (mod : MulMod) (rx ry : RegNo) (s : State) : Host.Outcome State Fault Refusal :=
  .next (s.runAlone fun y => s.mulMr y true .add mod rx ry)

/-- Rn = MRF - Rx * Ry MOD1 (R897). -/
def execMacSubRnMrf (mod : MulMod) (rn rx ry : RegNo) (s : State) : Host.Outcome State Fault Refusal :=
  .next (s.runAlone fun y => s.mulRn y (.sub false) mod rn rx ry)

/-- Rn = MRB - Rx * Ry MOD1 (R897). -/
def execMacSubRnMrb (mod : MulMod) (rn rx ry : RegNo) (s : State) : Host.Outcome State Fault Refusal :=
  .next (s.runAlone fun y => s.mulRn y (.sub true) mod rn rx ry)

/-- MRF = MRF - Rx * Ry MOD1 (R898). -/
def execMacSubMrf (mod : MulMod) (rx ry : RegNo) (s : State) : Host.Outcome State Fault Refusal :=
  .next (s.runAlone fun y => s.mulMr y false .sub mod rx ry)

/-- MRB = MRB - Rx * Ry MOD1 (R898). -/
def execMacSubMrb (mod : MulMod) (rx ry : RegNo) (s : State) : Host.Outcome State Fault Refusal :=
  .next (s.runAlone fun y => s.mulMr y true .sub mod rx ry)

/-- Rn = RND MRF MOD3 (R899). -/
def execRndRnMrf (sgn : Bool) (rn : RegNo) (s : State) : Host.Outcome State Fault Refusal :=
  .next (s.runAlone fun y => s.rndRn y false sgn rn)

/-- Rn = RND MRB MOD3 (R899). -/
def execRndRnMrb (sgn : Bool) (rn : RegNo) (s : State) : Host.Outcome State Fault Refusal :=
  .next (s.runAlone fun y => s.rndRn y true sgn rn)

/-- MRF = RND MRF MOD3 (R899). -/
def execRndMrf (sgn : Bool) (s : State) : Host.Outcome State Fault Refusal :=
  .next (s.runAlone fun y => s.rndMr y false sgn)

/-- MRB = RND MRB MOD3 (R899). -/
def execRndMrb (sgn : Bool) (s : State) : Host.Outcome State Fault Refusal :=
  .next (s.runAlone fun y => s.rndMr y true sgn)

/-- Rn = SAT MRF MOD2 (R901). -/
def execSatRnMrf (frac sgn : Bool) (rn : RegNo) (s : State) : Host.Outcome State Fault Refusal :=
  .next (s.runAlone fun y => s.satRn y false frac sgn rn)

/-- Rn = SAT MRB MOD2 (R901). -/
def execSatRnMrb (frac sgn : Bool) (rn : RegNo) (s : State) : Host.Outcome State Fault Refusal :=
  .next (s.runAlone fun y => s.satRn y true frac sgn rn)

/-- MRF = SAT MRF MOD2 (R901). -/
def execSatMrf (frac sgn : Bool) (s : State) : Host.Outcome State Fault Refusal :=
  .next (s.runAlone fun y => s.satMr y false frac sgn)

/-- MRB = SAT MRB MOD2 (R901). -/
def execSatMrb (frac sgn : Bool) (s : State) : Host.Outcome State Fault Refusal :=
  .next (s.runAlone fun y => s.satMr y true frac sgn)

/-- MRF = 0 (R903). -/
def execClrMrf (s : State) : Host.Outcome State Fault Refusal :=
  .next (s.runAlone fun _ => s.clrMr false)

/-- MRB = 0 (R903). -/
def execClrMrb (s : State) : Host.Outcome State Fault Refusal :=
  .next (s.runAlone fun _ => s.clrMr true)

/-- Rn = MR0F (R906). -/
def execReadMr0f (rn : RegNo) (s : State) : Host.Outcome State Fault Refusal :=
  .next (s.runAlone fun y => s.readMr y .mr0f rn)

/-- MR0F = Rn (R907). -/
def execWriteMr0f (rn : RegNo) (s : State) : Host.Outcome State Fault Refusal :=
  .next (s.runAlone fun y => s.writeMr y .mr0f rn)

/-- Rn = MR1F (R906). -/
def execReadMr1f (rn : RegNo) (s : State) : Host.Outcome State Fault Refusal :=
  .next (s.runAlone fun y => s.readMr y .mr1f rn)

/-- MR1F = Rn (R907). -/
def execWriteMr1f (rn : RegNo) (s : State) : Host.Outcome State Fault Refusal :=
  .next (s.runAlone fun y => s.writeMr y .mr1f rn)

/-- Rn = MR2F (R906). -/
def execReadMr2f (rn : RegNo) (s : State) : Host.Outcome State Fault Refusal :=
  .next (s.runAlone fun y => s.readMr y .mr2f rn)

/-- MR2F = Rn (R907). -/
def execWriteMr2f (rn : RegNo) (s : State) : Host.Outcome State Fault Refusal :=
  .next (s.runAlone fun y => s.writeMr y .mr2f rn)

/-- Rn = MR0B (R906). -/
def execReadMr0b (rn : RegNo) (s : State) : Host.Outcome State Fault Refusal :=
  .next (s.runAlone fun y => s.readMr y .mr0b rn)

/-- MR0B = Rn (R907). -/
def execWriteMr0b (rn : RegNo) (s : State) : Host.Outcome State Fault Refusal :=
  .next (s.runAlone fun y => s.writeMr y .mr0b rn)

/-- Rn = MR1B (R906). -/
def execReadMr1b (rn : RegNo) (s : State) : Host.Outcome State Fault Refusal :=
  .next (s.runAlone fun y => s.readMr y .mr1b rn)

/-- MR1B = Rn (R907). -/
def execWriteMr1b (rn : RegNo) (s : State) : Host.Outcome State Fault Refusal :=
  .next (s.runAlone fun y => s.writeMr y .mr1b rn)

/-- Rn = MR2B (R906). -/
def execReadMr2b (rn : RegNo) (s : State) : Host.Outcome State Fault Refusal :=
  .next (s.runAlone fun y => s.readMr y .mr2b rn)

/-- MR2B = Rn (R907). -/
def execWriteMr2b (rn : RegNo) (s : State) : Host.Outcome State Fault Refusal :=
  .next (s.runAlone fun y => s.writeMr y .mr2b rn)

/-- Fn = Fx * Fy (R908). -/
def execFltMul (rn rx ry : RegNo) (s : State) : Host.Outcome State Fault Refusal :=
  .next (s.runAlone fun y => s.fltMul y rn rx ry)

/-- Fm:n = Fx:y * Fz:w (R910). -/
def execDblMul (m x z : Pair) (s : State) : Host.Outcome State Fault Refusal :=
  .next (s.runAlone fun y => s.dblMul y m x z)

/-- Fm:n = Fx:y * Fy (R911). -/
def execDblMulFlt (m x : Pair) (ry : RegNo) (s : State) : Host.Outcome State Fault Refusal :=
  .next (s.runAlone fun y => s.dblMulFlt y m x ry)

/-- Fm:n = Fx * Fy (R912). -/
def execDblMulFlt2 (m : Pair) (rx ry : RegNo) (s : State) : Host.Outcome State Fault Refusal :=
  .next (s.runAlone fun y => s.dblMulFlt2 y m rx ry)

/-- Type 2c, RN = RN * RX (SSI) (R514, R892). -/
def execShortMul (rn rx : RegNo) (s : State) : Host.Outcome State Fault Refusal :=
  .next (s.runAlone fun y => s.mulRn y .clear ⟨true, true, false, false⟩ rn rn rx)

/-- Type 2c, FN = FN * FX (R514, R908). -/
def execShortFltMul (rn rx : RegNo) (s : State) : Host.Outcome State Fault Refusal :=
  .next (s.runAlone fun y => s.fltMul y rn rn rx)

end Sys2Proof.Machine
end

