-- ==== Sys2Proof/Machine/Shifter.lean ====
section
/-! DEFINITION. Shifter operations, the bit FIFO and their compute and shift-immediate rows (spec/48_shifter.md). -/

namespace Sys2Proof.Machine

open Sys2Proof

/-! ### Shifts and rotate (R946 to R950) -/

/-- Logical shift (R946). -/
def lshiftVal (x : Word) (n : Int) : Word :=
  if 32 ≤ n ∨ n ≤ -32 then 0#32 else if 0 ≤ n then x <<< n.toNat else x >>> (-n).toNat

/-- Arithmetic shift (R948). -/
def ashiftVal (x : Word) (n : Int) : Word :=
  if 32 ≤ n then 0#32 else if 0 ≤ n then x <<< n.toNat else x.sshiftRight (min (-n).toNat 32)

/-- Rotate by n modulo 32 (R950). -/
def rotVal (x : Word) (n : Int) : Word := x.rotateLeft (n % 32).toNat

/-- A shifter result. -/
structure ShRes where
  value : Word
  flags : ShFlags
  deriving DecidableEq, Repr

/-- The result into register `n` (R941). -/
def ShRes.to (r : ShRes) (n : RegNo) : PeOut := { units := [[(n, reg40 r.value)]], sh := some r.flags }

/-- A shift: SV for a left shift, SZ for a zero result (R946, R947, D47, D48). `z` is ORed in. -/
def shiftRes (z v : Word) (n : Int) : ShRes :=
  { value := z ||| v, flags := { sv := decide (0 < n), sz := z ||| v == 0#32 } }

/-! ### Bits (R951 to R955) -/

/-- The bit position is inside the field (R951). -/
def inField (p : Int) : Bool := decide (0 ≤ p ∧ p ≤ 31)

/-- The word with the bit at position p, or 0 (R951). -/
def bitMask (p : Int) : Word := if inField p then 1#32 <<< p.toNat else 0#32

/-- A bit operation's result (R952). -/
def bitRes (v : Word) (p : Int) : ShRes := { value := v, flags := { sv := !inField p, sz := v == 0#32 } }

/-- Shift and bit operations on X, Z and an amount or position (R946 to R954). -/
def shiftVal (op : ShiftOp) (x z : Word) (n : Int) : ShRes :=
  match op with
  | .lshift => shiftRes 0#32 (lshiftVal x n) n
  | .orLshift => shiftRes z (lshiftVal x n) n
  | .ashift => shiftRes 0#32 (ashiftVal x n) n
  | .orAshift => shiftRes z (ashiftVal x n) n
  | .rot => { value := rotVal x n, flags := { sz := rotVal x n == 0#32 } }
  | .bset => bitRes (x ||| bitMask n) n
  | .bclr => bitRes (x &&& ~~~bitMask n) n
  | .btgl => bitRes (x ^^^ bitMask n) n

/-- BTST (R955). -/
def btstOut (x : Word) (p : Int) : PeOut :=
  { sh := some { sv := !inField p, sz := !(inField p && x.getLsbD p.toNat) } }

/-! ### Fields (R956 to R962) -/

/-- The low `n` bits set. -/
def lowMask (n : Nat) : Word := BitVec.ofNat 32 (2 ^ n - 1)

/-- FDEP (R957). -/
def fdepVal (x : Word) (bit len : Nat) : Word := BitVec.ofNat 32 (x.toNat % 2 ^ len * 2 ^ bit)

/-- FEXT (R961). -/
def fextVal (x : Word) (bit len : Nat) : Word := BitVec.ofNat 32 (x.toNat / 2 ^ bit % 2 ^ len)

/-- FDEP (SE) (R959). -/
def fdepSEVal (x : Word) (bit len : Nat) : Word :=
  if 1 ≤ len ∧ bit + len ≤ 32 ∧ x.getLsbD (len - 1) then fdepVal x bit len ||| ~~~lowMask (bit + len) else fdepVal x bit len

/-- FEXT (SE) (R962). -/
def fextSEVal (x : Word) (bit len : Nat) : Word :=
  if 1 ≤ len ∧ bit + len ≤ 32 ∧ x.getLsbD (bit + len - 1) then fextVal x bit len ||| ~~~lowMask len else fextVal x bit len

/-- Field operations on X, Z, bit6 and len6 (R956 to R962). -/
def fieldVal (op : FieldOp) (x z : Word) (bit len : Nat) : ShRes :=
  let v := match op with
    | .fdep => fdepVal x bit len
    | .orFdep => z ||| fdepVal x bit len
    | .fdepSE => fdepSEVal x bit len
    | .orFdepSE => z ||| fdepSEVal x bit len
    | .fext => fextVal x bit len
    | .fextSE => fextSEVal x bit len
  { value := v, flags := { sv := decide (32 < len + bit), sz := v == 0#32 } }

/-! ### Exponent and leading bits (R963 to R966) -/

/-- How many of the bits from bit 31 down equal `b`. -/
def leading (b : Bool) (x : Word) : Nat := ((List.range 32).reverse.takeWhile fun k => x.getLsbD k == b).length

/-- EXP (R963). -/
def expVal (x : Word) : Word := BitVec.ofInt 32 (1 - (leading x.msb x : Int))

/-- EXP and EXP (EX): `av` is ASTAT.AV for the latter, false for the former (R963, R964). -/
def expRes (x : Word) (av : Bool) : ShRes :=
  let v := if av then 1#32 else expVal x
  { value := v, flags := { ss := av ^^ x.msb, sz := v == 0#32 } }

/-- LEFTZ and LEFTO (R965, R966, D52). -/
def leadRes (n : Nat) : ShRes := { value := BitVec.ofNat 32 n, flags := { sz := n == 0, sv := n == 32 } }

/-! ### 16-bit floating point (R967 to R969) -/

/-- `v / 2^d` to nearest, ties to even, or truncated (D49). -/
def roundShift (trunc : Bool) (v d : Nat) : Nat :=
  let q := v / 2 ^ d
  let r := v % 2 ^ d
  if !trunc && decide (2 ^ d < 2 * r ∨ (2 * r = 2 ^ d ∧ q % 2 = 1 ∧ d ≠ 0)) then q + 1 else q

/-- FPACK (R968): rounded to nearest unless MODE1.TRUNCATE, as D49 decides, where the rule words it otherwise (log 64). -/
def fpackRes (x : Word) (trunc : Bool) : ShRes :=
  let e := (x.extractLsb' 23 8).toNat
  let f := (x.extractLsb' 0 23).toNat
  let h :=
    if 135 < e then 0x7FFF
    else if 120 < e then min 0x7FFF ((e - 120) * 2 ^ 11 + roundShift trunc f 12)
    else if 109 < e then roundShift trunc (2 ^ 23 + f) (133 - e)
    else 0
  { value := BitVec.ofNat 32 (x.msb.toNat * 2 ^ 15 + h), flags := { sv := decide (135 < e) } }

/-- FUNPACK (R969, D50). -/
def funpackRes (x : Word) : ShRes :=
  let pe := (x.extractLsb' 11 4).toNat
  let pf := (x.extractLsb' 0 11).toNat
  let s := (x.getLsbD 15).toNat * 2 ^ 31
  let mag :=
    if 0 < pe then (pe + 120) * 2 ^ 23 + pf * 2 ^ 12
    else if pf = 0 then 0
    else
      let n := 10 - Nat.log2 pf
      (120 - n) * 2 ^ 23 + pf * 2 ^ (n + 1) % 2 ^ 11 * 2 ^ 12
  { value := BitVec.ofNat 32 (s + mag), flags := {} }

/-- One-input shifter operations; `av` is ASTAT.AV of the element, `trunc` MODE1.TRUNCATE (R963 to R969). -/
def shift1Val (op : ShiftOp1) (x : Word) (av trunc : Bool) : ShRes :=
  match op with
  | .exp => expRes x false
  | .expEx => expRes x av
  | .leftz => leadRes (leading false x)
  | .lefto => leadRes (leading true x)
  | .fpack => fpackRes x trunc
  | .funpack => funpackRes x

/-! ### The bit FIFO (R970 to R974) -/

/-- The FIFO and pointer after an overflow or an underflow: free values (U34, log 24). -/
def State.lostFifo (s : State) : Long × BitVec 7 := (Config.freeLong (s.slot 1), (s.freeWord 1).truncate 7)

/-- BITDEP of `len` bits: a bit laid over a non-zero stale one is a free value (R971, R973, D51). -/
def State.bitdepOut (s : State) (x : Word) (len : Nat) : PeOut :=
  let w := s.data.bffwrp.toNat
  if 32 < len ∨ 64 < w + len then { fifo := some s.lostFifo, sh := some { sv := true } }
  else
    let put : Long := BitVec.ofNat 64 (x.toNat % 2 ^ len * 2 ^ (64 - w - len))
    let zone : Long := BitVec.ofNat 64 ((2 ^ len - 1) * 2 ^ (64 - w - len))
    let stale := s.data.bff &&& zone
    let v := if stale = 0#64 then s.data.bff ||| put
      else ((s.data.bff ||| put) &&& ~~~stale) ||| (Config.freeLong (s.slot 1) &&& stale)
    { fifo := some (v, BitVec.ofNat 7 (w + len)), sh := some {} }

/-- BITEXT of `len` bits; `nu`: the FIFO is not updated (R972). -/
def State.bitextOut (s : State) (nu : Bool) (rn : RegNo) (len : Nat) : PeOut :=
  let w := s.data.bffwrp.toNat
  if 32 < len ∨ w < len then
    let v := s.freeWord 2
    { units := [[(rn, reg40 v)]], fifo := some s.lostFifo, sh := some { sv := true, sz := v == 0#32 } }
  else
    let v : Word := BitVec.ofNat 32 (s.data.bff.toNat / 2 ^ (64 - len))
    { units := [[(rn, reg40 v)]]
      fifo := if nu then none else some (s.data.bff <<< len, BitVec.ofNat 7 (w - len))
      sh := some { sz := v == 0#32 } }

/-- BFFWRP = d (R973). -/
def State.setBffwrpOut (s : State) (d : BitVec 7) : PeOut :=
  { fifo := some (s.data.bff, d), sh := some { sv := decide (64 < d.toNat) } }

/-- Rn = BFFWRP (R974). -/
def State.getBffwrpOut (s : State) (rn : RegNo) : PeOut :=
  { units := [[(rn, reg40 (s.data.bffwrp.setWidth 32))]], sh := some {} }

/-- A bit-FIFO operation may run: not in SIMD mode, and a deposit or extraction not with the pointer above 64
(R970, R973, U34). -/
def State.fifoAllowed (s : State) (moves : Bool) : Res Unit :=
  if s.simd then refuse .bitFifoSimd else refuseIf (moves && decide (64 < s.data.bffwrp.toNat)) .bitFifoPointer

/-! ### Compute forms (R943, R945) -/

/-- A shift or bit operation by a register. -/
def State.shiftReg (s : State) (y : Bool) (op : ShiftOp) (rn rx ry : RegNo) : PeOut :=
  (shiftVal op (s.fx y rx) (s.fx y rn) (s.fx y ry).toInt).to rn

/-- BTST by a register. -/
def State.btstReg (s : State) (y : Bool) (rx ry : RegNo) : PeOut := btstOut (s.fx y rx) (s.fx y ry).toInt

/-- A field operation by a register: bit6 and len6 of R942. -/
def State.fieldReg (s : State) (y : Bool) (op : FieldOp) (rn rx ry : RegNo) : PeOut :=
  (fieldVal op (s.fx y rx) (s.fx y rn) ((s.fx y ry).extractLsb' 0 6).toNat ((s.fx y ry).extractLsb' 6 6).toNat).to rn

/-- A one-input operation. -/
def State.shift1Reg (s : State) (y : Bool) (op : ShiftOp1) (rn rx : RegNo) : PeOut :=
  (shift1Val op (s.fx y rx) ((s.astat y).getLsbD 1) (s.mode .truncate)).to rn

/-- BITDEP by a register. -/
def State.bitdepReg (s : State) (y : Bool) (rx ry : RegNo) : PeOut :=
  s.bitdepOut (s.fx y rx) ((s.fx y ry).extractLsb' 0 6).toNat

/-- BITEXT by a register. -/
def State.bitextReg (s : State) (y nu : Bool) (rn rx : RegNo) : PeOut :=
  s.bitextOut nu rn ((s.fx y rx).extractLsb' 0 6).toNat

/-- BFFWRP = Rn. -/
def State.setBffwrpReg (s : State) (y : Bool) (rn : RegNo) : PeOut := s.setBffwrpOut ((s.fx y rn).truncate 7)

/-! ### Immediate forms (R943, R944) -/

/-- A shift or bit operation by an 8-bit immediate. -/
def State.shiftBy (s : State) (y : Bool) (op : ShiftOp) (rn rx : RegNo) (data : Byte) : PeOut :=
  (shiftVal op (s.fx y rx) (s.fx y rn) data.toInt).to rn

/-- BTST by an immediate. -/
def State.btstBy (s : State) (y : Bool) (rx : RegNo) (data : Byte) : PeOut := btstOut (s.fx y rx) data.toInt

/-- A field operation by an immediate. -/
def State.fieldBy (s : State) (y : Bool) (op : FieldOp) (rn rx : RegNo) (bit len : BitVec 6) : PeOut :=
  (fieldVal op (s.fx y rx) (s.fx y rn) bit.toNat len.toNat).to rn

/-- BITDEP by an immediate. -/
def State.bitdepBy (s : State) (y : Bool) (rx : RegNo) (len : BitVec 12) : PeOut := s.bitdepOut (s.fx y rx) len.toNat

/-- One element's part of an immediate shift (R944). -/
def State.peShift (s : State) (y : Bool) (sh : ShiftImm) : PeOut :=
  match sh with
  | .shift op rn rx data => s.shiftBy y op rn rx data
  | .btst rx data => s.btstBy y rx data
  | .fieldOp op rn rx bit len => s.fieldBy y op rn rx bit len
  | .bitdep rx len => s.bitdepBy y rx len
  | .bitext nu rn len => s.bitextOut nu rn len.toNat
  | .setBffwrp data => s.setBffwrpOut data

/-- Whether an immediate shift that some element executes may run. -/
def State.shiftAllowed (s : State) (sh : ShiftImm) : Res Unit :=
  match sh with
  | .bitdep _ _ => s.fifoAllowed true
  | .bitext _ _ _ => s.fifoAllowed true
  | .setBffwrp _ => s.fifoAllowed false
  | _ => .ok ()

/-- `run_shiftimm` (R529, R944), gated per element. -/
def State.shiftImm (s : State) (sh : ShiftImm) (cx cy : Bool) (busy : List UReg) : Res State :=
  match (if cx || cy then s.shiftAllowed sh else .ok ()) with
  | .error e => .error e
  | .ok () => .ok (s.runPe cx cy busy fun y => s.peShift y sh)

/-- A bit-FIFO operation alone. -/
def State.runFifo (s : State) (moves : Bool) (f : Bool → PeOut) : Res State :=
  match s.fifoAllowed moves with
  | .error e => .error e
  | .ok () => .ok (s.runAlone f)

/-! ### The rows of the opcode table: the operation alone (R512, R530, log 10) -/

/-- LSHIFT by a register (R946). -/
def execLshift (rn rx ry : RegNo) (s : State) : Host.Outcome State Fault Refusal :=
  .next (s.runAlone fun y => s.shiftReg y .lshift rn rx ry)

/-- LSHIFT by an immediate (R946). -/
def execLshiftImm (rn rx : RegNo) (data : Byte) (s : State) : Host.Outcome State Fault Refusal :=
  .next (s.runAlone fun y => s.shiftBy y .lshift rn rx data)

/-- OR LSHIFT by a register (R947). -/
def execOrLshift (rn rx ry : RegNo) (s : State) : Host.Outcome State Fault Refusal :=
  .next (s.runAlone fun y => s.shiftReg y .orLshift rn rx ry)

/-- OR LSHIFT by an immediate (R947). -/
def execOrLshiftImm (rn rx : RegNo) (data : Byte) (s : State) : Host.Outcome State Fault Refusal :=
  .next (s.runAlone fun y => s.shiftBy y .orLshift rn rx data)

/-- ASHIFT by a register (R948). -/
def execAshift (rn rx ry : RegNo) (s : State) : Host.Outcome State Fault Refusal :=
  .next (s.runAlone fun y => s.shiftReg y .ashift rn rx ry)

/-- ASHIFT by an immediate (R948). -/
def execAshiftImm (rn rx : RegNo) (data : Byte) (s : State) : Host.Outcome State Fault Refusal :=
  .next (s.runAlone fun y => s.shiftBy y .ashift rn rx data)

/-- OR ASHIFT by a register (R949). -/
def execOrAshift (rn rx ry : RegNo) (s : State) : Host.Outcome State Fault Refusal :=
  .next (s.runAlone fun y => s.shiftReg y .orAshift rn rx ry)

/-- OR ASHIFT by an immediate (R949). -/
def execOrAshiftImm (rn rx : RegNo) (data : Byte) (s : State) : Host.Outcome State Fault Refusal :=
  .next (s.runAlone fun y => s.shiftBy y .orAshift rn rx data)

/-- ROT by a register (R950). -/
def execRot (rn rx ry : RegNo) (s : State) : Host.Outcome State Fault Refusal :=
  .next (s.runAlone fun y => s.shiftReg y .rot rn rx ry)

/-- ROT by an immediate (R950). -/
def execRotImm (rn rx : RegNo) (data : Byte) (s : State) : Host.Outcome State Fault Refusal :=
  .next (s.runAlone fun y => s.shiftBy y .rot rn rx data)

/-- BSET by a register (R952). -/
def execBset (rn rx ry : RegNo) (s : State) : Host.Outcome State Fault Refusal :=
  .next (s.runAlone fun y => s.shiftReg y .bset rn rx ry)

/-- BSET by an immediate (R952). -/
def execBsetImm (rn rx : RegNo) (data : Byte) (s : State) : Host.Outcome State Fault Refusal :=
  .next (s.runAlone fun y => s.shiftBy y .bset rn rx data)

/-- BCLR by a register (R953). -/
def execBclr (rn rx ry : RegNo) (s : State) : Host.Outcome State Fault Refusal :=
  .next (s.runAlone fun y => s.shiftReg y .bclr rn rx ry)

/-- BCLR by an immediate (R953). -/
def execBclrImm (rn rx : RegNo) (data : Byte) (s : State) : Host.Outcome State Fault Refusal :=
  .next (s.runAlone fun y => s.shiftBy y .bclr rn rx data)

/-- BTGL by a register (R954). -/
def execBtgl (rn rx ry : RegNo) (s : State) : Host.Outcome State Fault Refusal :=
  .next (s.runAlone fun y => s.shiftReg y .btgl rn rx ry)

/-- BTGL by an immediate (R954). -/
def execBtglImm (rn rx : RegNo) (data : Byte) (s : State) : Host.Outcome State Fault Refusal :=
  .next (s.runAlone fun y => s.shiftBy y .btgl rn rx data)

/-- BTST by a register (R955). -/
def execBtst (rx ry : RegNo) (s : State) : Host.Outcome State Fault Refusal :=
  .next (s.runAlone fun y => s.btstReg y rx ry)

/-- BTST by an immediate (R955). -/
def execBtstImm (rx : RegNo) (data : Byte) (s : State) : Host.Outcome State Fault Refusal :=
  .next (s.runAlone fun y => s.btstBy y rx data)

/-- FDEP by a register (R957). -/
def execFdep (rn rx ry : RegNo) (s : State) : Host.Outcome State Fault Refusal :=
  .next (s.runAlone fun y => s.fieldReg y .fdep rn rx ry)

/-- FDEP by an immediate (R957). -/
def execFdepImm (rn rx : RegNo) (bit6 len6 : BitVec 6) (s : State) : Host.Outcome State Fault Refusal :=
  .next (s.runAlone fun y => s.fieldBy y .fdep rn rx bit6 len6)

/-- OR FDEP by a register (R958). -/
def execOrFdep (rn rx ry : RegNo) (s : State) : Host.Outcome State Fault Refusal :=
  .next (s.runAlone fun y => s.fieldReg y .orFdep rn rx ry)

/-- OR FDEP by an immediate (R958). -/
def execOrFdepImm (rn rx : RegNo) (bit6 len6 : BitVec 6) (s : State) : Host.Outcome State Fault Refusal :=
  .next (s.runAlone fun y => s.fieldBy y .orFdep rn rx bit6 len6)

/-- FDEP (SE) by a register (R959). -/
def execFdepSE (rn rx ry : RegNo) (s : State) : Host.Outcome State Fault Refusal :=
  .next (s.runAlone fun y => s.fieldReg y .fdepSE rn rx ry)

/-- FDEP (SE) by an immediate (R959). -/
def execFdepSEImm (rn rx : RegNo) (bit6 len6 : BitVec 6) (s : State) : Host.Outcome State Fault Refusal :=
  .next (s.runAlone fun y => s.fieldBy y .fdepSE rn rx bit6 len6)

/-- OR FDEP (SE) by a register (R960). -/
def execOrFdepSE (rn rx ry : RegNo) (s : State) : Host.Outcome State Fault Refusal :=
  .next (s.runAlone fun y => s.fieldReg y .orFdepSE rn rx ry)

/-- OR FDEP (SE) by an immediate (R960). -/
def execOrFdepSEImm (rn rx : RegNo) (bit6 len6 : BitVec 6) (s : State) : Host.Outcome State Fault Refusal :=
  .next (s.runAlone fun y => s.fieldBy y .orFdepSE rn rx bit6 len6)

/-- FEXT by a register (R961). -/
def execFext (rn rx ry : RegNo) (s : State) : Host.Outcome State Fault Refusal :=
  .next (s.runAlone fun y => s.fieldReg y .fext rn rx ry)

/-- FEXT by an immediate (R961). -/
def execFextImm (rn rx : RegNo) (bit6 len6 : BitVec 6) (s : State) : Host.Outcome State Fault Refusal :=
  .next (s.runAlone fun y => s.fieldBy y .fext rn rx bit6 len6)

/-- FEXT (SE) by a register (R962). -/
def execFextSE (rn rx ry : RegNo) (s : State) : Host.Outcome State Fault Refusal :=
  .next (s.runAlone fun y => s.fieldReg y .fextSE rn rx ry)

/-- FEXT (SE) by an immediate (R962). -/
def execFextSEImm (rn rx : RegNo) (bit6 len6 : BitVec 6) (s : State) : Host.Outcome State Fault Refusal :=
  .next (s.runAlone fun y => s.fieldBy y .fextSE rn rx bit6 len6)

/-- EXP (R963). -/
def execExp (rn rx : RegNo) (s : State) : Host.Outcome State Fault Refusal :=
  .next (s.runAlone fun y => s.shift1Reg y .exp rn rx)

/-- EXP (EX) (R964). -/
def execExpEx (rn rx : RegNo) (s : State) : Host.Outcome State Fault Refusal :=
  .next (s.runAlone fun y => s.shift1Reg y .expEx rn rx)

/-- LEFTZ (R965). -/
def execLeftz (rn rx : RegNo) (s : State) : Host.Outcome State Fault Refusal :=
  .next (s.runAlone fun y => s.shift1Reg y .leftz rn rx)

/-- LEFTO (R966). -/
def execLefto (rn rx : RegNo) (s : State) : Host.Outcome State Fault Refusal :=
  .next (s.runAlone fun y => s.shift1Reg y .lefto rn rx)

/-- FPACK (R968). -/
def execFpack (rn rx : RegNo) (s : State) : Host.Outcome State Fault Refusal :=
  .next (s.runAlone fun y => s.shift1Reg y .fpack rn rx)

/-- FUNPACK (R969). -/
def execFunpack (rn rx : RegNo) (s : State) : Host.Outcome State Fault Refusal :=
  .next (s.runAlone fun y => s.shift1Reg y .funpack rn rx)

/-- BITDEP by a register (R971). -/
def execBitdep (rx ry : RegNo) (s : State) : Host.Outcome State Fault Refusal :=
  (s.runFifo true fun y => s.bitdepReg y rx ry).outcome

/-- BITDEP by an immediate (R971). -/
def execBitdepImm (rx : RegNo) (len : BitVec 12) (s : State) : Host.Outcome State Fault Refusal :=
  (s.runFifo true fun y => s.bitdepBy y rx len).outcome

/-- BITEXT by a register (R972). -/
def execBitext (rn rx : RegNo) (s : State) : Host.Outcome State Fault Refusal :=
  (s.runFifo true fun y => s.bitextReg y false rn rx).outcome

/-- BITEXT by an immediate (R972). -/
def execBitextImm (rn : RegNo) (len : BitVec 12) (s : State) : Host.Outcome State Fault Refusal :=
  (s.runFifo true fun _ => s.bitextOut false rn len.toNat).outcome

/-- BITEXT (NU) by a register (R972). -/
def execBitextNU (rn rx : RegNo) (s : State) : Host.Outcome State Fault Refusal :=
  (s.runFifo true fun y => s.bitextReg y true rn rx).outcome

/-- BITEXT (NU) by an immediate (R972). -/
def execBitextNUImm (rn : RegNo) (len : BitVec 12) (s : State) : Host.Outcome State Fault Refusal :=
  (s.runFifo true fun _ => s.bitextOut true rn len.toNat).outcome

/-- BFFWRP = Rn (R973). -/
def execSetBffwrp (rn : RegNo) (s : State) : Host.Outcome State Fault Refusal :=
  (s.runFifo false fun y => s.setBffwrpReg y rn).outcome

/-- BFFWRP = data7 (R973). -/
def execSetBffwrpImm (data : BitVec 7) (s : State) : Host.Outcome State Fault Refusal :=
  (s.runFifo false fun _ => s.setBffwrpOut data).outcome

/-- Rn = BFFWRP (R974). -/
def execGetBffwrp (rn : RegNo) (s : State) : Host.Outcome State Fault Refusal :=
  (s.runFifo false fun _ => s.getBffwrpOut rn).outcome

end Sys2Proof.Machine
end

