-- ==== Sys2Proof/Machine/Multifunction.lean ====
section
/-! DEFINITION. Multifunction computations, their compute rows, and the execution of any compute field
(spec/49_multifunction.md, spec/40_group1.md R503). -/

namespace Sys2Proof.Machine

open Sys2Proof

/-! ### Inputs (R1001, R1011) -/

/-- Multiplier X input, R3-0. -/
def mfRxm (q : MfIn) : RegNo := 0#2 ++ q.xm
/-- Multiplier Y input, R7-4. -/
def mfRym (q : MfIn) : RegNo := 1#2 ++ q.ym
/-- ALU X input, R11-8. -/
def mfRxa (q : MfIn) : RegNo := 2#2 ++ q.xa
/-- ALU Y input, R15-12. -/
def mfRya (q : MfIn) : RegNo := 3#2 ++ q.ya

/-- (SSF) and (SSFR) (R1007). -/
def ssf (round : Bool) : MulMod := ⟨true, true, true, round⟩

/-! ### The two halves (R1008, R1009) -/

/-- The ALU half of a fixed-point form. -/
def State.mfFixAlu (s : State) (y : Bool) (op : MfFixAlu) (ra : RegNo) (q : MfIn) : PeOut :=
  match op with
  | .add => (s.fixAdd y (mfRxa q) (mfRya q)).to ra
  | .sub => (s.fixSub y (mfRxa q) (mfRya q)).to ra
  | .avg => (s.fixAvg y (mfRxa q) (mfRya q)).to ra

/-- The multiplier half of a fixed-point form that writes Rm. -/
def State.mfFixMul (s : State) (y : Bool) (op : MfFixMul) (rm : RegNo) (q : MfIn) : PeOut :=
  match op with
  | .mul => s.mulRn y .clear (ssf true) rm (mfRxm q) (mfRym q)
  | .addRm => s.mulRn y (.add false) (ssf true) rm (mfRxm q) (mfRym q)
  | .subRm => s.mulRn y (.sub false) (ssf true) rm (mfRxm q) (mfRym q)

/-- The ALU half of a floating-point form. -/
def State.mfFltAlu (s : State) (y : Bool) (op : MfFltAlu) (ra : RegNo) (q : MfIn) : PeOut :=
  match op with
  | .add => (s.fltAdd y (mfRxa q) (mfRya q)).to ra
  | .sub => (s.fltSub y (mfRxa q) (mfRya q)).to ra
  | .floatBy => (s.fltFloatBy y (mfRxa q) (mfRya q)).to ra
  | .fixBy => (s.fltFixBy y (mfRxa q) (mfRya q)).to ra
  | .avg => (s.fltAvg y (mfRxa q) (mfRya q)).to ra
  | .abs => (s.fltAbs y (mfRxa q)).to ra
  | .max => (s.fltMax y (mfRxa q) (mfRya q)).to ra
  | .min => (s.fltMin y (mfRxa q) (mfRya q)).to ra

/-! ### The forms (R1008 to R1012) -/

/-- Rm = product, Ra = fixed-point ALU (R1008: M1, M3, M5). -/
def State.mfFix (s : State) (y : Bool) (mu : MfFixMul) (alu : MfFixAlu) (rm ra : RegNo) (q : MfIn) : PeOut :=
  parallelOut (s.mfFixAlu y alu ra q) (s.mfFixMul y mu rm q)

/-- MRF = MRF + or - product, Ra = fixed-point ALU (R1008: M2, M4). -/
def State.mfMac (s : State) (y : Bool) (sub : Bool) (alu : MfFixAlu) (ra : RegNo) (q : MfIn) : PeOut :=
  parallelOut (s.mfFixAlu y alu ra q) (s.mulMr y false (if sub then .sub else .add) (ssf false) (mfRxm q) (mfRym q))

/-- Fm = product, Fa = floating-point ALU (R1009). -/
def State.mfFlt (s : State) (y : Bool) (alu : MfFltAlu) (rm ra : RegNo) (q : MfIn) : PeOut :=
  parallelOut (s.mfFltAlu y alu ra q) (s.fltMul y rm (mfRxm q) (mfRym q))

/-- Rm = product, Ra = sum, Rs = difference, fixed-point (R1010). -/
def State.mfFixAddSub (s : State) (y : Bool) (rm ra rs : RegNo) (q : MfIn) : PeOut :=
  parallelOut (s.fixAddSub y ra rs (mfRxa q) (mfRya q)) (s.mulRn y .clear (ssf true) rm (mfRxm q) (mfRym q))

/-- Fm = product, Fa = sum, Fs = difference, floating-point (R1010). -/
def State.mfFltAddSub (s : State) (y : Bool) (rm ra rs : RegNo) (q : MfIn) : PeOut :=
  parallelOut (s.fltAddSub y ra rs (mfRxa q) (mfRya q)) (s.fltMul y rm (mfRxm q) (mfRym q))

/-- Fm:n = product, Fa:b = sum or difference, 64-bit (R1011, R1012). The ALU result beats the product. -/
def State.mfDbl (s : State) (y : Bool) (sub : Bool) (m a : Pair) (q : MfDblIn) : PeOut :=
  let p : Pair := 2#2 ++ q.p
  let r : Pair := 3#2 ++ q.r
  parallelOut ((if sub then s.dblSub y p r else s.dblAdd y p r).to a) (s.dblMul y m (0#2 ++ q.x) (1#2 ++ q.z))

/-! ### Any compute field (R440, R503, R721) -/

/-- One element's part of a computation. -/
def State.pe (s : State) (y : Bool) (c : Compute) : PeOut :=
  match c with
  | .none => {}
  | .fix2 op rn rx ry =>
    (match op with
      | .add => s.fixAdd y rx ry
      | .sub => s.fixSub y rx ry
      | .addCi => s.fixAddCarry y rx ry
      | .subCi => s.fixSubBorrow y rx ry
      | .avg => s.fixAvg y rx ry
      | .and => s.fixAnd y rx ry
      | .or => s.fixOr y rx ry
      | .xor => s.fixXor y rx ry
      | .min => s.fixMin y rx ry
      | .max => s.fixMax y rx ry
      | .clip => s.fixClip y rx ry : AluRes).to rn
  | .fix1 op rn rx =>
    (match op with
      | .plusCi => s.fixPlusCarry y rx
      | .plusCiMinus1 => s.fixPlusCarryMinus1 y rx
      | .inc => s.fixInc y rx
      | .dec => s.fixDec y rx
      | .neg => s.fixNeg y rx
      | .abs => s.fixAbs y rx
      | .pass => s.fixPass y rx
      | .not => s.fixNot y rx : AluRes).to rn
  | .fixComp unsigned rx ry => if unsigned then s.fixCompU y rx ry else s.fixComp y rx ry
  | .flt2 op rn rx ry =>
    (match op with
      | .add => s.fltAdd y rx ry
      | .sub => s.fltSub y rx ry
      | .absAdd => s.fltAbsAdd y rx ry
      | .absSub => s.fltAbsSub y rx ry
      | .avg => s.fltAvg y rx ry
      | .scalb => s.fltScalb y rx ry
      | .fixBy => s.fltFixBy y rx ry
      | .truncBy => s.fltTruncBy y rx ry
      | .floatBy => s.fltFloatBy y rx ry
      | .copysign => s.fltCopysign y rx ry
      | .min => s.fltMin y rx ry
      | .max => s.fltMax y rx ry
      | .clip => s.fltClip y rx ry : AluRes).to rn
  | .flt1 op rn rx =>
    (match op with
      | .neg => s.fltNeg y rx
      | .abs => s.fltAbs y rx
      | .pass => s.fltPass y rx
      | .rnd => s.fltRnd y rx
      | .mant => s.fltMant y rx
      | .logb => s.fltLogb y rx
      | .fix => s.fltFix y rx
      | .trunc => s.fltTrunc y rx
      | .float => s.fltFloat y rx
      | .recips => s.fltRecips y rx
      | .rsqrts => s.fltRsqrts y rx : AluRes).to rn
  | .fltComp rx ry => s.fltComp y rx ry
  | .dbl2 sub m x z => (if sub then s.dblSub y x z else s.dblAdd y x z).to m
  | .dblComp x z => s.dblComp y x z
  | .dbl1 op m x =>
    (match op with
      | .neg => s.dblNeg y x
      | .abs => s.dblAbs y x
      | .pass => s.dblPass y x : AluRes64).to m
  | .dblToInt trunc rn x => (if trunc then s.dblTrunc y x else s.dblFix y x).to rn
  | .dblToIntBy trunc rn x ry => (if trunc then s.dblTruncBy y x ry else s.dblFixBy y x ry).to rn
  | .dblFloat m rx => (s.dblFloat y rx).to m
  | .dblFloatBy m rx ry => (s.dblFloatBy y rx ry).to m
  | .dblFromFlt m rx => (s.dblFromFlt y rx).to m
  | .fltFromDbl rn x => (s.fltFromDbl y x).to rn
  | .dblScalb m x ry => (s.dblScalb y x ry).to m
  | .fixAddSub ra rs rx ry => s.fixAddSub y ra rs rx ry
  | .fltAddSub ra rs rx ry => s.fltAddSub y ra rs rx ry
  | .mulRn acc mod rn rx ry => s.mulRn y acc mod rn rx ry
  | .mulMr bg acc mod rx ry => s.mulMr y bg acc mod rx ry
  | .rndRn bg sgn rn => s.rndRn y bg sgn rn
  | .rndMr bg sgn => s.rndMr y bg sgn
  | .satRn bg frac sgn rn => s.satRn y bg frac sgn rn
  | .satMr bg frac sgn => s.satMr y bg frac sgn
  | .clrMr bg => s.clrMr bg
  | .readMr part rn => s.readMr y part rn
  | .writeMr part rn => s.writeMr y part rn
  | .fltMul rn rx ry => s.fltMul y rn rx ry
  | .dblMul m x z => s.dblMul y m x z
  | .dblMulFlt m x ry => s.dblMulFlt y m x ry
  | .dblMulFlt2 m rx ry => s.dblMulFlt2 y m rx ry
  | .shift op rn rx ry => s.shiftReg y op rn rx ry
  | .btst rx ry => s.btstReg y rx ry
  | .fieldOp op rn rx ry => s.fieldReg y op rn rx ry
  | .shift1 op rn rx => s.shift1Reg y op rn rx
  | .bitdep rx ry => s.bitdepReg y rx ry
  | .bitext nu rn rx => s.bitextReg y nu rn rx
  | .setBffwrp rn => s.setBffwrpReg y rn
  | .getBffwrp rn => s.getBffwrpOut rn
  | .mfFix mu alu rm ra q => s.mfFix y mu alu rm ra q
  | .mfMac sub alu ra q => s.mfMac y sub alu ra q
  | .mfFlt alu rm ra q => s.mfFlt y alu rm ra q
  | .mfFixAddSub rm ra rs q => s.mfFixAddSub y rm ra rs q
  | .mfFltAddSub rm ra rs q => s.mfFltAddSub y rm ra rs q
  | .mfDbl sub m a q => s.mfDbl y sub m a q

/-- Whether a computation that some element executes may run: the bit-FIFO operations have conditions (R970, R973). -/
def State.computeAllowed (s : State) (c : Compute) : Res Unit :=
  match c with
  | .bitdep _ _ => s.fifoAllowed true
  | .bitext _ _ _ => s.fifoAllowed true
  | .setBffwrp _ => s.fifoAllowed false
  | .getBffwrp _ => s.fifoAllowed false
  | _ => .ok ()

/-- `run_compute` (R503). -/
def State.compute (s : State) (c : Compute) (cx cy : Bool) (busy : List UReg) : Res State :=
  match (if cx || cy then s.computeAllowed c else .ok ()) with
  | .error e => .error e
  | .ok () => .ok (s.runPe cx cy busy fun y => s.pe y c)

/-! ### The rows of the opcode table: the computation alone (R512, log 10) -/

/-- Rm = Rxm * Rym (SSFR), Ra = sum (R1008). -/
def execMfMulAdd (rm ra : RegNo) (q : MfIn) (s : State) : Host.Outcome State Fault Refusal :=
  .next (s.runAlone fun y => s.mfFix y .mul .add rm ra q)

/-- Rm = Rxm * Rym (SSFR), Ra = difference (R1008). -/
def execMfMulSub (rm ra : RegNo) (q : MfIn) (s : State) : Host.Outcome State Fault Refusal :=
  .next (s.runAlone fun y => s.mfFix y .mul .sub rm ra q)

/-- Rm = Rxm * Rym (SSFR), Ra = average (R1008). -/
def execMfMulAvg (rm ra : RegNo) (q : MfIn) (s : State) : Host.Outcome State Fault Refusal :=
  .next (s.runAlone fun y => s.mfFix y .mul .avg rm ra q)

/-- Rm = MRF + Rxm * Rym (SSFR), Ra = sum (R1008). -/
def execMfMacAddRmAdd (rm ra : RegNo) (q : MfIn) (s : State) : Host.Outcome State Fault Refusal :=
  .next (s.runAlone fun y => s.mfFix y .addRm .add rm ra q)

/-- Rm = MRF + Rxm * Rym (SSFR), Ra = difference (R1008). -/
def execMfMacAddRmSub (rm ra : RegNo) (q : MfIn) (s : State) : Host.Outcome State Fault Refusal :=
  .next (s.runAlone fun y => s.mfFix y .addRm .sub rm ra q)

/-- Rm = MRF + Rxm * Rym (SSFR), Ra = average (R1008). -/
def execMfMacAddRmAvg (rm ra : RegNo) (q : MfIn) (s : State) : Host.Outcome State Fault Refusal :=
  .next (s.runAlone fun y => s.mfFix y .addRm .avg rm ra q)

/-- Rm = MRF - Rxm * Rym (SSFR), Ra = sum (R1008). -/
def execMfMacSubRmAdd (rm ra : RegNo) (q : MfIn) (s : State) : Host.Outcome State Fault Refusal :=
  .next (s.runAlone fun y => s.mfFix y .subRm .add rm ra q)

/-- Rm = MRF - Rxm * Rym (SSFR), Ra = difference (R1008). -/
def execMfMacSubRmSub (rm ra : RegNo) (q : MfIn) (s : State) : Host.Outcome State Fault Refusal :=
  .next (s.runAlone fun y => s.mfFix y .subRm .sub rm ra q)

/-- Rm = MRF - Rxm * Rym (SSFR), Ra = average (R1008). -/
def execMfMacSubRmAvg (rm ra : RegNo) (q : MfIn) (s : State) : Host.Outcome State Fault Refusal :=
  .next (s.runAlone fun y => s.mfFix y .subRm .avg rm ra q)

/-- MRF = MRF + Rxm * Rym (SSF), Ra = sum (R1008). -/
def execMfMacAddMrfAdd (ra : RegNo) (q : MfIn) (s : State) : Host.Outcome State Fault Refusal :=
  .next (s.runAlone fun y => s.mfMac y false .add ra q)

/-- MRF = MRF + Rxm * Rym (SSF), Ra = difference (R1008). -/
def execMfMacAddMrfSub (ra : RegNo) (q : MfIn) (s : State) : Host.Outcome State Fault Refusal :=
  .next (s.runAlone fun y => s.mfMac y false .sub ra q)

/-- MRF = MRF + Rxm * Rym (SSF), Ra = average (R1008). -/
def execMfMacAddMrfAvg (ra : RegNo) (q : MfIn) (s : State) : Host.Outcome State Fault Refusal :=
  .next (s.runAlone fun y => s.mfMac y false .avg ra q)

/-- MRF = MRF - Rxm * Rym (SSF), Ra = sum (R1008). -/
def execMfMacSubMrfAdd (ra : RegNo) (q : MfIn) (s : State) : Host.Outcome State Fault Refusal :=
  .next (s.runAlone fun y => s.mfMac y true .add ra q)

/-- MRF = MRF - Rxm * Rym (SSF), Ra = difference (R1008). -/
def execMfMacSubMrfSub (ra : RegNo) (q : MfIn) (s : State) : Host.Outcome State Fault Refusal :=
  .next (s.runAlone fun y => s.mfMac y true .sub ra q)

/-- MRF = MRF - Rxm * Rym (SSF), Ra = average (R1008). -/
def execMfMacSubMrfAvg (ra : RegNo) (q : MfIn) (s : State) : Host.Outcome State Fault Refusal :=
  .next (s.runAlone fun y => s.mfMac y true .avg ra q)

/-- Fm = Fxm * Fym, ALU part add (R1009). -/
def execMfFltAdd (rm ra : RegNo) (q : MfIn) (s : State) : Host.Outcome State Fault Refusal :=
  .next (s.runAlone fun y => s.mfFlt y .add rm ra q)

/-- Fm = Fxm * Fym, ALU part sub (R1009). -/
def execMfFltSub (rm ra : RegNo) (q : MfIn) (s : State) : Host.Outcome State Fault Refusal :=
  .next (s.runAlone fun y => s.mfFlt y .sub rm ra q)

/-- Fm = Fxm * Fym, ALU part floatBy (R1009). -/
def execMfFltFloatBy (rm ra : RegNo) (q : MfIn) (s : State) : Host.Outcome State Fault Refusal :=
  .next (s.runAlone fun y => s.mfFlt y .floatBy rm ra q)

/-- Fm = Fxm * Fym, ALU part fixBy (R1009). -/
def execMfFltFixBy (rm ra : RegNo) (q : MfIn) (s : State) : Host.Outcome State Fault Refusal :=
  .next (s.runAlone fun y => s.mfFlt y .fixBy rm ra q)

/-- Fm = Fxm * Fym, ALU part avg (R1009). -/
def execMfFltAvg (rm ra : RegNo) (q : MfIn) (s : State) : Host.Outcome State Fault Refusal :=
  .next (s.runAlone fun y => s.mfFlt y .avg rm ra q)

/-- Fm = Fxm * Fym, ALU part abs (R1009). -/
def execMfFltAbs (rm ra : RegNo) (q : MfIn) (s : State) : Host.Outcome State Fault Refusal :=
  .next (s.runAlone fun y => s.mfFlt y .abs rm ra q)

/-- Fm = Fxm * Fym, ALU part max (R1009). -/
def execMfFltMax (rm ra : RegNo) (q : MfIn) (s : State) : Host.Outcome State Fault Refusal :=
  .next (s.runAlone fun y => s.mfFlt y .max rm ra q)

/-- Fm = Fxm * Fym, ALU part min (R1009). -/
def execMfFltMin (rm ra : RegNo) (q : MfIn) (s : State) : Host.Outcome State Fault Refusal :=
  .next (s.runAlone fun y => s.mfFlt y .min rm ra q)

/-- Rm = Rxm * Rym (SSFR), Ra = sum, Rs = difference (R1010). -/
def execMfFixAddSub (rm ra rs : RegNo) (q : MfIn) (s : State) : Host.Outcome State Fault Refusal :=
  .next (s.runAlone fun y => s.mfFixAddSub y rm ra rs q)

/-- Fm = Fxm * Fym, Fa = sum, Fs = difference (R1010). -/
def execMfFltAddSub (rm ra rs : RegNo) (q : MfIn) (s : State) : Host.Outcome State Fault Refusal :=
  .next (s.runAlone fun y => s.mfFltAddSub y rm ra rs q)

/-- Fm:n = product, Fa:b = sum (R1011). -/
def execMfDblAdd (m a : Pair) (q : MfDblIn) (s : State) : Host.Outcome State Fault Refusal :=
  .next (s.runAlone fun y => s.mfDbl y false m a q)

/-- Fm:n = product, Fa:b = difference (R1011). -/
def execMfDblSub (m a : Pair) (q : MfDblIn) (s : State) : Host.Outcome State Fault Refusal :=
  .next (s.runAlone fun y => s.mfDbl y true m a q)

end Sys2Proof.Machine
end

