-- ==== Sys2Proof/Machine/Issue.lean ====
section
/-! DEFINITION. The parts of one instruction together: a computation or shift beside a move, and beside a branch
(spec/40_group1.md R502 to R505, spec/41_group2.md R562, R577 to R582). -/

namespace Sys2Proof

/-- (DB) among the modifiers of a jump (R577). -/
def JumpMods.delayed : JumpMods → Bool
  | .db | .dbCi | .dbLa => true
  | _ => false

/-- (LA) among them. -/
def JumpMods.aborts : JumpMods → Bool
  | .la | .dbLa => true
  | _ => false

/-- (CI) among them. -/
def JumpMods.clears : JumpMods → Bool
  | .ci | .dbCi => true
  | _ => false

/-- The kind of a Type 9b branch is delayed. -/
def BranchKind.delayed : BranchKind → Bool
  | .jump m => m.delayed
  | .call d => d

/-- The kind of a Type 11c return is delayed. -/
def ReturnKind.delayed : ReturnKind → Bool
  | .rts db _ => db
  | .rti db => db

/-- The kind of a Type 11c return is RTI. -/
def ReturnKind.isRti : ReturnKind → Bool
  | .rts _ _ => false
  | .rti _ => true

/-- The full computation a short one stands for (R447). -/
def ShortOp.compute (op : ShortOp) (rn rx : RegNo) : Compute :=
  match op with
  | .add => .fix2 .add rn rn rx
  | .sub => .fix2 .sub rn rn rx
  | .pass => .fix1 .pass rn rx
  | .comp => .fixComp false rn rx
  | .not => .fix1 .not rn rx
  | .inc => .fix1 .inc rn rx
  | .dec => .fix1 .dec rn rx
  | .mul => .mulRn .clear { ySigned := true, xSigned := true, frac := false, round := false } rn rn rx
  | .fltAdd => .flt2 .add rn rn rx
  | .fltSub => .flt2 .sub rn rn rx
  | .float => .flt1 .float rn rx
  | .fltComp => .fltComp rn rx
  | .and => .fix2 .and rn rn rx
  | .or => .fix2 .or rn rn rx
  | .xor => .fix2 .xor rn rn rx
  | .fltMul => .fltMul rn rn rx

end Sys2Proof

namespace Sys2Proof.Machine

open Sys2Proof

/-- A computation beside effects already computed from the same state; the effects win over the results (R48, R503). -/
def State.computeFx (s : State) (c : Compute) (f : Fx) (cx cy : Bool) : Res State :=
  match s.compute c cx cy f.dests with
  | .error e => .error e
  | .ok s1 => .ok (s1.applyFx f)

/-- A computation beside one data move (R505). -/
def State.computeMove (s : State) (c : Compute) (m : Move) (cx cy : Bool) : Res State :=
  match s.moveFx m cx cy with
  | .error e => .error e
  | .ok f => s.computeFx c f cx cy

/-- An immediate shift beside one data move (R529). -/
def State.shiftMove (s : State) (sh : ShiftImm) (m : Move) (cx cy : Bool) : Res State :=
  match s.moveFx m cx cy with
  | .error e => .error e
  | .ok f =>
    match s.shiftImm sh cx cy f.dests with
    | .error e => .error e
    | .ok s1 => .ok (s1.applyFx f)

/-- One data move alone. -/
def State.moveOnly (s : State) (m : Move) (cx cy : Bool) : Res State :=
  match s.moveFx m cx cy with
  | .error e => .error e
  | .ok f => .ok (s.applyFx f)

/-- The lines that a move uses and no data cache holds. -/
def State.missedLines (s : State) (f : Fx) : List Nat :=
  ((f.lines ++ f.stores.flatMap Stored.uses).filter s.cache.misses).map LineUse.line

/-- The effects of a DM and a PM move: both accesses to a line that misses over both buses go through to the memory (R362,
R363). -/
def State.dualFx (s : State) (dm pm : Move) : Res (Fx × Fx) :=
  match s.moveFx dm true true, s.moveFx pm true true with
  | .error e, _ => .error e
  | _, .error e => .error e
  | .ok f, .ok g =>
    match (s.missedLines f).filter fun line => (s.missedLines g).contains line with
    | [] => .ok (f, g)
    | both =>
      match s.moveFx { dm with through := both } true true, s.moveFx { pm with through := both } true true with
      | .error e, _ => .error e
      | _, .error e => .error e
      | .ok f', .ok g' => .ok (f', g')

/-- A computation beside a DM and a PM move (R510). A result for a register that the PM load names too is not written, even
where that 64-bit load is itself blocked whole by the DM load (R48, R302; DESIGN CHOICE, log 42). -/
def State.computeDual (s : State) (c : Compute) (dm pm : Move) : Res State :=
  match s.dualFx dm pm with
  | .error e => .error e
  | .ok (f, g) =>
    match s.compute c true true (f.dests ++ g.dests) with
    | .error e => .error e
    | .ok s1 => .ok (s1.applyDual f g)

/-- Register-modified address, in the order of the `u` bit (R515). -/
def State.regAddr (s : State) (pm post : Bool) (i m : DagNo) : Addr :=
  if post then .post (dagNo pm i) (s.mreg (dagNo pm m)) else .pre (dagNo pm i) (s.mreg (dagNo pm m))

/-- Immediate-modified address (R520, R624). -/
def immAddr (pm post : Bool) (i : DagNo) (data : Word) : Addr :=
  if post then .post (dagNo pm i) data else .pre (dagNo pm i) data

/-- The size an (LW) option names. -/
def longSize (long : Bool) : Size := if long then .lw else .none

/-- The moves of Types 1a and 1b over one bus (R510). -/
def State.dualHalf (s : State) (pm store : Bool) (i m : DagNo) (reg : RegNo) : Move :=
  { pm := pm, addr := s.regAddr pm true i m, store := store, what := .reg (.r reg), dual := true, slot := if pm then 5 else 3 }

/-- A branch instruction beside a computation or an ELSE computation: the computation first, so that what the return
pops wins (R562, R578, R581, D30). That the flags a (CI) jump pops win over the computation beside it as well is a DESIGN
CHOICE (log 62); so is that an ELSE computation under FLAG2_IN or NOT FLAG2_IN with SELPE = 1, whose branch R78 always
takes, still runs in the element that is not selected (log 60). `act` is the taken branch. -/
def State.branchCompute (s : State) (cond : Cond) (db els : Bool) (c : Compute) (act : State → Res State) : Res State :=
  match s.compute c (els != s.cx cond) (els != s.cy cond) [] with
  | .error e => .error e
  | .ok s1 => if s.taken cond then act (s1.atBranch db) else .ok (s1.atBranch db)

/-- A branch instruction alone (R577). -/
def State.branch (s : State) (cond : Cond) (db : Bool) (act : State → Res State) : Res State :=
  if s.taken cond then act (s.atBranch db) else .ok (s.atBranch db)

/-- A taken jump with its modifiers (R577). -/
def State.jumpTo (mods : JumpMods) (t : IAddr) (s : State) : Res State := s.takeJump t mods.delayed mods.aborts mods.clears

/-- A Type 9b branch taken (R579). -/
def State.branchTo (k : BranchKind) (t : IAddr) (s : State) : Res State :=
  match k with
  | .jump m => s.jumpTo m t
  | .call d => s.takeCall t d

/-- The target of a Type 9b branch (R563). -/
def State.shortTarget (s : State) : ShortTarget → IAddr
  | .indirect md ic => s.indirect md ic
  | .pcRel off => s.pcRel off

/-- Type 10a: a jump, or else a computation and a DM move in the elements whose condition is false (R580). -/
def State.jumpElse (s : State) (cond : Cond) (t : IAddr) (c : Compute) (store : Bool) (i m : DagNo) (reg : RegNo) :
    Res State :=
  let mv : Move := { pm := false, addr := s.regAddr false true i m, store := store, what := .reg (.r reg), gate := cond }
  match s.computeMove c mv (!s.cx cond) (!s.cy cond) with
  | .error e => .error e
  | .ok s1 => if s.taken cond then (s1.atBranch false).takeJump t false false false else .ok (s1.atBranch false)

/-- The core waits for an interrupt; in a delay slot it waits for ever (R568, R670). -/
def State.goIdle (s : State) : State :=
  { s with seq := { s.seq with idle := true, noIrq := if s.seq.noIrq = 0 then 0 else s.seq.noIrq + 1 } }

/-- IDLE and EMUIDLE may not stand among the last three instructions of any arithmetic loop under way (R593, U14). -/
def State.idleAllowed (s : State) : Res Unit :=
  refuseIf (s.seq.loopStk.any fun e => e.isArith && s.seq.amongLast e 3) .loopEnd

/-- RFRAME: I7 = I6 and I6 = DM(0, I6); I7 is the old I6 also where a 64-bit access loads the pair (R672, log 42). -/
def State.rframe (s : State) : Res State :=
  match s.moveFx { pm := false, addr := .pre 6#4 0#32, store := false, what := .reg (.i 6#4) } true true with
  | .error e => .error e
  | .ok f => .ok ((s.applyFx f).setI 7#4 (s.ireg 6#4))

/-- CJUMP: R2 = I6, in SIMD mode S2 = I6 as well, I6 = I7, and a delayed jump (R671). -/
def State.cjump (s : State) (t : IAddr) : Res State :=
  let s1 := s.setDreg false 2#4 (reg40 (s.ireg 6#4))
  let s2 := if s.simd then s1.setDreg true 2#4 (reg40 (s.ireg 6#4)) else s1
  ((s2.setI 6#4 (s.ireg 7#4)).atBranch true).takeJump t true false false

/-! ### Stack operations of Type 20a (R665) -/

/-- Pushes and pops of the loop stacks may not stand in a delay slot (U11). -/
def State.loopOpAllowed (s : State) : Res Unit := refuseIf (!s.seq.branches.isEmpty) .delaySlot

/-- Pushes and pops of the PC stack may stand in the slots of a CALL, pops in those of a JUMP (CI) too, and neither in those
of another branch (R568, R1060, U11). -/
def State.pcOpAllowed (s : State) (pop : Bool) : Res Unit :=
  refuseIf (s.seq.branches.any fun b => b.sort != .call && !(pop && b.sort == .jumpCi)) .delaySlot

/-- PUSH PCSTK: the new entry holds a free value. -/
def State.pushPcstkOp (s : State) : Res State :=
  match s.pcOpAllowed false with
  | .error e => .error e
  | .ok () => .ok (s.pushPc (s.freeWord 27))

/-- Loops that PUSH LOOP made have their LADDR before the PC stack is pushed for them (R666, R1230, U18). -/
def State.restoreAllowed (s : State) : Res Unit :=
  match s.seq.loopStk with
  | [] => .ok ()
  | e :: _ => refuseIf (decide (e.restored ≠ .whole)) .restoreOrder

/-- POP PCSTK. -/
def State.popPcstkOp (s : State) : Res State :=
  match s.pcOpAllowed true with
  | .error e => .error e
  | .ok () => s.popPc

/-- PUSH PCSTK in a word that does not push the loop stacks. -/
def State.pushPcstkAfter (s : State) : Res State :=
  match s.restoreAllowed with
  | .error e => .error e
  | .ok () => s.pushPcstkOp

/-- PUSH LOOP: the new loop address is a free value. `pcstk`: the word pushes the PC stack too. -/
def State.pushLoopOp (s : State) (pcstk : Bool) : Res State :=
  match s.loopOpAllowed with
  | .error e => .error e
  | .ok () => .ok (s.pushLoop (s.freeWord 26) (if pcstk then .tied else .pushed))

/-- POP LOOP. -/
def State.popLoopOp (s : State) : Res State :=
  match s.loopOpAllowed with
  | .error e => .error e
  | .ok () => s.popLoop

/-- A stack operation, if the word asks for it. -/
def Res.andIf (r : Res State) (b : Bool) (f : State → Res State) : Res State :=
  match r with
  | .error e => .error e
  | .ok s => if b then f s else .ok s

/-- One index of a cache operation: the two invalidation counters move on; a range operation runs until the count is 0
(R370, R371, R667). With the count at 0 no range operation is under way, and it stays 0 (DESIGN CHOICE, log 57). -/
def State.cacheStep (s : State) : State :=
  s.setMmrs fun m =>
    let left := if m.invCnt = 0#32 then 0#32 else m.invCnt - 1#32
    { m with invIxstart := m.invIxstart + 1#32, invCnt := left, invRuns := decide (left ≠ 0#32) }

/-! ### System register bits (R661) -/

/-- The complementary register that the Y element works on in SIMD mode. -/
def State.bitPartner (s : State) (r : SysReg) : Option SysReg :=
  if s.simd then
    match compOf (.sys r) with
    | some (.sys c) => some c
    | _ => none
  else none

/-- BIT SET, CLR and TGL: the register, and its complement in SIMD mode. -/
def State.bitWrite (s : State) (r : SysReg) (f : Word → Word) : State :=
  let s1 := s.writeSys r (f (s.readSys r))
  match s.bitPartner r with
  | some c => s1.writeSys c (f (s.readSys c))
  | none => s1

/-- BIT TST and XOR: BTF of PEx, and of PEy for the complement in SIMD mode. -/
def State.bitTest (s : State) (r : SysReg) (f : Word → Bool) : State :=
  let s1 : State := { s with sys := { s.sys with astatx := putBit s.sys.astatx 18 (f (s.readSys r)) } }
  match s.bitPartner r with
  | some c => { s1 with sys := { s1.sys with astaty := putBit s1.sys.astaty 18 (f (s.readSys c)) } }
  | none => s1

/-- BIT XOR on ASTATX or ASTATY counts as a write of the ASTAT registers whose BTF it sets (R131). -/
def State.markXor (s : State) (r : SysReg) : State :=
  if r == .astatx || r == .astaty then
    { s with bdry := { s.bdry with astatxWritten := true, astatyWritten := s.bdry.astatyWritten || (s.bitPartner r).isSome } }
  else s

end Sys2Proof.Machine
end

