-- ==== Sys2Proof/Machine/Group1.lean ====
section
/-! DEFINITION. Group I, types 1 to 7: computations beside moves and index modifications (spec/40_group1.md). -/

namespace Sys2Proof.Machine

open Sys2Proof

/-- Type 1a (R510). -/
def execComputeDualMove (c : Compute) (dmStore : Bool) (dmi dmm : DagNo) (dmReg : RegNo) (pmStore : Bool)
    (pmi pmm : DagNo) (pmReg : RegNo) (s : State) : Host.Outcome State Fault Refusal :=
  (s.computeDual c (s.dualHalf false dmStore dmi dmm dmReg) (s.dualHalf true pmStore pmi pmm pmReg)).outcome

/-- Type 2a (R512). -/
def execIfCompute (cond : Cond) (c : Compute) (s : State) : Host.Outcome State Fault Refusal :=
  (s.compute c (s.cx cond) (s.cy cond) []).outcome

/-- Type 3a, load (R515). -/
def execLoadUreg (cond : Cond) (c : Compute) (post pm : Bool) (i m : DagNo) (long : Bool) (reg : UReg) (s : State) :
    Host.Outcome State Fault Refusal :=
  (s.computeMove c { pm := pm, addr := s.regAddr pm post i m, store := false, what := .reg reg, size := longSize long, gate := cond }
    (s.cx cond) (s.cy cond)).outcome

/-- Type 3a, store (R515). -/
def execStoreUreg (cond : Cond) (c : Compute) (post pm : Bool) (i m : DagNo) (long : Bool) (reg : UReg) (s : State) :
    Host.Outcome State Fault Refusal :=
  (s.computeMove c { pm := pm, addr := s.regAddr pm post i m, store := true, what := .reg reg, size := longSize long, gate := cond }
    (s.cx cond) (s.cy cond)).outcome

/-- Type 3d, load (R518). -/
def execLoadUregSized (cond : Cond) (post pm : Bool) (i m : DagNo) (reg : UReg) (size : Size) (ex : Bool) (s : State) :
    Host.Outcome State Fault Refusal :=
  (s.moveOnly { pm := pm, addr := s.regAddr pm post i m, store := false, what := .reg reg, size := size, ex := ex, gate := cond }
    (s.cx cond) (s.cy cond)).outcome

/-- Type 3d, store (R518). -/
def execStoreUregSized (cond : Cond) (post pm : Bool) (i m : DagNo) (reg : UReg) (size : Size) (ex : Bool) (s : State) :
    Host.Outcome State Fault Refusal :=
  (s.moveOnly { pm := pm, addr := s.regAddr pm post i m, store := true, what := .reg reg, size := size, ex := ex, gate := cond }
    (s.cx cond) (s.cy cond)).outcome

/-- Type 4a, load (R520). -/
def execLoadDregImm (cond : Cond) (c : Compute) (pm : Bool) (i : DagNo) (post : Bool) (data : BitVec 6) (reg : RegNo)
    (s : State) : Host.Outcome State Fault Refusal :=
  (s.computeMove c { pm := pm, addr := immAddr pm post i (data.signExtend 32), store := false, what := .reg (.r reg), gate := cond }
    (s.cx cond) (s.cy cond)).outcome

/-- Type 4a, store (R520). -/
def execStoreDregImm (cond : Cond) (c : Compute) (pm : Bool) (i : DagNo) (post : Bool) (data : BitVec 6) (reg : RegNo)
    (s : State) : Host.Outcome State Fault Refusal :=
  (s.computeMove c { pm := pm, addr := immAddr pm post i (data.signExtend 32), store := true, what := .reg (.r reg), gate := cond }
    (s.cx cond) (s.cy cond)).outcome

/-- Type 4d, load (R522). -/
def execLoadDregImmSized (cond : Cond) (pm : Bool) (i : DagNo) (post : Bool) (data : BitVec 6) (reg : RegNo)
    (size : Size) (s : State) : Host.Outcome State Fault Refusal :=
  (s.moveOnly { pm := pm, addr := immAddr pm post i (data.signExtend 32), store := false, what := .reg (.r reg), size := size, gate := cond }
    (s.cx cond) (s.cy cond)).outcome

/-- Type 4d, store (R522). -/
def execStoreDregImmSized (cond : Cond) (pm : Bool) (i : DagNo) (post : Bool) (data : BitVec 6) (reg : RegNo)
    (size : Size) (s : State) : Host.Outcome State Fault Refusal :=
  (s.moveOnly { pm := pm, addr := immAddr pm post i (data.signExtend 32), store := true, what := .reg (.r reg), size := size, gate := cond }
    (s.cx cond) (s.cy cond)).outcome

/-- Type 5a, move (R524). -/
def execMoveUreg (cond : Cond) (c : Compute) (dst src : UReg) (s : State) : Host.Outcome State Fault Refusal :=
  (s.computeFx c (s.regMoveFx dst src (s.cx cond) (s.cy cond)) (s.cx cond) (s.cy cond)).outcome

/-- Type 5a, swap (R526). -/
def execSwapDreg (cond : Cond) (c : Compute) (reg creg : RegNo) (s : State) : Host.Outcome State Fault Refusal :=
  (s.computeFx c (s.swapFx reg creg (s.cx cond) (s.cy cond)) (s.cx cond) (s.cy cond)).outcome

/-- Type 6a with a DM load (R529). -/
def execShiftImmLoadDM (cond : Cond) (sh : ShiftImm) (i m : DagNo) (reg : RegNo) (s : State) :
    Host.Outcome State Fault Refusal :=
  (s.shiftMove sh { pm := false, addr := s.regAddr false true i m, store := false, what := .reg (.r reg), gate := cond }
    (s.cx cond) (s.cy cond)).outcome

/-- Type 6a with a DM store (R529). -/
def execShiftImmStoreDM (cond : Cond) (sh : ShiftImm) (i m : DagNo) (reg : RegNo) (s : State) :
    Host.Outcome State Fault Refusal :=
  (s.shiftMove sh { pm := false, addr := s.regAddr false true i m, store := true, what := .reg (.r reg), gate := cond }
    (s.cx cond) (s.cy cond)).outcome

/-- Type 6a with a PM load (R529). -/
def execShiftImmLoadPM (cond : Cond) (sh : ShiftImm) (i m : DagNo) (reg : RegNo) (s : State) :
    Host.Outcome State Fault Refusal :=
  (s.shiftMove sh { pm := true, addr := s.regAddr true true i m, store := false, what := .reg (.r reg), gate := cond }
    (s.cx cond) (s.cy cond)).outcome

/-- Type 6a with a PM store (R529). -/
def execShiftImmStorePM (cond : Cond) (sh : ShiftImm) (i m : DagNo) (reg : RegNo) (s : State) :
    Host.Outcome State Fault Refusal :=
  (s.shiftMove sh { pm := true, addr := s.regAddr true true i m, store := true, what := .reg (.r reg), gate := cond }
    (s.cx cond) (s.cy cond)).outcome

/-- Type 6a without memory (R530). -/
def execIfShiftImm (cond : Cond) (sh : ShiftImm) (s : State) : Host.Outcome State Fault Refusal :=
  (s.shiftImm sh (s.cx cond) (s.cy cond) []).outcome

/-- Type 7a (R531). -/
def execModify (cond : Cond) (c : Compute) (pm : Bool) (src dst m : DagNo) (scale : Scale) (s : State) :
    Host.Outcome State Fault Refusal :=
  (s.computeFx c
    (s.modifyFx (dagNo pm src) (dagNo pm dst) (s.mreg (dagNo pm m)) scale (s.cx cond || s.cy cond))
    (s.cx cond) (s.cy cond)).outcome

/-- Type 7d (R533). -/
def execConvertAddr (cond : Cond) (c : Compute) (pm : Bool) (src dst : DagNo) (toByte breg : Bool) (s : State) :
    Host.Outcome State Fault Refusal :=
  Res.outcome <|
    match s.compute c (s.cx cond) (s.cy cond) [] with
    | .error e => .error e
    | .ok s1 => .ok (s1.applyConvert (dagNo pm src) (dagNo pm dst) toByte breg (s.cx cond || s.cy cond))

end Sys2Proof.Machine
end

