-- ==== Sys2Proof/Machine/Group2.lean ====
section
/-! DEFINITION. Group II, types 8 to 13: branches, returns, loops (spec/41_group2.md). -/

namespace Sys2Proof.Machine

open Sys2Proof

/-- Type 8a, JUMP addr24 (R577). -/
def execJumpDirect (cond : Cond) (addr : IAddr) (mods : JumpMods) (s : State) : Host.Outcome State Fault Refusal :=
  (s.branch cond mods.delayed (State.jumpTo mods addr)).outcome

/-- Type 8a, JUMP (PC, reladdr24) (R577). -/
def execJumpPcRel (cond : Cond) (off : IAddr) (mods : JumpMods) (s : State) : Host.Outcome State Fault Refusal :=
  (s.branch cond mods.delayed (State.jumpTo mods (s.pcRel off))).outcome

/-- Type 8a, CALL addr24 (R577). -/
def execCallDirect (cond : Cond) (addr : IAddr) (db : Bool) (s : State) : Host.Outcome State Fault Refusal :=
  (s.branch cond db fun t => t.takeCall addr db).outcome

/-- Type 8a, CALL (PC, reladdr24) (R577). -/
def execCallPcRel (cond : Cond) (off : IAddr) (db : Bool) (s : State) : Host.Outcome State Fault Refusal :=
  (s.branch cond db fun t => t.takeCall (s.pcRel off) db).outcome

/-- Type 9a, JUMP (Md, Ic) (R578). -/
def execJumpIndirect (cond : Cond) (md ic : DagNo) (mods : JumpMods) (els : Bool) (c : Compute) (s : State) :
    Host.Outcome State Fault Refusal :=
  (s.branchCompute cond mods.delayed els c (State.jumpTo mods (s.indirect md ic))).outcome

/-- Type 9a, JUMP (PC, reladdr6) (R578). -/
def execJumpPcRel6 (cond : Cond) (off : BitVec 6) (mods : JumpMods) (els : Bool) (c : Compute) (s : State) :
    Host.Outcome State Fault Refusal :=
  (s.branchCompute cond mods.delayed els c (State.jumpTo mods (s.pcRel off))).outcome

/-- Type 9a, CALL (Md, Ic) (R578). -/
def execCallIndirect (cond : Cond) (md ic : DagNo) (db els : Bool) (c : Compute) (s : State) :
    Host.Outcome State Fault Refusal :=
  (s.branchCompute cond db els c fun t => t.takeCall (s.indirect md ic) db).outcome

/-- Type 9a, CALL (PC, reladdr6) (R578). -/
def execCallPcRel6 (cond : Cond) (off : BitVec 6) (db els : Bool) (c : Compute) (s : State) :
    Host.Outcome State Fault Refusal :=
  (s.branchCompute cond db els c fun t => t.takeCall (s.pcRel off) db).outcome

/-- Type 10a, indirect, ELSE a load (R580). -/
def execJumpIndirectElseLoad (cond : Cond) (md ic : DagNo) (c : Compute) (i m : DagNo) (reg : RegNo) (s : State) :
    Host.Outcome State Fault Refusal :=
  (s.jumpElse cond (s.indirect md ic) c false i m reg).outcome

/-- Type 10a, indirect, ELSE a store (R580). -/
def execJumpIndirectElseStore (cond : Cond) (md ic : DagNo) (c : Compute) (i m : DagNo) (reg : RegNo) (s : State) :
    Host.Outcome State Fault Refusal :=
  (s.jumpElse cond (s.indirect md ic) c true i m reg).outcome

/-- Type 10a, PC-relative, ELSE a load (R580). -/
def execJumpPcRelElseLoad (cond : Cond) (off : BitVec 6) (c : Compute) (i m : DagNo) (reg : RegNo) (s : State) :
    Host.Outcome State Fault Refusal :=
  (s.jumpElse cond (s.pcRel off) c false i m reg).outcome

/-- Type 10a, PC-relative, ELSE a store (R580). -/
def execJumpPcRelElseStore (cond : Cond) (off : BitVec 6) (c : Compute) (i m : DagNo) (reg : RegNo) (s : State) :
    Host.Outcome State Fault Refusal :=
  (s.jumpElse cond (s.pcRel off) c true i m reg).outcome

/-- Type 11a, RTS; (LR) has no effect (R576, R581). -/
def execRts (cond : Cond) (db _lr els : Bool) (c : Compute) (s : State) : Host.Outcome State Fault Refusal :=
  (s.branchCompute cond db els c fun t => t.takeReturn false db).outcome

/-- Type 11a, RTI (R581). -/
def execRti (cond : Cond) (db els : Bool) (c : Compute) (s : State) : Host.Outcome State Fault Refusal :=
  (s.branchCompute cond db els c fun t => t.takeReturn true db).outcome

/-- LCNTR takes the count, then the counter loop starts (R583, R584). -/
def State.doCounter (s : State) (count : Word) (off : BitVec 23) (f1 : Bool) : Res State :=
  ({ s with seq := s.seq.setLcntr count } : State).startLoop (s.pcRel off) 0b01111#5 f1

/-- Type 12a with an immediate count (R583). -/
def execDoCounterImm (count : Parcel) (off : BitVec 23) (f1 : Bool) (s : State) : Host.Outcome State Fault Refusal :=
  (s.doCounter (count.setWidth 32) off f1).outcome

/-- Type 12a with the count in a register (R584). -/
def execDoCounterUreg (reg : UReg) (off : BitVec 23) (f1 : Bool) (s : State) : Host.Outcome State Fault Refusal :=
  (s.doCounter (s.readU reg) off f1).outcome

/-- Type 13a; its mode bit is ignored (R585). -/
def execDoUntil (term : Cond) (off : BitVec 23) (_f1 : Bool) (s : State) : Host.Outcome State Fault Refusal :=
  (s.startLoop (s.pcRel off) term.code false).outcome

end Sys2Proof.Machine
end

