-- ==== Sys2Proof/Machine/Group3.lean ====
section
/-! DEFINITION. Group III, types 14 to 17: direct and immediate-offset moves, immediate stores and loads
(spec/42_group3.md). -/

namespace Sys2Proof.Machine

open Sys2Proof

/-- Type 14a, load (R622). -/
def execLoadUregDirect (pm long : Bool) (reg : UReg) (addr : Word) (s : State) : Host.Outcome State Fault Refusal :=
  (s.moveOnly { pm := pm, addr := .direct addr, store := false, what := .reg reg, size := longSize long } true true).outcome

/-- Type 14a, store (R622). -/
def execStoreUregDirect (pm long : Bool) (reg : UReg) (addr : Word) (s : State) : Host.Outcome State Fault Refusal :=
  (s.moveOnly { pm := pm, addr := .direct addr, store := true, what := .reg reg, size := longSize long } true true).outcome

/-- Type 14d (R623). -/
def execMoveDregDirect (store : Bool) (reg : RegNo) (addr : Word) (size : Size) (ex : Bool) (s : State) :
    Host.Outcome State Fault Refusal :=
  (s.moveOnly { pm := false, addr := .direct addr, store := store, what := .reg (.r reg), size := size, ex := ex }
    true true).outcome

/-- Type 15a, load (R624). -/
def execLoadUregOffset (pm : Bool) (i : DagNo) (long : Bool) (reg : UReg) (data : Word) (s : State) :
    Host.Outcome State Fault Refusal :=
  (s.moveOnly { pm := pm, addr := immAddr pm false i data, store := false, what := .reg reg, size := longSize long }
    true true).outcome

/-- Type 15a, store (R624). -/
def execStoreUregOffset (pm : Bool) (i : DagNo) (long : Bool) (reg : UReg) (data : Word) (s : State) :
    Host.Outcome State Fault Refusal :=
  (s.moveOnly { pm := pm, addr := immAddr pm false i data, store := true, what := .reg reg, size := longSize long }
    true true).outcome

/-- Type 16a (R626). -/
def execStoreImm (pm : Bool) (i m : DagNo) (data : Word) (s : State) : Host.Outcome State Fault Refusal :=
  (s.moveOnly { pm := pm, addr := s.regAddr pm true i m, store := true, what := .imm data } true true).outcome

/-- Type 17a (R628). -/
def execMoveImm (reg : UReg) (data : Word) (s : State) : Host.Outcome State Fault Refusal :=
  .next (s.applyFx (s.immFx reg data))

end Sys2Proof.Machine
end

