-- ==== Sys2Proof/Machine/Group4.lean ====
section
/-! DEFINITION. Group IV, types 18 to 26: system register bits, immediate index modifications, stacks, caches, IDLE and
the compiler's frame instructions (spec/43_group4.md). -/

namespace Sys2Proof.Machine

open Sys2Proof

/-- BIT SET (R661). -/
def execBitSet (reg : SysReg) (data : Word) (s : State) : Host.Outcome State Fault Refusal :=
  .next (s.bitWrite reg fun v => v ||| data)

/-- BIT CLR (R661). -/
def execBitClr (reg : SysReg) (data : Word) (s : State) : Host.Outcome State Fault Refusal :=
  .next (s.bitWrite reg fun v => v &&& ~~~data)

/-- BIT TGL (R661). -/
def execBitTgl (reg : SysReg) (data : Word) (s : State) : Host.Outcome State Fault Refusal :=
  .next (s.bitWrite reg fun v => v ^^^ data)

/-- BIT TST (R661). -/
def execBitTst (reg : SysReg) (data : Word) (s : State) : Host.Outcome State Fault Refusal :=
  .next (s.bitTest reg fun v => v &&& data == data)

/-- BIT XOR (R131, R661). -/
def execBitXor (reg : SysReg) (data : Word) (s : State) : Host.Outcome State Fault Refusal :=
  .next ((s.bitTest reg fun v => v == data).markXor reg)

/-- Type 19a, MODIFY (R662). -/
def execModifyImm (pm : Bool) (src dst : DagNo) (data : Word) (scale : Scale) (s : State) :
    Host.Outcome State Fault Refusal :=
  .next (s.applyFx (s.modifyFx (dagNo pm src) (dagNo pm dst) data scale true))

/-- Type 19a, BITREV (R663). -/
def execBitrevImm (pm : Bool) (src dst : DagNo) (data : Word) (s : State) : Host.Outcome State Fault Refusal :=
  .next (s.applyFx (s.bitrevFx (dagNo pm src) (dagNo pm dst) data))

/-- FLUSH CACHE: the conflict cache of no-cache models holds nothing; it is the part of a flush sequence that L1 code needs
(R355, R665, D24). -/
def State.flushCache (s : State) (on : Bool) : State := if on then { s with mem := s.mem.flushCode } else s

/-- PUSH LOOP and the other pushes of its word (R665). -/
def execPushLoop (sts pcstk flush : Bool) (s : State) : Host.Outcome State Fault Refusal :=
  ((((s.flushCache flush).pushLoopOp pcstk).andIf sts fun t => .ok t.pushSts).andIf pcstk State.pushPcstkOp).outcome

/-- POP LOOP and the other pops of its word (R665). -/
def execPopLoop (sts pcstk flush : Bool) (s : State) : Host.Outcome State Fault Refusal :=
  (((s.flushCache flush).popLoopOp.andIf sts State.popSts).andIf pcstk State.popPcstkOp).outcome

/-- PUSH STS (R665). -/
def execPushSts (pcstk flush : Bool) (s : State) : Host.Outcome State Fault Refusal :=
  (Res.andIf (.ok (s.flushCache flush).pushSts) pcstk State.pushPcstkAfter).outcome

/-- POP STS (R665). -/
def execPopSts (pcstk flush : Bool) (s : State) : Host.Outcome State Fault Refusal :=
  ((s.flushCache flush).popSts.andIf pcstk State.popPcstkOp).outcome

/-- PUSH PCSTK (R665, R666). -/
def execPushPcstk (flush : Bool) (s : State) : Host.Outcome State Fault Refusal :=
  (s.flushCache flush).pushPcstkAfter.outcome

/-- POP PCSTK (R665). -/
def execPopPcstk (flush : Bool) (s : State) : Host.Outcome State Fault Refusal := (s.flushCache flush).popPcstkOp.outcome

/-- FLUSH CACHE (R665). -/
def execFlushCache (s : State) : Host.Outcome State Fault Refusal := .next (s.flushCache true)

/-- INVALIDATE, WRITEBACK and FLUSH of the L1 caches: at the running index INVALIDATE and FLUSH make the lines of the range
invalid, WRITEBACK changes nothing, since memory holds what was stored; the counters move on (R371, R667, D24). A word that names
no cache processes no index, one that names several processes the same index of each
(log 61). In the window after a store to SHL1C_CFG or SHL1C_CFG2 there is no cache operation, and none by ranges that break the restrictions
(R372). -/
def execCacheOp (l1ii l1di l1dwb l1pi l1pwb : Bool) (s : State) : Host.Outcome State Fault Refusal :=
  Res.outcome <|
    if l1ii || l1di || l1dwb || l1pi || l1pwb then
      if s.seq.cacheHold ≠ 0 || s.brokenRange then refuse (.cacheRestriction s.seq.pc.toNat)
      else
        let us := (if l1ii then [CacheUnit.i] else []) ++ (if l1di then [.dm] else []) ++ (if l1pi then [.pm] else [])
        .ok { s.cacheStep with cache := s.invalidateIndex us }
    else .ok s

/-- NOP (R668). -/
def execNop (s : State) : Host.Outcome State Fault Refusal := .next s

/-- IDLE (R670). -/
def execIdle (s : State) : Host.Outcome State Fault Refusal :=
  Res.outcome <|
    match s.idleAllowed with
    | .error e => .error e
    | .ok () => .ok s.goIdle

/-- EMUIDLE without an emulator: a NOP (R670). -/
def execEmuidle (s : State) : Host.Outcome State Fault Refusal :=
  Res.outcome <|
    match s.idleAllowed with
    | .error e => .error e
    | .ok () => .ok s

/-- SYNC: every posted write is complete (R320, R327, R328, R674). -/
def execSync (s : State) : Host.Outcome State Fault Refusal := .next { s with posted := [], mem := s.mem.sync }

/-- CJUMP addr24 (DB) (R671). -/
def execCjump (addr : IAddr) (s : State) : Host.Outcome State Fault Refusal := (s.cjump addr).outcome

/-- CJUMP (PC, reladdr24) (DB) (R671). -/
def execCjumpPcRel (off : IAddr) (s : State) : Host.Outcome State Fault Refusal := (s.cjump (s.pcRel off)).outcome

/-- RFRAME (R672). -/
def execRframe (s : State) : Host.Outcome State Fault Refusal := s.rframe.outcome

end Sys2Proof.Machine
end

