-- ==== Sys2Proof/Machine/Visa.lean ====
section
/-! DEFINITION. The short forms of VISA code: types 1b, 2b, 2c, 3b, 3c, 4b, 5b, 7b, 9b, 11c, 15b, 16b, 17b, 21c, 22c, 25c
(spec/40_group1.md, 41_group2.md, 42_group3.md, 43_group4.md). -/

namespace Sys2Proof.Machine

open Sys2Proof

/-- Type 1b (R511). -/
def execDualMove (dmStore : Bool) (dmi dmm : DagNo) (dmReg : RegNo) (pmStore : Bool) (pmi pmm : DagNo) (pmReg : RegNo)
    (s : State) : Host.Outcome State Fault Refusal :=
  (s.computeDual .none (s.dualHalf false dmStore dmi dmm dmReg) (s.dualHalf true pmStore pmi pmm pmReg)).outcome

/-- Type 2b (R513). -/
def execCompute (c : Compute) (s : State) : Host.Outcome State Fault Refusal := (s.compute c true true []).outcome

/-- Type 2c (R514). -/
def execShortCompute (op : ShortOp) (rn rx : RegNo) (s : State) : Host.Outcome State Fault Refusal :=
  (s.compute (op.compute rn rx) true true []).outcome

/-- Type 3b (R516). -/
def execMoveUregSized (cond : Cond) (post pm store : Bool) (i m : DagNo) (reg : UReg) (size : Size) (s : State) :
    Host.Outcome State Fault Refusal :=
  (s.moveOnly { pm := pm, addr := s.regAddr pm post i m, store := store, what := .reg reg, size := size, gate := cond }
    (s.cx cond) (s.cy cond)).outcome

/-- Type 3c (R517). -/
def execMoveDregShort (store : Bool) (reg : RegNo) (i m : DagNo) (s : State) : Host.Outcome State Fault Refusal :=
  (s.moveOnly { pm := false, addr := s.regAddr false true i m, store := store, what := .reg (.r reg) } true true).outcome

/-- Type 4b (R521). -/
def execMoveDregImmSized (cond : Cond) (pm store : Bool) (i : DagNo) (post : Bool) (data : BitVec 6) (reg : RegNo)
    (size : Size) (s : State) : Host.Outcome State Fault Refusal :=
  (s.moveOnly { pm := pm, addr := immAddr pm post i (data.signExtend 32), store := store, what := .reg (.r reg), size := size, gate := cond }
    (s.cx cond) (s.cy cond)).outcome

/-- Type 5b, move (R527). -/
def execMoveUregShort (cond : Cond) (dst src : UReg) (s : State) : Host.Outcome State Fault Refusal :=
  .next (s.applyFx (s.regMoveFx dst src (s.cx cond) (s.cy cond)))

/-- Type 5b, swap (R528). -/
def execSwapDregShort (cond : Cond) (reg creg : RegNo) (s : State) : Host.Outcome State Fault Refusal :=
  .next (s.applyFx (s.swapFx reg creg (s.cx cond) (s.cy cond)))

/-- Type 7b (R532). -/
def execModifyShort (cond : Cond) (pm : Bool) (src dst m : DagNo) (s : State) : Host.Outcome State Fault Refusal :=
  .next (s.applyFx (s.modifyFx (dagNo pm src) (dagNo pm dst) (s.mreg (dagNo pm m)) .none (s.cx cond || s.cy cond)))

/-- Type 9b (R579). -/
def execBranchShort (cond : Cond) (target : ShortTarget) (kind : BranchKind) (s : State) :
    Host.Outcome State Fault Refusal :=
  (s.branch cond kind.delayed (State.branchTo kind (s.shortTarget target))).outcome

/-- Type 11c (R582). -/
def execReturnShort (cond : Cond) (kind : ReturnKind) (s : State) : Host.Outcome State Fault Refusal :=
  (s.branch cond kind.delayed fun t => t.takeReturn kind.isRti kind.delayed).outcome

/-- Type 15b (R625). -/
def execMoveUregOffset7 (pm store : Bool) (i : DagNo) (long : Bool) (reg : UReg) (data : BitVec 7) (s : State) :
    Host.Outcome State Fault Refusal :=
  (s.moveOnly { pm := pm, addr := immAddr pm false i (data.signExtend 32), store := store, what := .reg reg
                size := longSize long } true true).outcome

/-- Type 16b (R627). -/
def execStoreImm16 (pm : Bool) (i m : DagNo) (data : Parcel) (s : State) : Host.Outcome State Fault Refusal :=
  (s.moveOnly { pm := pm, addr := s.regAddr pm true i m, store := true, what := .imm (data.signExtend 32) } true true).outcome

/-- Type 17b (R629). -/
def execMoveImm16 (reg : UReg) (data : Parcel) (s : State) : Host.Outcome State Fault Refusal :=
  .next (s.applyFx (s.immFx reg (data.signExtend 32)))

/-- Type 21c (R668). -/
def execNopShort (s : State) : Host.Outcome State Fault Refusal := .next s

/-- Type 22c (R670). -/
def execIdleShort (emu : Bool) (s : State) : Host.Outcome State Fault Refusal :=
  Res.outcome <|
    match s.idleAllowed with
    | .error e => .error e
    | .ok () => .ok (if emu then s else s.goIdle)

/-- Type 25c (R672). -/
def execRframeShort (s : State) : Host.Outcome State Fault Refusal := s.rframe.outcome

end Sys2Proof.Machine
end

