-- ==== Sys2Proof/Machine/Dispatch.lean ====
section
/-! DEFINITION. One arm for each constructor of `Instr`: the meaning it calls. -/

namespace Sys2Proof.Machine

open Sys2Proof

/-- The effect of one instruction on the state (spec/00_scope.md R16). -/
def exec (i : Instr) (s : State) : Host.Outcome State Fault Refusal :=
  match i with
  | .computeDualMove c dmStore dmi dmm dmReg pmStore pmi pmm pmReg => Sys2Proof.Machine.execComputeDualMove c dmStore dmi dmm dmReg pmStore pmi pmm pmReg s
  | .ifCompute cond c => Sys2Proof.Machine.execIfCompute cond c s
  | .loadUreg cond c post pm ix m long reg => Sys2Proof.Machine.execLoadUreg cond c post pm ix m long reg s
  | .storeUreg cond c post pm ix m long reg => Sys2Proof.Machine.execStoreUreg cond c post pm ix m long reg s
  | .loadUregSized cond post pm ix m reg size ex => Sys2Proof.Machine.execLoadUregSized cond post pm ix m reg size ex s
  | .storeUregSized cond post pm ix m reg size ex => Sys2Proof.Machine.execStoreUregSized cond post pm ix m reg size ex s
  | .loadDregImm cond c pm ix post data reg => Sys2Proof.Machine.execLoadDregImm cond c pm ix post data reg s
  | .storeDregImm cond c pm ix post data reg => Sys2Proof.Machine.execStoreDregImm cond c pm ix post data reg s
  | .loadDregImmSized cond pm ix post data reg size => Sys2Proof.Machine.execLoadDregImmSized cond pm ix post data reg size s
  | .storeDregImmSized cond pm ix post data reg size => Sys2Proof.Machine.execStoreDregImmSized cond pm ix post data reg size s
  | .moveUreg cond c dst src => Sys2Proof.Machine.execMoveUreg cond c dst src s
  | .swapDreg cond c reg creg => Sys2Proof.Machine.execSwapDreg cond c reg creg s
  | .shiftImmLoadDM cond sh ix m reg => Sys2Proof.Machine.execShiftImmLoadDM cond sh ix m reg s
  | .shiftImmStoreDM cond sh ix m reg => Sys2Proof.Machine.execShiftImmStoreDM cond sh ix m reg s
  | .shiftImmLoadPM cond sh ix m reg => Sys2Proof.Machine.execShiftImmLoadPM cond sh ix m reg s
  | .shiftImmStorePM cond sh ix m reg => Sys2Proof.Machine.execShiftImmStorePM cond sh ix m reg s
  | .ifShiftImm cond sh => Sys2Proof.Machine.execIfShiftImm cond sh s
  | .modify cond c pm src dst m scale => Sys2Proof.Machine.execModify cond c pm src dst m scale s
  | .convertAddr cond c pm src dst toByte breg => Sys2Proof.Machine.execConvertAddr cond c pm src dst toByte breg s
  | .jumpDirect cond addr mods => Sys2Proof.Machine.execJumpDirect cond addr mods s
  | .jumpPcRel cond off mods => Sys2Proof.Machine.execJumpPcRel cond off mods s
  | .callDirect cond addr db => Sys2Proof.Machine.execCallDirect cond addr db s
  | .callPcRel cond off db => Sys2Proof.Machine.execCallPcRel cond off db s
  | .jumpIndirect cond md ic mods els c => Sys2Proof.Machine.execJumpIndirect cond md ic mods els c s
  | .jumpPcRel6 cond off mods els c => Sys2Proof.Machine.execJumpPcRel6 cond off mods els c s
  | .callIndirect cond md ic db els c => Sys2Proof.Machine.execCallIndirect cond md ic db els c s
  | .callPcRel6 cond off db els c => Sys2Proof.Machine.execCallPcRel6 cond off db els c s
  | .jumpIndirectElseLoad cond md ic c ix m reg => Sys2Proof.Machine.execJumpIndirectElseLoad cond md ic c ix m reg s
  | .jumpIndirectElseStore cond md ic c ix m reg => Sys2Proof.Machine.execJumpIndirectElseStore cond md ic c ix m reg s
  | .jumpPcRelElseLoad cond off c ix m reg => Sys2Proof.Machine.execJumpPcRelElseLoad cond off c ix m reg s
  | .jumpPcRelElseStore cond off c ix m reg => Sys2Proof.Machine.execJumpPcRelElseStore cond off c ix m reg s
  | .rts cond db lr els c => Sys2Proof.Machine.execRts cond db lr els c s
  | .rti cond db els c => Sys2Proof.Machine.execRti cond db els c s
  | .doCounterImm count off f1 => Sys2Proof.Machine.execDoCounterImm count off f1 s
  | .doCounterUreg reg off f1 => Sys2Proof.Machine.execDoCounterUreg reg off f1 s
  | .doUntil term off f1 => Sys2Proof.Machine.execDoUntil term off f1 s
  | .loadUregDirect pm long reg addr => Sys2Proof.Machine.execLoadUregDirect pm long reg addr s
  | .storeUregDirect pm long reg addr => Sys2Proof.Machine.execStoreUregDirect pm long reg addr s
  | .moveDregDirect store reg addr size ex => Sys2Proof.Machine.execMoveDregDirect store reg addr size ex s
  | .loadUregOffset pm ix long reg data => Sys2Proof.Machine.execLoadUregOffset pm ix long reg data s
  | .storeUregOffset pm ix long reg data => Sys2Proof.Machine.execStoreUregOffset pm ix long reg data s
  | .storeImm pm ix m data => Sys2Proof.Machine.execStoreImm pm ix m data s
  | .moveImm reg data => Sys2Proof.Machine.execMoveImm reg data s
  | .bitSet reg data => Sys2Proof.Machine.execBitSet reg data s
  | .bitClr reg data => Sys2Proof.Machine.execBitClr reg data s
  | .bitTgl reg data => Sys2Proof.Machine.execBitTgl reg data s
  | .bitTst reg data => Sys2Proof.Machine.execBitTst reg data s
  | .bitXor reg data => Sys2Proof.Machine.execBitXor reg data s
  | .modifyImm pm src dst data scale => Sys2Proof.Machine.execModifyImm pm src dst data scale s
  | .bitrevImm pm src dst data => Sys2Proof.Machine.execBitrevImm pm src dst data s
  | .pushLoop sts pcstk flush => Sys2Proof.Machine.execPushLoop sts pcstk flush s
  | .popLoop sts pcstk flush => Sys2Proof.Machine.execPopLoop sts pcstk flush s
  | .pushSts pcstk flush => Sys2Proof.Machine.execPushSts pcstk flush s
  | .popSts pcstk flush => Sys2Proof.Machine.execPopSts pcstk flush s
  | .pushPcstk flush => Sys2Proof.Machine.execPushPcstk flush s
  | .popPcstk flush => Sys2Proof.Machine.execPopPcstk flush s
  | .flushCache => Sys2Proof.Machine.execFlushCache s
  | .cacheOp l1ii l1di l1dwb l1pi l1pwb => Sys2Proof.Machine.execCacheOp l1ii l1di l1dwb l1pi l1pwb s
  | .nop => Sys2Proof.Machine.execNop s
  | .idle => Sys2Proof.Machine.execIdle s
  | .emuidle => Sys2Proof.Machine.execEmuidle s
  | .sync => Sys2Proof.Machine.execSync s
  | .cjump addr => Sys2Proof.Machine.execCjump addr s
  | .cjumpPcRel off => Sys2Proof.Machine.execCjumpPcRel off s
  | .rframe => Sys2Proof.Machine.execRframe s
  | .dualMove dmStore dmi dmm dmReg pmStore pmi pmm pmReg => Sys2Proof.Machine.execDualMove dmStore dmi dmm dmReg pmStore pmi pmm pmReg s
  | .compute c => Sys2Proof.Machine.execCompute c s
  | .shortCompute op rn rx => Sys2Proof.Machine.execShortCompute op rn rx s
  | .moveUregSized cond post pm store ix m reg size => Sys2Proof.Machine.execMoveUregSized cond post pm store ix m reg size s
  | .moveDregShort store reg ix m => Sys2Proof.Machine.execMoveDregShort store reg ix m s
  | .moveDregImmSized cond pm store ix post data reg size => Sys2Proof.Machine.execMoveDregImmSized cond pm store ix post data reg size s
  | .moveUregShort cond dst src => Sys2Proof.Machine.execMoveUregShort cond dst src s
  | .swapDregShort cond reg creg => Sys2Proof.Machine.execSwapDregShort cond reg creg s
  | .modifyShort cond pm src dst m => Sys2Proof.Machine.execModifyShort cond pm src dst m s
  | .branchShort cond target kind => Sys2Proof.Machine.execBranchShort cond target kind s
  | .returnShort cond kind => Sys2Proof.Machine.execReturnShort cond kind s
  | .moveUregOffset7 pm store ix long reg data => Sys2Proof.Machine.execMoveUregOffset7 pm store ix long reg data s
  | .storeImm16 pm ix m data => Sys2Proof.Machine.execStoreImm16 pm ix m data s
  | .moveImm16 reg data => Sys2Proof.Machine.execMoveImm16 reg data s
  | .nopShort => Sys2Proof.Machine.execNopShort s
  | .idleShort emu => Sys2Proof.Machine.execIdleShort emu s
  | .rframeShort => Sys2Proof.Machine.execRframeShort s
  | .fixAdd rn rx ry => Sys2Proof.Machine.execFixAdd rn rx ry s
  | .fixSub rn rx ry => Sys2Proof.Machine.execFixSub rn rx ry s
  | .fixAddCarry rn rx ry => Sys2Proof.Machine.execFixAddCarry rn rx ry s
  | .fixSubBorrow rn rx ry => Sys2Proof.Machine.execFixSubBorrow rn rx ry s
  | .fixAvg rn rx ry => Sys2Proof.Machine.execFixAvg rn rx ry s
  | .fixComp rx ry => Sys2Proof.Machine.execFixComp rx ry s
  | .fixCompU rx ry => Sys2Proof.Machine.execFixCompU rx ry s
  | .fixPlusCarry rn rx => Sys2Proof.Machine.execFixPlusCarry rn rx s
  | .fixPlusCarryMinus1 rn rx => Sys2Proof.Machine.execFixPlusCarryMinus1 rn rx s
  | .fixInc rn rx => Sys2Proof.Machine.execFixInc rn rx s
  | .fixDec rn rx => Sys2Proof.Machine.execFixDec rn rx s
  | .fixNeg rn rx => Sys2Proof.Machine.execFixNeg rn rx s
  | .fixAbs rn rx => Sys2Proof.Machine.execFixAbs rn rx s
  | .fixPass rn rx => Sys2Proof.Machine.execFixPass rn rx s
  | .fixAnd rn rx ry => Sys2Proof.Machine.execFixAnd rn rx ry s
  | .fixOr rn rx ry => Sys2Proof.Machine.execFixOr rn rx ry s
  | .fixXor rn rx ry => Sys2Proof.Machine.execFixXor rn rx ry s
  | .fixNot rn rx => Sys2Proof.Machine.execFixNot rn rx s
  | .fixMin rn rx ry => Sys2Proof.Machine.execFixMin rn rx ry s
  | .fixMax rn rx ry => Sys2Proof.Machine.execFixMax rn rx ry s
  | .fixClip rn rx ry => Sys2Proof.Machine.execFixClip rn rx ry s
  | .fltAdd rn rx ry => Sys2Proof.Machine.execFltAdd rn rx ry s
  | .fltSub rn rx ry => Sys2Proof.Machine.execFltSub rn rx ry s
  | .fltAbsAdd rn rx ry => Sys2Proof.Machine.execFltAbsAdd rn rx ry s
  | .fltAbsSub rn rx ry => Sys2Proof.Machine.execFltAbsSub rn rx ry s
  | .fltAvg rn rx ry => Sys2Proof.Machine.execFltAvg rn rx ry s
  | .fltComp rx ry => Sys2Proof.Machine.execFltComp rx ry s
  | .fltNeg rn rx => Sys2Proof.Machine.execFltNeg rn rx s
  | .fltAbs rn rx => Sys2Proof.Machine.execFltAbs rn rx s
  | .fltPass rn rx => Sys2Proof.Machine.execFltPass rn rx s
  | .fltRnd rn rx => Sys2Proof.Machine.execFltRnd rn rx s
  | .fltScalb rn rx ry => Sys2Proof.Machine.execFltScalb rn rx ry s
  | .fltMant rn rx => Sys2Proof.Machine.execFltMant rn rx s
  | .fltLogb rn rx => Sys2Proof.Machine.execFltLogb rn rx s
  | .fltFix rn rx => Sys2Proof.Machine.execFltFix rn rx s
  | .fltFixBy rn rx ry => Sys2Proof.Machine.execFltFixBy rn rx ry s
  | .fltTrunc rn rx => Sys2Proof.Machine.execFltTrunc rn rx s
  | .fltTruncBy rn rx ry => Sys2Proof.Machine.execFltTruncBy rn rx ry s
  | .fltFloat rn rx => Sys2Proof.Machine.execFltFloat rn rx s
  | .fltFloatBy rn rx ry => Sys2Proof.Machine.execFltFloatBy rn rx ry s
  | .fltRecips rn rx => Sys2Proof.Machine.execFltRecips rn rx s
  | .fltRsqrts rn rx => Sys2Proof.Machine.execFltRsqrts rn rx s
  | .fltCopysign rn rx ry => Sys2Proof.Machine.execFltCopysign rn rx ry s
  | .fltMin rn rx ry => Sys2Proof.Machine.execFltMin rn rx ry s
  | .fltMax rn rx ry => Sys2Proof.Machine.execFltMax rn rx ry s
  | .fltClip rn rx ry => Sys2Proof.Machine.execFltClip rn rx ry s
  | .dblAdd m x z => Sys2Proof.Machine.execDblAdd m x z s
  | .dblSub m x z => Sys2Proof.Machine.execDblSub m x z s
  | .dblComp x z => Sys2Proof.Machine.execDblComp x z s
  | .dblNeg m x => Sys2Proof.Machine.execDblNeg m x s
  | .dblAbs m x => Sys2Proof.Machine.execDblAbs m x s
  | .dblPass m x => Sys2Proof.Machine.execDblPass m x s
  | .dblFix rn x => Sys2Proof.Machine.execDblFix rn x s
  | .dblFixBy rn x ry => Sys2Proof.Machine.execDblFixBy rn x ry s
  | .dblTrunc rn x => Sys2Proof.Machine.execDblTrunc rn x s
  | .dblTruncBy rn x ry => Sys2Proof.Machine.execDblTruncBy rn x ry s
  | .dblFloat m rx => Sys2Proof.Machine.execDblFloat m rx s
  | .dblFloatBy m rx ry => Sys2Proof.Machine.execDblFloatBy m rx ry s
  | .dblFromFlt m rx => Sys2Proof.Machine.execDblFromFlt m rx s
  | .fltFromDbl rn x => Sys2Proof.Machine.execFltFromDbl rn x s
  | .dblScalb m x ry => Sys2Proof.Machine.execDblScalb m x ry s
  | .fixAddSub ra rs rx ry => Sys2Proof.Machine.execFixAddSub ra rs rx ry s
  | .fltAddSub ra rs rx ry => Sys2Proof.Machine.execFltAddSub ra rs rx ry s
  | .mulRn mod rn rx ry => Sys2Proof.Machine.execMulRn mod rn rx ry s
  | .mulMrf mod rx ry => Sys2Proof.Machine.execMulMrf mod rx ry s
  | .mulMrb mod rx ry => Sys2Proof.Machine.execMulMrb mod rx ry s
  | .macAddRnMrf mod rn rx ry => Sys2Proof.Machine.execMacAddRnMrf mod rn rx ry s
  | .macAddRnMrb mod rn rx ry => Sys2Proof.Machine.execMacAddRnMrb mod rn rx ry s
  | .macAddMrf mod rx ry => Sys2Proof.Machine.execMacAddMrf mod rx ry s
  | .macAddMrb mod rx ry => Sys2Proof.Machine.execMacAddMrb mod rx ry s
  | .macSubRnMrf mod rn rx ry => Sys2Proof.Machine.execMacSubRnMrf mod rn rx ry s
  | .macSubRnMrb mod rn rx ry => Sys2Proof.Machine.execMacSubRnMrb mod rn rx ry s
  | .macSubMrf mod rx ry => Sys2Proof.Machine.execMacSubMrf mod rx ry s
  | .macSubMrb mod rx ry => Sys2Proof.Machine.execMacSubMrb mod rx ry s
  | .rndRnMrf sgn rn => Sys2Proof.Machine.execRndRnMrf sgn rn s
  | .rndRnMrb sgn rn => Sys2Proof.Machine.execRndRnMrb sgn rn s
  | .rndMrf sgn => Sys2Proof.Machine.execRndMrf sgn s
  | .rndMrb sgn => Sys2Proof.Machine.execRndMrb sgn s
  | .satRnMrf frac sgn rn => Sys2Proof.Machine.execSatRnMrf frac sgn rn s
  | .satRnMrb frac sgn rn => Sys2Proof.Machine.execSatRnMrb frac sgn rn s
  | .satMrf frac sgn => Sys2Proof.Machine.execSatMrf frac sgn s
  | .satMrb frac sgn => Sys2Proof.Machine.execSatMrb frac sgn s
  | .clrMrf => Sys2Proof.Machine.execClrMrf s
  | .clrMrb => Sys2Proof.Machine.execClrMrb s
  | .readMr0f rn => Sys2Proof.Machine.execReadMr0f rn s
  | .writeMr0f rn => Sys2Proof.Machine.execWriteMr0f rn s
  | .readMr1f rn => Sys2Proof.Machine.execReadMr1f rn s
  | .writeMr1f rn => Sys2Proof.Machine.execWriteMr1f rn s
  | .readMr2f rn => Sys2Proof.Machine.execReadMr2f rn s
  | .writeMr2f rn => Sys2Proof.Machine.execWriteMr2f rn s
  | .readMr0b rn => Sys2Proof.Machine.execReadMr0b rn s
  | .writeMr0b rn => Sys2Proof.Machine.execWriteMr0b rn s
  | .readMr1b rn => Sys2Proof.Machine.execReadMr1b rn s
  | .writeMr1b rn => Sys2Proof.Machine.execWriteMr1b rn s
  | .readMr2b rn => Sys2Proof.Machine.execReadMr2b rn s
  | .writeMr2b rn => Sys2Proof.Machine.execWriteMr2b rn s
  | .fltMul rn rx ry => Sys2Proof.Machine.execFltMul rn rx ry s
  | .dblMul m x z => Sys2Proof.Machine.execDblMul m x z s
  | .dblMulFlt m x ry => Sys2Proof.Machine.execDblMulFlt m x ry s
  | .dblMulFlt2 m rx ry => Sys2Proof.Machine.execDblMulFlt2 m rx ry s
  | .lshift rn rx ry => Sys2Proof.Machine.execLshift rn rx ry s
  | .lshiftImm rn rx data => Sys2Proof.Machine.execLshiftImm rn rx data s
  | .orLshift rn rx ry => Sys2Proof.Machine.execOrLshift rn rx ry s
  | .orLshiftImm rn rx data => Sys2Proof.Machine.execOrLshiftImm rn rx data s
  | .ashift rn rx ry => Sys2Proof.Machine.execAshift rn rx ry s
  | .ashiftImm rn rx data => Sys2Proof.Machine.execAshiftImm rn rx data s
  | .orAshift rn rx ry => Sys2Proof.Machine.execOrAshift rn rx ry s
  | .orAshiftImm rn rx data => Sys2Proof.Machine.execOrAshiftImm rn rx data s
  | .rot rn rx ry => Sys2Proof.Machine.execRot rn rx ry s
  | .rotImm rn rx data => Sys2Proof.Machine.execRotImm rn rx data s
  | .bset rn rx ry => Sys2Proof.Machine.execBset rn rx ry s
  | .bsetImm rn rx data => Sys2Proof.Machine.execBsetImm rn rx data s
  | .bclr rn rx ry => Sys2Proof.Machine.execBclr rn rx ry s
  | .bclrImm rn rx data => Sys2Proof.Machine.execBclrImm rn rx data s
  | .btgl rn rx ry => Sys2Proof.Machine.execBtgl rn rx ry s
  | .btglImm rn rx data => Sys2Proof.Machine.execBtglImm rn rx data s
  | .btst rx ry => Sys2Proof.Machine.execBtst rx ry s
  | .btstImm rx data => Sys2Proof.Machine.execBtstImm rx data s
  | .fdep rn rx ry => Sys2Proof.Machine.execFdep rn rx ry s
  | .fdepImm rn rx bit6 len6 => Sys2Proof.Machine.execFdepImm rn rx bit6 len6 s
  | .orFdep rn rx ry => Sys2Proof.Machine.execOrFdep rn rx ry s
  | .orFdepImm rn rx bit6 len6 => Sys2Proof.Machine.execOrFdepImm rn rx bit6 len6 s
  | .fdepSE rn rx ry => Sys2Proof.Machine.execFdepSE rn rx ry s
  | .fdepSEImm rn rx bit6 len6 => Sys2Proof.Machine.execFdepSEImm rn rx bit6 len6 s
  | .orFdepSE rn rx ry => Sys2Proof.Machine.execOrFdepSE rn rx ry s
  | .orFdepSEImm rn rx bit6 len6 => Sys2Proof.Machine.execOrFdepSEImm rn rx bit6 len6 s
  | .fext rn rx ry => Sys2Proof.Machine.execFext rn rx ry s
  | .fextImm rn rx bit6 len6 => Sys2Proof.Machine.execFextImm rn rx bit6 len6 s
  | .fextSE rn rx ry => Sys2Proof.Machine.execFextSE rn rx ry s
  | .fextSEImm rn rx bit6 len6 => Sys2Proof.Machine.execFextSEImm rn rx bit6 len6 s
  | .exp rn rx => Sys2Proof.Machine.execExp rn rx s
  | .expEx rn rx => Sys2Proof.Machine.execExpEx rn rx s
  | .leftz rn rx => Sys2Proof.Machine.execLeftz rn rx s
  | .lefto rn rx => Sys2Proof.Machine.execLefto rn rx s
  | .fpack rn rx => Sys2Proof.Machine.execFpack rn rx s
  | .funpack rn rx => Sys2Proof.Machine.execFunpack rn rx s
  | .bitdep rx ry => Sys2Proof.Machine.execBitdep rx ry s
  | .bitdepImm rx len => Sys2Proof.Machine.execBitdepImm rx len s
  | .bitext rn rx => Sys2Proof.Machine.execBitext rn rx s
  | .bitextImm rn len => Sys2Proof.Machine.execBitextImm rn len s
  | .bitextNU rn rx => Sys2Proof.Machine.execBitextNU rn rx s
  | .bitextNUImm rn len => Sys2Proof.Machine.execBitextNUImm rn len s
  | .setBffwrp rn => Sys2Proof.Machine.execSetBffwrp rn s
  | .setBffwrpImm data => Sys2Proof.Machine.execSetBffwrpImm data s
  | .getBffwrp rn => Sys2Proof.Machine.execGetBffwrp rn s
  | .mfMulAdd rm ra q => Sys2Proof.Machine.execMfMulAdd rm ra q s
  | .mfMulSub rm ra q => Sys2Proof.Machine.execMfMulSub rm ra q s
  | .mfMulAvg rm ra q => Sys2Proof.Machine.execMfMulAvg rm ra q s
  | .mfMacAddMrfAdd ra q => Sys2Proof.Machine.execMfMacAddMrfAdd ra q s
  | .mfMacAddMrfSub ra q => Sys2Proof.Machine.execMfMacAddMrfSub ra q s
  | .mfMacAddMrfAvg ra q => Sys2Proof.Machine.execMfMacAddMrfAvg ra q s
  | .mfMacAddRmAdd rm ra q => Sys2Proof.Machine.execMfMacAddRmAdd rm ra q s
  | .mfMacAddRmSub rm ra q => Sys2Proof.Machine.execMfMacAddRmSub rm ra q s
  | .mfMacAddRmAvg rm ra q => Sys2Proof.Machine.execMfMacAddRmAvg rm ra q s
  | .mfMacSubMrfAdd ra q => Sys2Proof.Machine.execMfMacSubMrfAdd ra q s
  | .mfMacSubMrfSub ra q => Sys2Proof.Machine.execMfMacSubMrfSub ra q s
  | .mfMacSubMrfAvg ra q => Sys2Proof.Machine.execMfMacSubMrfAvg ra q s
  | .mfMacSubRmAdd rm ra q => Sys2Proof.Machine.execMfMacSubRmAdd rm ra q s
  | .mfMacSubRmSub rm ra q => Sys2Proof.Machine.execMfMacSubRmSub rm ra q s
  | .mfMacSubRmAvg rm ra q => Sys2Proof.Machine.execMfMacSubRmAvg rm ra q s
  | .mfFltAdd rm ra q => Sys2Proof.Machine.execMfFltAdd rm ra q s
  | .mfFltSub rm ra q => Sys2Proof.Machine.execMfFltSub rm ra q s
  | .mfFltFloatBy rm ra q => Sys2Proof.Machine.execMfFltFloatBy rm ra q s
  | .mfFltFixBy rm ra q => Sys2Proof.Machine.execMfFltFixBy rm ra q s
  | .mfFltAvg rm ra q => Sys2Proof.Machine.execMfFltAvg rm ra q s
  | .mfFltAbs rm ra q => Sys2Proof.Machine.execMfFltAbs rm ra q s
  | .mfFltMax rm ra q => Sys2Proof.Machine.execMfFltMax rm ra q s
  | .mfFltMin rm ra q => Sys2Proof.Machine.execMfFltMin rm ra q s
  | .mfFixAddSub rm ra rs q => Sys2Proof.Machine.execMfFixAddSub rm ra rs q s
  | .mfFltAddSub rm ra rs q => Sys2Proof.Machine.execMfFltAddSub rm ra rs q s
  | .mfDblAdd m a q => Sys2Proof.Machine.execMfDblAdd m a q s
  | .mfDblSub m a q => Sys2Proof.Machine.execMfDblSub m a q s
  | .shortAdd rn rx => Sys2Proof.Machine.execShortAdd rn rx s
  | .shortSub rn rx => Sys2Proof.Machine.execShortSub rn rx s
  | .shortPass rn rx => Sys2Proof.Machine.execShortPass rn rx s
  | .shortComp rn rx => Sys2Proof.Machine.execShortComp rn rx s
  | .shortNot rn rx => Sys2Proof.Machine.execShortNot rn rx s
  | .shortInc rn rx => Sys2Proof.Machine.execShortInc rn rx s
  | .shortDec rn rx => Sys2Proof.Machine.execShortDec rn rx s
  | .shortMul rn rx => Sys2Proof.Machine.execShortMul rn rx s
  | .shortFltAdd rn rx => Sys2Proof.Machine.execShortFltAdd rn rx s
  | .shortFltSub rn rx => Sys2Proof.Machine.execShortFltSub rn rx s
  | .shortFloat rn rx => Sys2Proof.Machine.execShortFloat rn rx s
  | .shortFltComp rn rx => Sys2Proof.Machine.execShortFltComp rn rx s
  | .shortAnd rn rx => Sys2Proof.Machine.execShortAnd rn rx s
  | .shortOr rn rx => Sys2Proof.Machine.execShortOr rn rx s
  | .shortXor rn rx => Sys2Proof.Machine.execShortXor rn rx s
  | .shortFltMul rn rx => Sys2Proof.Machine.execShortFltMul rn rx s

end Sys2Proof.Machine
end

