-- ==== Sys2Proof/Machine/Step.lean ====
section
/-! DEFINITION. One step of the core, and the placing of one instruction where the next step fetches. -/

namespace Sys2Proof.Machine

open Sys2Proof

/-- The fetched instruction executes (R406, U3, U9). -/
noncomputable def State.execute (s : State) (f : Fetched) : Host.Outcome State Fault Refusal :=
  match f.decode with
  | .ok i => exec i s
  | .error .oddPair => .refused .oddPair
  | .error .stackMix => .refused .stackMix
  | .error _ => .next s.illegal

/-- One instruction: fetch, decode, execute, boundary work. -/
noncomputable def State.runInstr (s : State) : Host.Outcome State Fault Refusal :=
  match s.fetch s.seq.pc, s.fetchStop with
  | none, _ => .fault (.busHang s.seq.pc.toNat)
  | some _, some r => .refused r
  | some f, none =>
    let s0 := s.begin f.len
    match s0.execute f with
    | .next s1 => (s0.finish (s0.afterFetch s1 f.bytes) f.len).outcome
    | .fault r => .fault r
    | .refused r => .refused r

/-- One step of the core (R1045): it takes an interrupt, or idles, or executes one instruction. -/
noncomputable def step (s : State) : Host.Outcome State Fault Refusal :=
  match s.accept with
  | some k => (s.takeInterrupt k).outcome
  | none => if s.seq.idle then .next (s.closeStep s) else s.runInstr

/-- The short-word alias of the reset vector: the same bytes, fetched as VISA code (R255). -/
def visaVector : IAddr := 0xA0000C#24

/-- Store one instruction of an opcode-table row at the reset vector and point the PC at it: an ISA word at the normal-word
address, a VISA word at its short-word alias (log 20). -/
def State.withFetchWord (s : State) (nbits w : Nat) : State :=
  let p := 0x20000018
  if nbits ≤ 16 then
    { s with mem := s.mem.writeLE p (w % 2 ^ 16) 6, seq := { s.seq with pc := visaVector } }
  else if nbits ≤ 24 then
    { s with mem := s.mem.writeLE p (wrapField (BitVec.ofNat 23 w)).toNat 6, seq := { s.seq with pc := Config.resetVector } }
  else if nbits ≤ 32 then
    let rest := (afterWord (BitVec.ofNat 32 w)).toNat
    { s with mem := s.mem.writeLE p ((w / 65536) % 2 ^ 16 + 65536 * (w % 2 ^ 16) + 65536 * 65536 * rest) 6, seq := { s.seq with pc := visaVector } }
  else
    { s with mem := s.mem.writeLE p (w % 2 ^ 48) 6, seq := { s.seq with pc := Config.resetVector } }

end Sys2Proof.Machine
end

