-- ==== Sys2Proof/Machine/Environment.lean ====
section
/-! DEFINITION. What the outside of the core does to it between two steps: event controller, accelerators, flag pins,
other agents on the memories, parity errors (spec/10_state.md R83, spec/11_state_registers.md R219, spec/20_memory.md R323,
R330, R337, R346, spec/60_exceptions.md R1032, R1057, R1080, R1081). `step` calls none of these; what the core presents to the outside is `State.bus` (log 12). -/

namespace Sys2Proof.Machine

open Sys2Proof

/-- `sec_raise(sid)` of R1057: SECI latches, unless it is in service and does not self-nest (R1035, R1049). -/
def State.secRaise (s : State) (sid : Word) : State :=
  (s.setMmrs fun m => { m with seciId := sid }).raiseIf (!s.sys.imaskp.getLsbD 15 || s.sys.mode2.getLsbD 0) .seci

/-- An accelerator outside the core has completed a channel: FIRI or IIRI latches, unless it is in service (R219, R1032,
R1035). -/
def State.accelerator (s : State) (iir : Bool) : State :=
  let k : Irq := if iir then .iiri else .firi
  s.raiseIf (!s.sys.imaskp.getLsbD k.num) k

/-- The outside drives the flag pins (R83, D6). -/
def State.setPins (s : State) (v : BitVec 4) : State := { s with sys := { s.sys with pins := v } }

/-- Another agent writes `n` bytes at physical address `p`: the monitor's mark goes (R337), and the core may not run the
bytes before a flush sequence (R355). -/
def State.agentWrite (s : State) (p n value : Nat) : State :=
  { s with mem := (s.mem.writeLE p value n).note p n, excl := dropMonitor s.excl p n }

/-- The paths of CMMR_GPERR_STAT bits 7 to 0 (R323). -/
inductive ParityPath
  | dcpm | dcdm | icic | dss1 | dss2 | dcd2 | dcd1 | icpm
  deriving DecidableEq, Repr

/-- The status bit of a path (R323). -/
def ParityPath.bit : ParityPath → Nat
  | .dcpm => 0
  | .dcdm => 1
  | .icic => 2
  | .dss1 => 3
  | .dss2 => 4
  | .dcd2 => 5
  | .dcd1 => 6
  | .icpm => 7

/-- The PARE_ bit of a path's class, whose PARI_ bit is the next lower one, and the class's enable in MODE1 (R173, R323,
R1080): instruction fetches, data reads, accesses of the system port. That D1 and D2 belong to the data class is DEDUCED
from their names (log 63). -/
def ParityPath.classBits : ParityPath → Nat × Nat
  | .icic | .icpm => (31, 29)
  | .dcpm | .dcdm | .dcd1 | .dcd2 => (29, 28)
  | .dss1 | .dss2 => (27, 27)

/-- A path whose error is not indicated beside another's at the same time: PM beside DM, S2 beside S1 (R323; that both PM
paths stand behind the one DM path is DEDUCED, log 63). -/
def ParityPath.hiddenBy : ParityPath → Option ParityPath
  | .dcpm | .icpm => some .dcdm
  | .dss2 => some .dss1
  | .dcdm | .icic | .dss1 | .dcd2 | .dcd1 => none

/-- The paths that are indicated of those with an error at the same time (R323). -/
def indicated (l : List ParityPath) : List ParityPath :=
  l.filter fun p =>
    match p.hiddenBy with
    | none => true
    | some q => !l.contains q

/-- What an error on a path records: its status bit, the PARE_ bit of its class and, with the class enabled, the PARI_ bit. -/
def State.parityBits (s : State) (p : ParityPath) : Word :=
  flagBit p.bit true ||| flagBit p.classBits.1 true ||| flagBit (p.classBits.1 - 1) (s.sys.mode1.getLsbD p.classBits.2)

/-- `parity_error(path)` of R1081 for the paths with an error at one time: those indicated are recorded in CMMR_GPERR_STAT
unless an earlier error locks it; with the enable of a class PARI is raised, and the return address of that interrupt is any
value (U25). -/
def State.parityError (s : State) (paths : List ParityPath) : State :=
  let l := indicated paths
  let v := l.foldl (fun w p => w ||| s.parityBits p) 0#32
  let s1 := s.setMmrs fun m => if m.gperrStat = 0#32 then { m with gperrStat := v } else m
  if l.any fun p => s.sys.mode1.getLsbD p.classBits.2 then { s1 with sys := { s1.sys with parity := true } }.raise .pari
  else s1

end Sys2Proof.Machine
end

