-- ==== Sys2Proof/Safety.lean ====
section
/-! DEFINITION. What counts as a safe run, and the terms in which claims speak of one instruction: what completes, what
stays as it was. -/

namespace Sys2Proof.Machine

open Sys2Proof

/-- The step from `s` answers a next state: no fault and no refusal. -/
def State.Safe (s : State) : Prop := ∃ t, step s = .next t

/-- The first `k` steps from `s` all answer a next state. -/
def State.SafeFor : Nat → State → Prop
  | 0, _ => True
  | k + 1, s => ∃ t, step s = .next t ∧ State.SafeFor k t

/-- Instruction `i` executed in `s` answers a next state that has property `P`. -/
def Completes (i : Instr) (s : State) (P : State → Prop) : Prop := ∃ t, exec i s = .next t ∧ P t

/-! ### Views of the state -/

/-- Element `y` executes an unconditional computation: PEx always, PEy in SIMD mode (R503). -/
def State.runs (s : State) (y : Bool) : Bool := !y || s.simd

/-- STKY of an element, without the stack status bits (R150). -/
def State.stky (s : State) (y : Bool) : Word := if y then s.sys.stkyy else s.sys.stkyx

/-- Data register `n` of the set that is not selected (R46). -/
def State.hiddenDreg (s : State) (y : Bool) (n : RegNo) : Reg40 :=
  if y then rget (if s.altData n then s.data.s else s.data.sAlt) n
  else rget (if s.altData n then s.data.r else s.data.rAlt) n

/-- A flag of an element after the instruction. -/
def State.flagOf (s : State) (y : Bool) (k : Nat) : Bool := (s.astat y).getLsbD k

/-- The seven ALU flags of element `y`. -/
def AluFlagsAre (t : State) (y az av an ac as ai af : Bool) : Prop :=
  t.flagOf y 0 = az ∧ t.flagOf y 1 = av ∧ t.flagOf y 2 = an ∧ t.flagOf y 3 = ac ∧ t.flagOf y 4 = as ∧
    t.flagOf y 5 = ai ∧ t.flagOf y 10 = af

/-- The four multiplier flags of element `y`. -/
def MulFlagsAre (t : State) (y mn mv mu mi : Bool) : Prop :=
  t.flagOf y 6 = mn ∧ t.flagOf y 7 = mv ∧ t.flagOf y 8 = mu ∧ t.flagOf y 9 = mi

/-- The three shifter flags of element `y`. -/
def ShFlagsAre (t : State) (y sv sz ss : Bool) : Prop :=
  t.flagOf y 11 = sv ∧ t.flagOf y 12 = sz ∧ t.flagOf y 13 = ss

/-! ### What stays as it was -/

/-- Every byte of memory reads as before. -/
def SameBytes (s t : State) : Prop := ∀ p, t.mem.read p = s.mem.read p

/-- The system registers but the arithmetic status of the two elements are as before. -/
def SameSys (s t : State) : Prop :=
  { t.sys with astatx := s.sys.astatx, astaty := s.sys.astaty, stkyx := s.sys.stkyx, stkyy := s.sys.stkyy } = s.sys

/-- Everything outside the data registers and the arithmetic status is as before: address registers, sequencer, system
and core memory-mapped registers, memory, exclusive monitor, and the model's own fields. -/
structure SameOutside (s t : State) : Prop where
  dag : t.dag = s.dag
  seq : t.seq = s.seq
  sys : SameSys s t
  mmr : t.mmr = s.mmr
  cache : t.cache = s.cache
  bus : t.bus = s.bus
  posted : t.posted = s.posted
  bytes : SameBytes s t
  mem : t.mem = s.mem
  excl : t.excl = s.excl
  bdry : t.bdry = s.bdry
  free : t.free = s.free
  px : t.data.px = s.data.px

/-- The multiplier result registers are as before. -/
def SameMr (s t : State) : Prop := ∀ y bg, t.data.mrPhys y bg = s.data.mrPhys y bg

/-- The bit FIFO and its pointer are as before. -/
def SameFifo (s t : State) : Prop := t.data.bff = s.data.bff ∧ t.data.bffwrp = s.data.bffwrp

/-- The frame of a computation: outside the data registers nothing changes but the arithmetic status; an executing element
changes at most the registers `regs`, the ASTAT bits `flags` and the STKY bits `sticky`, and clears no STKY bit; an element
that does not execute, and the register set not selected, change in nothing. -/
structure ComputeFrame (s t : State) (regs : List RegNo) (flags sticky : Word) : Prop where
  outside : SameOutside s t
  dregs : ∀ y n, s.runs y = false ∨ n ∉ regs → t.dreg y n = s.dreg y n
  hidden : ∀ y n, t.hiddenDreg y n = s.hiddenDreg y n
  astat : ∀ y, t.astat y &&& ~~~flags = s.astat y &&& ~~~flags
  astatIdle : ∀ y, s.runs y = false → t.astat y = s.astat y
  stky : ∀ y, t.stky y &&& ~~~sticky = s.stky y &&& ~~~sticky
  stkyIdle : ∀ y, s.runs y = false → t.stky y = s.stky y
  stkyKeeps : ∀ y, s.stky y &&& t.stky y = s.stky y

/-- The ASTAT bits an ALU operation writes: AZ, AV, AN, AC, AS, AI, AF (R149). -/
def aluFlagMask : Word := 0x0000043F#32
/-- The ASTAT bits a compare writes: those of the ALU and CACC (R132, R149). -/
def compFlagMask : Word := 0xFF00043F#32
/-- The ASTAT bits a multiplier operation writes: MN, MV, MU, MI (R149). -/
def mulFlagMask : Word := 0x000003C0#32
/-- The ASTAT bits a shifter operation writes: SV, SZ, SS (R149). -/
def shFlagMask : Word := 0x00003800#32
/-- The STKY bits an ALU operation may set: AUS, AVS, AOS, AIS (R160). -/
def aluStickyMask : Word := 0x00000027#32
/-- The STKY bits a multiplier operation may set: MOS, MVS, MUS, MIS (R160). -/
def mulStickyMask : Word := 0x000003C0#32

/-! ### Floating-point values -/

/-- The number a bit pattern of a format stands for (R783, R840); none for an infinity or a NAN. A denormal is 0. -/
def Fmt.value (f : Fmt) (v : Nat) : Option ℚ :=
  if f.exp v = 2 ^ f.ebits - 1 then none
  else if f.exp v = 0 then some 0
  else some ((if f.sign v then -1 else 1) * (1 + (f.fraction v : ℚ) / 2 ^ f.frac) * (2 : ℚ) ^ ((f.exp v : ℤ) - (f.bias : ℤ)))

/-- The place of a bit pattern in the order of R795, infinities included; none for a NAN. -/
def Fmt.place (f : Fmt) (v : Nat) : Option (WithBot (WithTop ℚ)) :=
  match f.classify v, f.value v with
  | .nan _, _ => none
  | _, some q => some ((q : WithTop ℚ) : WithBot (WithTop ℚ))
  | .inf true, none => some ⊥
  | _, none => some ((⊤ : WithTop ℚ) : WithBot (WithTop ℚ))

/-- The operand is a NAN (R783). -/
abbrev State.nanF (s : State) (y : Bool) (n : RegNo) : Prop := (s.fl y n).isNan = true

/-- The 64-bit operand is a NAN (R840). -/
abbrev State.nanD (s : State) (y : Bool) (p : Pair) : Prop := (s.dl y p).isNan = true

/-- `n` is `q` rounded to the nearest integer, ties to even. -/
def NearestInt (n : Int) (q : ℚ) : Prop := 2 * |(n : ℚ) - q| ≤ 1 ∧ (2 * |(n : ℚ) - q| = 1 → n % 2 = 0)

/-- `n` is `q` rounded toward zero. -/
def TowardZero (n : Int) (q : ℚ) : Prop := n = if 0 ≤ q then ⌊q⌋ else ⌈q⌉

/-! ### Addresses -/

/-- The 32-bit word at byte `p` of memory (R257). -/
def State.wordAt (s : State) (p : Nat) : Word := BitVec.ofNat 32 (s.mem.readLE p 4)

/-- The `n` bytes at physical byte `p` of a region are bytes of L1, L2 or L3 that the core reads and writes as they are: not
in the storage of a cache (R382), not outside L1 in the window after a store to the cache configuration (R372), in a block
that is awake and not shut down (R324), under no cache range that breaks the restrictions (R372), in no line that the return-zero
range of the prefetch buffer has reached (R378). -/
structure PlainBytes (s : State) (r : Config.Region) (p n : Nat) : Prop where
  memory : isSystem r.target = false
  noCache : s.inCache p = false ∧ s.inCache (p + n - 1) = false
  reads : s.blockReads r = true
  writes : s.blockWrites r = true
  window : s.seq.cacheHold = 0 ∨ isL1 r.target = true
  ranges : s.rangeStop r.target = false
  noZero : s.mayZero r p = false ∧ s.mayZero r (p + n - 1) = false

/-- Address `a` is normal-word data that the core reads and writes as an ordinary 32-bit word at byte `p`: a populated
normal-word address of an L1 block or of L2 or L3 memory (R255, R256), not in 48-bit mode (R315), of plain bytes. -/
structure OrdinaryWord (s : State) (a : Word) (p : Nat) : Prop where
  located : ∃ l, locate a.toNat = some l ∧ l.region.space = .nw ∧ p = physOf l.region l.off .w32 false ∧
    s.imdw l.region = false ∧ PlainBytes s l.region p 4

/-! ### Invariants -/

/-- The stacks stay within the depths the spec gives them: 30 PC entries, 6 loop entries shared with the counter locations
above the top, 15 status entries; an overflow mark stands on a full stack (R63 to R74). -/
structure StackInv (q : Seq) : Prop where
  pc : q.pcStk.length ≤ 30
  pcOv : q.pcOv = true → q.pcStk.length = 30
  loops : q.loopStk.length + q.lcntrs.length = 6
  loopOv : q.loopOv = true → q.lcntrs = []
  sts : q.stsStk.length ≤ 15
  stsOv : q.stsOv = true → q.stsStk.length = 15

/-- The reserved bits of the mode, status and interrupt registers hold 0. -/
structure ReservedZero (y : Sys) : Prop where
  mode1 : y.mode1 &&& ~~~mode1Mask = 0#32
  mode1Act : y.mode1Act &&& ~~~mode1Mask = 0#32
  mmask : y.mmask &&& ~~~mode1Mask = 0#32
  mode2 : y.mode2 &&& ~~~mode2Mask = 0#32
  flags : y.flags &&& ~~~0xFF#32 = 0#32
  astatx : y.astatx &&& ~~~astatMask = 0#32
  astaty : y.astaty &&& ~~~astatMask = 0#32
  stkyx : y.stkyx &&& ~~~stkyxMask = 0#32
  stkyy : y.stkyy &&& ~~~stkyyMask = 0#32
  irptl : y.irptl &&& ~~~irptMask = 0#32
  imask : y.imask &&& ~~~irptMask = 0#32
  imaskp : y.imaskp &&& ~~~irptMask = 0#32

end Sys2Proof.Machine
end

