-- ==== Sys2Proof/Certificates/Slice0/Obligations.lean ====
section
/-! DEFINITION. The statements for the provers: what the instructions and the machine do, from the numbered rules of spec/.
A statement about an instruction says that it answers a next state, what that state holds, and what stays as it was. The
predicates before each group of statements spell out the shape that its instructions share. -/

namespace Sys2Proof.Machine

open Sys2Proof

/-! ### Fixed-point ALU (spec/44_alu_fixed.md) -/

/-- `i` is an additive operation with result register `rn`: on each executing element the exact signed sum wraps to 32 bits
or, in saturation mode, clamps; the flags are those of R728; nothing else changes but AOS, which an overflow sets. -/
def Adds (i : Instr) (s : State) (rn : RegNo) (sum : Bool → Int) (carry : Bool → Bool) : Prop :=
  Completes i s fun t =>
    ComputeFrame s t [rn] aluFlagMask 0x4#32 ∧ SameMr s t ∧ SameFifo s t ∧
    ∀ y, s.runs y = true →
      let ovf := decide (sum y < -2 ^ 31 ∨ 2 ^ 31 - 1 < sum y)
      let out := t.fx y rn
      t.dreg y rn = reg40 out ∧
      out.toInt = (if ovf && s.mode .alusat then (if 0 < sum y then 2 ^ 31 - 1 else -2 ^ 31) else (sum y).bmod (2 ^ 32)) ∧
      AluFlagsAre t y (decide (out = 0#32)) ovf out.msb (carry y) false false false ∧
      t.stky y = s.stky y ||| (if ovf then 0x4#32 else 0#32)

/-- `i` is a logical operation with result register `rn`: the flags are those of R729, no sticky bit changes. -/
def Logic (i : Instr) (s : State) (rn : RegNo) (out : Bool → Word) : Prop :=
  Completes i s fun t =>
    ComputeFrame s t [rn] aluFlagMask 0#32 ∧ SameMr s t ∧ SameFifo s t ∧
    ∀ y, s.runs y = true →
      t.dreg y rn = reg40 (out y) ∧ AluFlagsAre t y (decide (out y = 0#32)) false (out y).msb false false false false

/-- `i` is a compare: no register is written, the flags are AZ, AN and AI, and CACC takes a bit from the left (R132, R735);
`sticky` is the sticky bit a NAN sets. -/
def Compares (i : Instr) (s : State) (lt eq gt nan : Bool → Bool) (float : Bool) : Prop :=
  Completes i s fun t =>
    ComputeFrame s t [] compFlagMask 0x20#32 ∧ SameMr s t ∧ SameFifo s t ∧
    ∀ y, s.runs y = true →
      AluFlagsAre t y (eq y) false (lt y) false false (nan y) float ∧
      t.flagOf y 31 = gt y ∧ (∀ k, 24 ≤ k → k < 31 → t.flagOf y k = s.flagOf y (k + 1)) ∧
      t.stky y = s.stky y ||| (if nan y then 0x20#32 else 0#32)

/-! ### Floating-point ALU, 32 and 40 bits (spec/45_alu_float.md) -/

/-- `i` is a floating-point ALU operation with result register `rn`: AF is set; if an operand is a NAN or the operation is
invalid, the result is all ones and AI and AIS are set (R786); else `P` holds of the state after and the element. -/
def FltRow (i : Instr) (s : State) (rn : RegNo) (invalid : Bool → Prop) (an as : Bool → Bool) (P : State → Bool → Prop) : Prop :=
  Completes i s fun t =>
    ComputeFrame s t [rn] aluFlagMask aluStickyMask ∧ SameMr s t ∧ SameFifo s t ∧
    ∀ y, s.runs y = true →
      t.flagOf y 10 = true ∧
      (invalid y → t.dreg y rn = s.all1 ∧ AluFlagsAre t y false false (an y) false (as y) true true ∧
        t.stky y = s.stky y ||| 0x20#32) ∧
      (¬ invalid y → P t y)

/-- The result is the 40-bit pattern `v`: AZ for a zero, AN its sign, no other flag and no sticky bit. -/
def FltIs (s t : State) (y : Bool) (rn : RegNo) (v : Reg40) : Prop :=
  t.dreg y rn = v ∧ AluFlagsAre t y (decide (fmt40.exp v.toNat = 0)) false v.msb false false false true ∧ t.stky y = s.stky y

/-- A zero of a sign. -/
def fltZero (neg : Bool) : Reg40 := if neg then 0x8000000000#40 else 0#40

/-- An infinity of a sign. -/
def fltInf (neg : Bool) : Reg40 := if neg then 0xFF80000000#40 else 0x7F80000000#40

/-- `v` is a result of the boundary in force: with RND32 its eight LSBs are 0 (R782). -/
abbrev State.inBoundary (s : State) (v : Reg40) : Prop := s.mode .rnd32 = true → v &&& 0xFF#40 = 0#40

/-- The least magnitude that overflows format `f` when it is rounded to `b` fraction bits (R784, R785). -/
def Fmt.overflowsAt (f : Fmt) (b : Nat) (trunc : Bool) : ℚ :=
  (2 : ℚ) ^ (f.bias + 1) - (if trunc then 0 else (2 : ℚ) ^ ((f.bias : ℤ) - b - 1))

/-- The least magnitude that does not underflow format `f` when it is rounded to `b` fraction bits (R784, R785). -/
def Fmt.holdsFrom (f : Fmt) (b : Nat) (trunc : Bool) : ℚ :=
  (2 : ℚ) ^ (1 - (f.bias : ℤ)) - (if trunc then 0 else (2 : ℚ) ^ (-(f.bias : ℤ) - b - 1))

/-- What an overflow delivers: an infinity, or NORM.MAX of the boundary with TRUNCATE (R785). -/
def Fmt.overflowBits (f : Fmt) (b : Nat) (trunc g : Bool) : Nat :=
  if trunc then f.encode g (2 ^ f.ebits - 2) (2 ^ f.frac - 2 ^ (f.frac - b)) else f.infinity g

/-- An exact result `r` of sign `g` outside the range of the 40-bit format, with boundary `b`: AV and AVS for an overflow, AZ
and AUS for an underflow (R785 to R787). -/
def FltEnds (s t : State) (y : Bool) (rn : RegNo) (b : Nat) (g : Bool) (r : ℚ) : Prop :=
  (fmt40.overflowsAt b (s.mode .truncate) ≤ |r| →
    t.dreg y rn = BitVec.ofNat 40 (fmt40.overflowBits b (s.mode .truncate) g) ∧
    AluFlagsAre t y false true g false false false true ∧ t.stky y = s.stky y ||| 0x2#32) ∧
  (0 < |r| → |r| < fmt40.holdsFrom b (s.mode .truncate) →
    t.dreg y rn = fltZero g ∧ AluFlagsAre t y true false g false false false true ∧ t.stky y = s.stky y ||| 0x1#32)

/-- A sum or difference (`sub`), halved (`half`), made positive (`mag`) (R790 to R794): infinities add up to infinities, an
exact zero is +zero unless both operands are -zero, an exact result that the format holds is delivered as it is, and one
outside its range overflows or underflows. -/
def SumRow (i : Instr) (s : State) (rn rx ry : RegNo) (sub half mag : Bool) : Prop :=
  FltRow i s rn
    (fun y => s.nanF y rx ∨ s.nanF y ry ∨ ∃ g, s.fl y rx = .inf g ∧ s.fl y ry = .inf (g == sub))
    (fun _ => !mag) (fun _ => false) fun t y =>
    (∀ g, s.fl y rx = .inf g ∨ s.fl y ry = .inf (g != sub) → FltIs s t y rn (fltInf (g && !mag))) ∧
    ∀ (p q : ℚ), fmt40.value (s.fin y rx) = some p → fmt40.value (s.fin y ry) = some q →
      let r := (if sub then p - q else p + q) / (if half then 2 else 1)
      (r = 0 → FltIs s t y rn
        (fltZero (decide (p = 0) && fmt40.sign (s.fin y rx) && (fmt40.sign (s.fin y ry) != sub) && !mag))) ∧
      (r ≠ 0 → ∀ v : Reg40, fmt40.value v.toNat = some (if mag then |r| else r) → s.inBoundary v → FltIs s t y rn v) ∧
      FltEnds s t y rn s.bound (decide (r < 0) && !mag) r

/-- A flushed operand (R783). -/
def State.flushed (s : State) (y : Bool) (n : RegNo) : Reg40 := BitVec.ofNat 40 (fmt40.flush (s.fin y n))

/-- A selection of operand bits: `v` where no operand is a NAN (R796 to R798, R812 to R815). -/
def SelectRow (i : Instr) (s : State) (rn : RegNo) (nan : Bool → Prop) (v : Bool → Reg40) : Prop :=
  FltRow i s rn nan (fun _ => true) (fun _ => false) fun t y => FltIs s t y rn (v y)

/-- A conversion to a 32-bit integer of the operand's value scaled by 2^k (R803, R854): the integer that `dir` relates to the
value, with AUS for a magnitude strictly between 0 and 1. An infinity, a value outside the range of `ovf`, and one that
rounds to 2^31 overflow: to the nearer end of the range in saturation mode, else to all ones with AI. -/
def FixRow (i : Instr) (s : State) (rn : RegNo) (nan : Bool → Prop) (op : Bool → Fl) (val : Bool → Option ℚ) (k : Bool → Int)
    (ovf : ℚ → Prop) (dir : Int → ℚ → Prop) : Prop :=
  FltRow i s rn nan (fun _ => true) (fun _ => false) fun t y =>
    let overflow := fun neg : Bool =>
      if s.mode .alusat then
        t.dreg y rn = (if neg then 0x8000000000#40 else 0x7FFFFFFF00#40) ∧
          AluFlagsAre t y false true neg false false false true ∧ t.stky y = s.stky y ||| 0x2#32
      else t.dreg y rn = s.all1 ∧ AluFlagsAre t y false true true false false true true ∧ t.stky y = s.stky y ||| 0x22#32
    (∀ g, op y = .inf g → overflow g) ∧
    ∀ p : ℚ, val y = some p →
      let r := p * (2 : ℚ) ^ (k y)
      (ovf r → overflow (decide (r < 0))) ∧
      (¬ ovf r → ∀ n : Int, dir n r →
        if n = 2 ^ 31 then overflow false
        else
          let out := t.fx y rn
          t.dreg y rn = reg40 out ∧ out.toInt = n ∧ AluFlagsAre t y (decide (n = 0)) false (decide (n < 0)) false false false true ∧
            t.stky y = s.stky y ||| (if 0 < |r| ∧ |r| < 1 then 0x1#32 else 0#32))

/-- The values that overflow the conversion of 32- and 40-bit numbers before rounding (R803). -/
def overFlt (r : ℚ) : Prop := 2 ^ 31 ≤ |r|

/-- The values that overflow the conversion of 64-bit numbers before rounding (R854). -/
def overDbl (r : ℚ) : Prop := r < -2 ^ 31 ∨ 2 ^ 31 - 1 < r

/-- The direction of FIX (R804). -/
def State.FixDirection (s : State) (n : Int) (q : ℚ) : Prop := if s.mode .truncate then n = ⌊q⌋ else NearestInt n q

/-- A floating-point compare (R795, R850): the order of the values, infinities included; a NAN sets AI and AIS alone. -/
def FltCompares (i : Instr) (s : State) (a b : Bool → Option (WithBot (WithTop ℚ))) : Prop :=
  Completes i s fun t =>
    ComputeFrame s t [] compFlagMask 0x20#32 ∧ SameMr s t ∧ SameFifo s t ∧
    ∀ y, s.runs y = true →
      (∀ k, 24 ≤ k → k < 31 → t.flagOf y k = s.flagOf y (k + 1)) ∧
      ((a y = none ∨ b y = none) →
        AluFlagsAre t y false false false false false true true ∧ t.flagOf y 31 = false ∧ t.stky y = s.stky y ||| 0x20#32) ∧
      (∀ p q, a y = some p → b y = some q →
        (t.flagOf y 0 = true ↔ p = q) ∧ (t.flagOf y 2 = true ↔ p < q) ∧ (t.flagOf y 31 = true ↔ q < p) ∧
        t.flagOf y 1 = false ∧ t.flagOf y 3 = false ∧ t.flagOf y 4 = false ∧ t.flagOf y 5 = false ∧ t.flagOf y 10 = true ∧
        t.stky y = s.stky y)

/-! ### Floating-point ALU, 64 bits (spec/46_alu_float64.md) -/

/-- Both registers of pair `m` hold 32-bit fields with clear extensions (R841). -/
def State.pairClean (t : State) (y : Bool) (m : Pair) : Prop :=
  t.dreg y (oddOf m) = reg40 (t.fx y (oddOf m)) ∧ t.dreg y (evenOf m) = reg40 (t.fx y (evenOf m))

/-- `i` is a 64-bit floating-point ALU operation with result pair `m`: as `FltRow`, for pairs (R841, R844). -/
def DblRow (i : Instr) (s : State) (m : Pair) (invalid : Bool → Prop) (an as : Bool → Bool) (P : State → Bool → Prop) : Prop :=
  Completes i s fun t =>
    ComputeFrame s t [oddOf m, evenOf m] aluFlagMask aluStickyMask ∧ SameMr s t ∧ SameFifo s t ∧
    ∀ y, s.runs y = true →
      t.flagOf y 10 = true ∧ t.pairClean y m ∧
      (invalid y → t.pair y m = BitVec.allOnes 64 ∧ AluFlagsAre t y false false (an y) false (as y) true true ∧
        t.stky y = s.stky y ||| 0x20#32) ∧
      (¬ invalid y → P t y)

/-- The result is the 64-bit pattern `v`: AZ for a zero, AN its sign, no other flag and no sticky bit. -/
def DblIs (s t : State) (y : Bool) (m : Pair) (v : Long) : Prop :=
  t.pair y m = v ∧ AluFlagsAre t y (decide (fmt64.exp v.toNat = 0)) false v.msb false false false true ∧ t.stky y = s.stky y

/-- A 64-bit zero of a sign. -/
def dblZero (neg : Bool) : Long := if neg then 0x8000000000000000#64 else 0#64

/-- A 64-bit infinity of a sign. -/
def dblInf (neg : Bool) : Long := if neg then 0xFFF0000000000000#64 else 0x7FF0000000000000#64

/-- An exact result `r` of sign `g` outside the range of the 64-bit format (R843, R845). -/
def DblEnds (s t : State) (y : Bool) (m : Pair) (g : Bool) (r : ℚ) : Prop :=
  (fmt64.overflowsAt 52 (s.mode .truncate) ≤ |r| →
    t.pair y m = BitVec.ofNat 64 (fmt64.overflowBits 52 (s.mode .truncate) g) ∧
    AluFlagsAre t y false true g false false false true ∧ t.stky y = s.stky y ||| 0x2#32) ∧
  (0 < |r| → |r| < fmt64.holdsFrom 52 (s.mode .truncate) →
    t.pair y m = dblZero g ∧ AluFlagsAre t y true false g false false false true ∧ t.stky y = s.stky y ||| 0x1#32)

/-- A 64-bit sum or difference (R848, R849). -/
def DblSumRow (i : Instr) (s : State) (m x z : Pair) (sub : Bool) : Prop :=
  DblRow i s m
    (fun y => s.nanD y x ∨ s.nanD y z ∨ ∃ g, s.dl y x = .inf g ∧ s.dl y z = .inf (g == sub))
    (fun _ => true) (fun _ => false) fun t y =>
    (∀ g, s.dl y x = .inf g ∨ s.dl y z = .inf (g != sub) → DblIs s t y m (dblInf g)) ∧
    ∀ (p q : ℚ), fmt64.value (s.dbits y x) = some p → fmt64.value (s.dbits y z) = some q →
      let r := if sub then p - q else p + q
      (r = 0 → DblIs s t y m
        (dblZero (decide (p = 0) && fmt64.sign (s.dbits y x) && (fmt64.sign (s.dbits y z) != sub)))) ∧
      (r ≠ 0 → ∀ v : Long, fmt64.value v.toNat = some r → DblIs s t y m v) ∧ DblEnds s t y m (decide (r < 0)) r

/-- A flushed 64-bit operand (R840). -/
def State.flushedPair (s : State) (y : Bool) (p : Pair) : Long := BitVec.ofNat 64 (fmt64.flush (s.dbits y p))

/-! ### Multiplier (spec/47_multiplier.md) -/

/-- `b` is `a` rounded to a multiple of 2^32, to nearest, ties to even, modulo 2^80 (R889). -/
def RoundsAt32 (a b : Acc80) : Prop :=
  b.truncate 32 = 0#32 ∧ ∃ d : Int, b = a + BitVec.ofInt 80 d ∧ |d| ≤ 2 ^ 31 ∧ (|d| = 2 ^ 31 → b.getLsbD 32 = false)

/-- The value of an 80-bit result fits its format (R890). -/
def accFits (frac sgn : Bool) (t : Acc80) : Bool :=
  if sgn then decide (-2 ^ (if frac then 63 else 31) ≤ t.toInt ∧ t.toInt < 2 ^ (if frac then 63 else 31))
  else decide (t.toNat < 2 ^ (if frac then 64 else 32))

/-- A fractional result is not 0 and too small for the 32 bits above bit 31 (R890). -/
def accTiny (frac sgn : Bool) (t : Acc80) : Bool :=
  frac && decide (t ≠ 0#80) &&
    (if sgn then decide (-2 ^ 32 < t.toInt ∧ t.toInt < 2 ^ 32) else decide (t.toNat < 2 ^ 32))

/-- Multiplier result `T` of a fixed-point operation to data register `rn`: the part of the operation's format (R891), the
flags of R890; no multiplier result register changes. -/
def MulToReg (i : Instr) (s : State) (rn : RegNo) (frac sgn sat : Bool) (T : Bool → Acc80 → Prop) : Prop :=
  Completes i s fun t =>
    ComputeFrame s t [rn] mulFlagMask 0x40#32 ∧ SameMr s t ∧ SameFifo s t ∧
    ∀ y, s.runs y = true → ∃ a, T y a ∧
      t.dreg y rn = reg40 (if frac then a.extractLsb' 32 32 else a.truncate 32) ∧
      MulFlagsAre t y a.msb (!sat && !accFits frac sgn a) (accTiny frac sgn a) false ∧
      t.stky y = s.stky y ||| (if !sat && !accFits frac sgn a then 0x40#32 else 0#32)

/-- Multiplier result `T` to the register named MRF (`bg = false`) or MRB: all 80 bits; no data register and no other
multiplier result register changes. -/
def MulToMr (i : Instr) (s : State) (bg frac sgn sat : Bool) (T : Bool → Acc80 → Prop) : Prop :=
  Completes i s fun t =>
    ComputeFrame s t [] mulFlagMask 0x40#32 ∧ SameFifo s t ∧
    (∀ y b, s.runs y = false ∨ b ≠ bg → t.mrReg y b = s.mrReg y b) ∧
    ∀ y, s.runs y = true → T y (t.mrReg y bg) ∧
      MulFlagsAre t y (t.mrReg y bg).msb (!sat && !accFits frac sgn (t.mrReg y bg)) (accTiny frac sgn (t.mrReg y bg)) false ∧
      t.stky y = s.stky y ||| (if !sat && !accFits frac sgn (t.mrReg y bg) then 0x40#32 else 0#32)

/-- The exact product of R887: the operands as the modifier reads them, doubled for two signed fractions. -/
def exactProduct (m : MulMod) (x w : Word) : Int :=
  (if m.xSigned then x.toInt else x.toNat) * (if m.ySigned then w.toInt else w.toNat) *
    (if m.frac && m.xSigned && m.ySigned then 2 else 1)

/-- `a` is `base + sign * product`, wrapped to 80 bits and rounded if the modifier asks for it (R888, R889). -/
def MacResult (m : MulMod) (base : Int) (sign : Int) (x w : Word) (a : Acc80) : Prop :=
  let exact : Acc80 := BitVec.ofInt 80 (base + sign * exactProduct m x w)
  if m.round then RoundsAt32 exact a else a = exact

/-- `a` is `A` saturated to its format (R900, R902). -/
def SaturatesTo (frac sgn : Bool) (A a : Acc80) : Prop :=
  if sgn then a.toInt = max (-2 ^ (if frac then 63 else 31)) (min (2 ^ (if frac then 63 else 31) - 1) A.toInt)
  else a.toNat = min (2 ^ (if frac then 64 else 32) - 1) A.toNat

/-- A transfer from a multiplier result register (R906): the value `v`, all multiplier flags 0. -/
def ReadsMr (i : Instr) (s : State) (rn : RegNo) (v : Bool → Word) : Prop :=
  Completes i s fun t =>
    ComputeFrame s t [rn] mulFlagMask 0#32 ∧ SameMr s t ∧ SameFifo s t ∧
    ∀ y, s.runs y = true → t.dreg y rn = reg40 (v y) ∧ MulFlagsAre t y false false false false

/-- A write of the register named MRF or MRB with the value `v` and all multiplier flags 0 (R903, R907). -/
def WritesMr (i : Instr) (s : State) (bg : Bool) (v : Bool → Acc80) : Prop :=
  Completes i s fun t =>
    ComputeFrame s t [] mulFlagMask 0#32 ∧ SameFifo s t ∧
    (∀ y b, s.runs y = false ∨ b ≠ bg → t.mrReg y b = s.mrReg y b) ∧
    ∀ y, s.runs y = true → t.mrReg y bg = v y ∧ MulFlagsAre t y false false false false

/-- A floating-point product (R908, R909): `res` reads the result, `a` and `b` classify the operands, `va` and `vb` are their
values; `ones` is the NAN pattern of a sign, `n` the boundary in force and `ok` the patterns it allows. An exact product outside
the range sets MV and MVS, or MU and MUS (R785). -/
def ProductRow (i : Instr) (s : State) (regs : List RegNo) (f : Fmt) (res : State → Bool → Nat) (a b : Bool → Fl)
    (va vb : Bool → Option ℚ) (ones : Bool → Nat) (n : Nat) (ok : Nat → Prop) (keeps : State → Prop) : Prop :=
  Completes i s fun t =>
    ComputeFrame s t regs mulFlagMask 0x380#32 ∧ keeps t ∧ SameFifo s t ∧
    ∀ y, s.runs y = true →
      let invalid := fun g => res t y = ones g ∧ MulFlagsAre t y g false false true ∧ t.stky y = s.stky y ||| 0x200#32
      let is := fun g v => res t y = v ∧ MulFlagsAre t y g false false false ∧ t.stky y = s.stky y
      (∀ g h, a y = .nan g → b y = .nan h → invalid (g || h)) ∧
      (∀ g, (a y = .nan g ∧ (b y).isNan = false) ∨ ((a y).isNan = false ∧ b y = .nan g) → invalid g) ∧
      (∀ g h, (a y = .inf g ∧ b y = .zero h) ∨ (a y = .zero g ∧ b y = .inf h) → invalid true) ∧
      (∀ g h, a y = .inf g ∧ b y = .inf h → is (g ^^ h) (f.infinity (g ^^ h))) ∧
      (∀ g h k e, (a y = .inf g ∧ b y = .num h k e) ∨ (a y = .num g k e ∧ b y = .inf h) → is (g ^^ h) (f.infinity (g ^^ h))) ∧
      (∀ g h, (a y = .zero g ∧ (b y = .zero h ∨ ∃ k e, b y = .num h k e)) ∨ ((∃ k e, a y = .num g k e) ∧ b y = .zero h) →
        is (g ^^ h) (f.encode (g ^^ h) 0 0)) ∧
      (∀ (p q : ℚ) (v : Nat), va y = some p → vb y = some q → p * q ≠ 0 → v < 2 ^ (f.ebits + f.frac + 1) →
        f.value v = some (p * q) → ok v → is (f.sign v) v) ∧
      ∀ (p q : ℚ), va y = some p → vb y = some q →
        let g := decide (p * q < 0)
        (f.overflowsAt n (s.mode .truncate) ≤ |p * q| → res t y = f.overflowBits n (s.mode .truncate) g ∧
          MulFlagsAre t y g true false false ∧ t.stky y = s.stky y ||| 0x80#32) ∧
        (0 < |p * q| → |p * q| < f.holdsFrom n (s.mode .truncate) → res t y = f.encode g 0 0 ∧
          MulFlagsAre t y g false true false ∧ t.stky y = s.stky y ||| 0x100#32)

/-! ### Shifter (spec/48_shifter.md) -/

/-- `i` is a shifter operation that writes `rn`: `P` holds of the result, SZ says that it is 0, the extension is clear
(R941). -/
def ShiftRow (i : Instr) (s : State) (rn : RegNo) (sv ss : Bool → Bool) (P : Bool → Word → Prop) : Prop :=
  Completes i s fun t =>
    ComputeFrame s t [rn] shFlagMask 0#32 ∧ SameMr s t ∧ SameFifo s t ∧
    ∀ y, s.runs y = true →
      t.dreg y rn = reg40 (t.fx y rn) ∧ P y (t.fx y rn) ∧ ShFlagsAre t y (sv y) (decide (t.fx y rn = 0#32)) (ss y)

/-- Bit `k` of a word shifted into view: the word's own bit, 0 below it, `fill` above it. -/
def shiftedBit (x : Word) (fill : Bool) (k : Int) : Bool :=
  if k < 0 then false else if 32 ≤ k then fill else x.getLsbD k.toNat

/-- `v` is `x` shifted left by `n`, right for a negative `n`, ORed with `z` (R946 to R949). -/
def IsShifted (x z : Word) (fill : Bool) (n : Int) (v : Word) : Prop :=
  ∀ j : Nat, j < 32 → v.getLsbD j = (shiftedBit x fill ((j : Int) - n) || z.getLsbD j)

/-- `v` is `x` rotated left by `n` (R950). -/
def IsRotated (x : Word) (n : Int) (v : Word) : Prop :=
  ∀ j : Nat, j < 32 → v.getLsbD j = x.getLsbD (((j : Int) - n) % 32).toNat

/-- `v` is `x` with the bit at position `p` replaced by what `f` makes of it; a position outside the word changes nothing
(R951 to R954). -/
def HasBit (x : Word) (f : Bool → Bool) (p : Int) (v : Word) : Prop :=
  ∀ j : Nat, j < 32 → v.getLsbD j = if (j : Int) = p then f (x.getLsbD j) else x.getLsbD j

/-- The bit position lies outside the word (R951). -/
def outside (p : Int) : Bool := decide (p < 0 ∨ 31 < p)

/-- `v` is the low `len` bits of `x` deposited at `bit`, extended with their sign if `se`, ORed with `z` (R957 to R960). -/
def IsDeposit (x z : Word) (bit len : Nat) (se : Bool) (v : Word) : Prop :=
  ∀ j : Nat, j < 32 → v.getLsbD j =
    ((if j < bit then false else if j < bit + len then x.getLsbD (j - bit) else se && decide (0 < len) && x.getLsbD (len - 1))
      || z.getLsbD j)

/-- `v` is the field of `len` bits at `bit` of `x`, extended with its sign if `se` (R961, R962). -/
def IsExtract (x : Word) (bit len : Nat) (se : Bool) (v : Word) : Prop :=
  ∀ j : Nat, j < 32 → v.getLsbD j =
    if j < len then x.getLsbD (bit + j) else se && decide (0 < len) && x.getLsbD (bit + len - 1)

/-- `v` counts the bits equal to `b` from bit 31 down (R965, R966). -/
def CountsLeading (b : Bool) (x v : Word) : Prop :=
  v.toNat ≤ 32 ∧ (∀ j : Nat, j < 32 → 32 ≤ j + v.toNat → x.getLsbD j = b) ∧ (v.toNat < 32 → x.getLsbD (31 - v.toNat) = !b)

/-- `v` is minus the number of bits below bit 31 that repeat the sign (R963). -/
def IsExponent (x v : Word) : Prop :=
  ∃ k : Nat, k ≤ 31 ∧ v.toInt = -(k : Int) ∧ (∀ j : Nat, j < 32 → 31 ≤ j + k → x.getLsbD j = x.msb) ∧
    (k < 31 → x.getLsbD (30 - k) = !x.msb)

/-- The number a 16-bit packed pattern stands for (R967): 4 exponent bits, 11 fraction bits, gradual underflow. -/
def packedValue (h : Nat) : ℚ :=
  (if h / 2 ^ 15 % 2 = 1 then -1 else 1) *
    (if h / 2 ^ 11 % 16 = 0 then (h % 2 ^ 11 : Nat) * (2 : ℚ) ^ (-17 : ℤ)
     else (2 ^ 11 + (h % 2 ^ 11 : Nat) : ℚ) * (2 : ℚ) ^ ((h / 2 ^ 11 % 16 : Nat) - 18 : ℤ))

/-! ### The bit FIFO (R970 to R974) -/

/-- A bit-FIFO operation that runs: SISD mode and, for a deposit or an extraction, a pointer of at most 64. -/
abbrev State.fifoReady (s : State) : Prop := s.simd = false ∧ s.data.bffwrp.toNat ≤ 64

/-- A deposit of the low `len` bits of `x` (R971): they stand below the pointer, the pointer moves up; positions that hold a
stale 1 are left open. One that does not fit sets SV (R973). -/
def Deposits (i : Instr) (s : State) (x : Word) (len : Nat) : Prop :=
  s.fifoReady →
    let w := s.data.bffwrp.toNat
    Completes i s fun t =>
      ComputeFrame s t [] shFlagMask 0#32 ∧ SameMr s t ∧
      ShFlagsAre t false (decide (32 < len ∨ 64 < w + len)) false false ∧
      (len ≤ 32 → w + len ≤ 64 →
        t.data.bffwrp.toNat = w + len ∧
        ∀ j : Nat, j < 64 →
          let k := 63 - j
          if w ≤ k ∧ k < w + len then s.data.bff.getLsbD j = false → t.data.bff.getLsbD j = x.getLsbD (w + len - 1 - k)
          else t.data.bff.getLsbD j = s.data.bff.getLsbD j)

/-- An extraction of `len` bits to `rn` (R972): the oldest bits, right-justified; the FIFO moves up and the pointer down,
unless `nu`. One that asks for more than there is sets SV (R973). -/
def Extracts (i : Instr) (s : State) (rn : RegNo) (len : Nat) (nu : Bool) : Prop :=
  s.fifoReady →
    let w := s.data.bffwrp.toNat
    Completes i s fun t =>
      ComputeFrame s t [rn] shFlagMask 0#32 ∧ SameMr s t ∧ t.dreg false rn = reg40 (t.fx false rn) ∧
      ShFlagsAre t false (decide (32 < len ∨ w < len)) (decide (t.fx false rn = 0#32)) false ∧
      (len ≤ 32 → len ≤ w →
        (∀ j : Nat, j < 32 → (t.fx false rn).getLsbD j = (decide (j < len) && s.data.bff.getLsbD (64 - len + j))) ∧
        if nu then SameFifo s t
        else t.data.bffwrp.toNat = w - len ∧
          ∀ j : Nat, j < 64 → t.data.bff.getLsbD j = (decide (len ≤ j) && s.data.bff.getLsbD (j - len)))

/-- A write of the pointer (R973). -/
def SetsPointer (i : Instr) (s : State) (d : BitVec 7) : Prop :=
  s.simd = false →
    Completes i s fun t =>
      ComputeFrame s t [] shFlagMask 0#32 ∧ SameMr s t ∧ t.data.bff = s.data.bff ∧ t.data.bffwrp = d ∧
      ShFlagsAre t false (decide (64 < d.toNat)) false false

/-! ### Multifunction (spec/49_multifunction.md) -/

/-- `i` executes the ALU operation `ia` and the multiplier operation `im` at once, both on the state before it (R1000 to
R1003): the ALU's flags and result registers `ra`, then the multiplier's flags, result register and registers `rm`, then the
difference `rs` of a dual add/subtract; of two results for one register the earlier in this order stays. -/
def Parallel (i ia im : Instr) (s : State) (ra rm rs : List RegNo) : Prop :=
  ∃ u v, exec ia s = .next u ∧ exec im s = .next v ∧
  Completes i s fun t =>
    ComputeFrame s t (ra ++ rm ++ rs) (aluFlagMask ||| mulFlagMask) (aluStickyMask ||| mulStickyMask) ∧ SameFifo s t ∧
    (∀ y bg, t.data.mrPhys y bg = v.data.mrPhys y bg) ∧
    ∀ y, s.runs y = true →
      t.astat y &&& aluFlagMask = u.astat y &&& aluFlagMask ∧ t.astat y &&& mulFlagMask = v.astat y &&& mulFlagMask ∧
      t.stky y = u.stky y ||| v.stky y ∧
      (∀ n ∈ ra, t.dreg y n = u.dreg y n) ∧ (∀ n ∈ rm, n ∉ ra → t.dreg y n = v.dreg y n) ∧
      (∀ n ∈ rs, n ∉ ra → n ∉ rm → t.dreg y n = u.dreg y n)

/-! ### Compute fields and conditions (spec/40_group1.md R502, R503, R512 to R514, R530) -/

/-- The computation uses the bit FIFO (R970). -/
def usesFifo : Compute → Bool
  | .bitdep _ _ | .bitext _ _ _ | .setBffwrp _ | .getBffwrp _ => true
  | _ => false

/-- The immediate shift uses the bit FIFO (R970). -/
def usesFifoImm : ShiftImm → Bool
  | .bitdep _ _ | .bitext _ _ _ | .setBffwrp _ => true
  | _ => false

/-- The gate of an element under a condition (R502). -/
def State.gate (s : State) (y : Bool) (cond : Cond) : Bool := if y then s.cy cond else s.cx cond

/-- `i` is `full` under a condition: an element whose condition is false keeps everything, the others have the results of
`full`; nothing happens at all if no element's condition is true (R502, R503). -/
def Gated (i full : Instr) (s : State) (cond : Cond) : Prop :=
  (s.cx cond = false → s.cy cond = false → exec i s = .next s) ∧
  ∀ u, exec full s = .next u → Completes i s fun t =>
    SameOutside s t ∧
    t.data.bff = (if s.cx cond then u else s).data.bff ∧ t.data.bffwrp = (if s.cx cond then u else s).data.bffwrp ∧
    ∀ y, let w := if s.gate y cond then u else s
      (∀ n, t.dreg y n = w.dreg y n ∧ t.hiddenDreg y n = w.hiddenDreg y n) ∧ t.astat y = w.astat y ∧ t.stky y = w.stky y ∧
      ∀ bg, t.data.mrPhys y bg = w.data.mrPhys y bg

/-! ### Data moves (spec/20_memory.md, spec/40_group1.md, spec/42_group3.md) -/

/-- `t` is `s` but for what an access leaves to the end of the step, the breakpoint hits of the data buses, and for the lines that
the caches hold. -/
def ButHits (s t : State) : Prop := ∃ h c, t = { s with bdry := { s.bdry with hits := h }, cache := c }

/-- No broadcast load is selected (R296). -/
abbrev State.noBroadcast (s : State) : Prop := s.mode .bdcst1 = false ∧ s.mode .bdcst9 = false

/-- The operands of the load and store forms. -/
structure MoveArgs where
  cond : Cond
  post : Bool
  pm : Bool
  i : DagNo
  m : DagNo
  u : UReg
  n : RegNo
  d6 : BitVec 6
  d7 : BitVec 7
  addr : Word
  data : Word

/-- A load or a store: the instruction, how it addresses, its register, its size, and the conditions of the two elements. -/
structure MoveForm where
  instr : Instr
  addr : Addr
  reg : UReg
  size : Size
  cx : Bool
  cy : Bool

/-- The forms without a size: Types 3a, 3d, 3b, 3c, 4a, 4b, 14a, 15a and 15b, with no computation. -/
def MoveArgs.normal (q : MoveArgs) (s : State) (store : Bool) : List MoveForm :=
  let byReg := s.regAddr q.pm q.post q.i q.m
  let by6 := immAddr q.pm q.post q.i (q.d6.signExtend 32)
  let gated := fun (x : Instr) (a : Addr) (u : UReg) => (⟨x, a, u, .none, s.cx q.cond, s.cy q.cond⟩ : MoveForm)
  let always := fun (x : Instr) (a : Addr) (u : UReg) => (⟨x, a, u, .none, true, true⟩ : MoveForm)
  [ gated (if store then .storeUreg q.cond .none q.post q.pm q.i q.m false q.u
      else .loadUreg q.cond .none q.post q.pm q.i q.m false q.u) byReg q.u,
    gated (if store then .storeUregSized q.cond q.post q.pm q.i q.m q.u .none false
      else .loadUregSized q.cond q.post q.pm q.i q.m q.u .none false) byReg q.u,
    gated (.moveUregSized q.cond q.post q.pm store q.i q.m q.u .none) byReg q.u,
    always (.moveDregShort store q.n q.i q.m) (s.regAddr false true q.i q.m) (.r q.n),
    gated (if store then .storeDregImm q.cond .none q.pm q.i q.post q.d6 q.n
      else .loadDregImm q.cond .none q.pm q.i q.post q.d6 q.n) by6 (.r q.n),
    gated (.moveDregImmSized q.cond q.pm store q.i q.post q.d6 q.n .none) by6 (.r q.n),
    always (if store then .storeUregDirect q.pm false q.u q.addr else .loadUregDirect q.pm false q.u q.addr) (.direct q.addr) q.u,
    always (if store then .storeUregOffset q.pm q.i false q.u q.data else .loadUregOffset q.pm q.i false q.u q.data)
      (immAddr q.pm false q.i q.data) q.u,
    always (.moveUregOffset7 q.pm store q.i false q.u q.d7) (immAddr q.pm false q.i (q.d7.signExtend 32)) q.u ]

/-- The forms with size `z`: Types 3d, 3b, 4d, 4b and 14d. -/
def MoveArgs.sized (q : MoveArgs) (s : State) (store : Bool) (z : Size) : List MoveForm :=
  let byReg := s.regAddr q.pm q.post q.i q.m
  let by6 := immAddr q.pm q.post q.i (q.d6.signExtend 32)
  let gated := fun (x : Instr) (a : Addr) (u : UReg) => (⟨x, a, u, z, s.cx q.cond, s.cy q.cond⟩ : MoveForm)
  [ gated (if store then .storeUregSized q.cond q.post q.pm q.i q.m q.u z false
      else .loadUregSized q.cond q.post q.pm q.i q.m q.u z false) byReg q.u,
    gated (.moveUregSized q.cond q.post q.pm store q.i q.m q.u z) byReg q.u,
    gated (if store then .storeDregImmSized q.cond q.pm q.i q.post q.d6 q.n z
      else .loadDregImmSized q.cond q.pm q.i q.post q.d6 q.n z) by6 (.r q.n),
    gated (.moveDregImmSized q.cond q.pm store q.i q.post q.d6 q.n z) by6 (.r q.n),
    ⟨.moveDregDirect store q.n q.addr z false, .direct q.addr, .r q.n, z, true, true⟩ ]

/-- The forms with (lw): Types 3a, 3d, 3b, 14a, 15a and 15b. -/
def MoveArgs.long (q : MoveArgs) (s : State) (store : Bool) : List MoveForm :=
  let byReg := s.regAddr q.pm q.post q.i q.m
  let gated := fun (x : Instr) (a : Addr) => (⟨x, a, q.u, .lw, s.cx q.cond, s.cy q.cond⟩ : MoveForm)
  let always := fun (x : Instr) (a : Addr) => (⟨x, a, q.u, .lw, true, true⟩ : MoveForm)
  [ gated (if store then .storeUreg q.cond .none q.post q.pm q.i q.m true q.u
      else .loadUreg q.cond .none q.post q.pm q.i q.m true q.u) byReg,
    gated (if store then .storeUregSized q.cond q.post q.pm q.i q.m q.u .lw false
      else .loadUregSized q.cond q.post q.pm q.i q.m q.u .lw false) byReg,
    gated (.moveUregSized q.cond q.post q.pm store q.i q.m q.u .lw) byReg,
    always (if store then .storeUregDirect q.pm true q.u q.addr else .loadUregDirect q.pm true q.u q.addr) (.direct q.addr),
    always (if store then .storeUregOffset q.pm q.i true q.u q.data else .loadUregOffset q.pm q.i true q.u q.data)
      (immAddr q.pm false q.i q.data),
    always (.moveUregOffset7 q.pm store q.i true q.u q.d7) (immAddr q.pm false q.i (q.d7.signExtend 32)) ]

/-- An access by `a` whose modifier counts items of `n` addresses uses address `ea` in space `sp` and leaves the address
registers as in `s1`: directly, with post-modify of the index, or with pre-modify, which updates nothing (R269, R272, R273,
R276). -/
def Lands (s : State) (a : Addr) (sp : Config.Space) (n : Nat) (ea : Word) (s1 : State) : Prop :=
  match a with
  | .direct x => ea = x ∧ s1 = s
  | .post k md => ea = s.present k (s.ireg k) ∧ (n = 1 ∨ s.reversed k = false) ∧ s.mode .cbufen = false ∧
      s1 = s.setI k (s.ireg k + md * BitVec.ofNat 32 n)
  | .pre k md => ea = s.ireg k + md * BitVec.ofNat 32 n ∧ s.reversed k = false ∧ spaceOf (s.ireg k) = some sp ∧ s1 = s

/-- How far unit offset `k` of a space lies above the boundary that an access must keep (R299, R306); `pair`: a SIMD access. -/
def misalign (sp : Config.Space) (w : Width) (pair : Bool) (k : Nat) : Nat :=
  match sp, w with
  | .nw, .w64 => k % 2
  | .bw, .w64 => k % 8
  | .bw, .w40 => k % 4
  | .bw, .w32 => if pair then k % 4 else 0
  | _, _ => 0

/-- The byte at which an aligned access of unit offset `k` starts in its region (R255, R256, R258, R313). -/
def byteOffset (sp : Config.Space) (w : Width) (imdw : Bool) (k : Nat) : Nat :=
  match sp, w with
  | .lw, _ => 8 * k
  | .sw, _ => 2 * k
  | .nw, .w40 | .nw, .w48 => 6 * k
  | .nw, _ => 4 * k
  | .bw, .w40 => 6 * (k / 4)
  | .bw, .w48 => if imdw then 6 * (k / 4) else k
  | .bw, .w8 | .bw, .w16 => if imdw then 6 * (k / 4) + 2 + k % 4 else k
  | .bw, _ => k

/-- An access of width `w` at address `ea` goes to plain bytes from `p` on; `imdw`: its block is in 48-bit mode. -/
structure Located (s : State) (ea : Word) (sp : Config.Space) (w : Width) (imdw pair : Bool) (l : Loc) (p : Nat) : Prop where
  located : locate ea.toNat = some l
  space : l.region.space = sp
  wide : s.imdw l.region = imdw
  place : p = l.region.phys + byteOffset sp w imdw (l.off - misalign sp w pair l.off)
  inside : p + w.bytes ≤ l.region.phys + l.region.bytes
  plain : PlainBytes s l.region p w.bytes

/-- A forced alignment sets U64MA and, with MODE2.U64MAE, latches IICDI (R311; that the sticky bit does not ask for U64MAE is
log 17). -/
def State.aligned (s : State) (forced : Bool) : State :=
  if forced then
    { s with sys := { s.sys with
      stkyx := s.sys.stkyx ||| 0x100000#32
      irptl := s.sys.irptl ||| (if s.sys.mode2.getLsbD 21 then 0x40#32 else 0#32) } }
  else s

/-- An access to a memory-mapped register with MODE2.IIRAE sets IIRA and latches IICDI (R339). -/
def State.unintended (s : State) : State :=
  if s.sys.mode2.getLsbD 20 then
    { s with sys := { s.sys with stkyx := s.sys.stkyx ||| 0x80000#32, irptl := s.sys.irptl ||| 0x40#32 } }
  else s

/-- An illegal size or space latches ILADI (R338). -/
def State.illegalSpace (s : State) : State := { s with sys := { s.sys with irptl := s.sys.irptl ||| 0x100#32 } }

/-- An access by `a` reaches byte `p` and leaves the state `s1` but for its transfer. -/
def Reaches (s : State) (a : Addr) (sp : Config.Space) (w : Width) (imdw : Bool) (n p : Nat) (s1 : State) : Prop :=
  ∃ ea s0 l, Lands s a sp n ea s0 ∧ Located s ea sp w imdw false l p ∧ s1 = s0.aligned (decide (misalign sp w false l.off ≠ 0))

/-- A SIMD access by `a` reaches byte `p`, and its implicit access byte `q`, one item on (R292). -/
def ReachesPair (s : State) (a : Addr) (sp : Config.Space) (w : Width) (n p q : Nat) (s1 : State) : Prop :=
  let next : Nat := match sp with
    | .sw => 2
    | .bw => w.bytes
    | _ => 1
  ∃ ea s0 l k, Lands s a sp n ea s0 ∧ Located s ea sp w false true l p ∧
    Located s (ea - BitVec.ofNat 32 (misalign sp w true l.off) + BitVec.ofNat 32 next) sp w false false k q ∧
    (p + w.bytes ≤ q ∨ q + w.bytes ≤ p) ∧ s1 = s0.aligned (decide (misalign sp w true l.off ≠ 0))

/-- The width of a transfer of at most 32 bits, and the number of addresses its modifier counts in (R263, R264, R276). -/
def accessWidth (z : Size) (sp : Config.Space) : Option (Width × Nat) :=
  match sp, z with
  | .nw, .none => some (.w32, 1)
  | .sw, .none => some (.w16, 1)
  | .bw, .none => some (.w32, 4)
  | .bw, .bw | .bw, .bwse => some (.w8, 1)
  | .bw, .sw | .bw, .swse => some (.w16, 2)
  | _, _ => none

/-- What a load of at most 32 bits at `p` brings: in byte space sign-extended for (bwse) and (swse), in short-word space with
MODE1.SSE, else zero-extended (R264, R267). -/
def State.loaded (s : State) (z : Size) (sp : Config.Space) (p : Nat) : Word :=
  let short : BitVec 16 := BitVec.ofNat 16 (s.mem.readLE p 2)
  match sp, z with
  | .sw, _ => if s.mode .sse then short.signExtend 32 else short.setWidth 32
  | .bw, .bw => (s.mem.read p).setWidth 32
  | .bw, .bwse => (s.mem.read p).signExtend 32
  | .bw, .sw => short.setWidth 32
  | .bw, .swse => short.signExtend 32
  | _, _ => s.wordAt p

/-- The bytes of memory after a store of the low `n` bytes of `v` at `p`, little-endian (R257). -/
def StoredBytes {b : Nat} (s t : State) (p n : Nat) (v : BitVec b) : Prop :=
  (∀ k, k < n → t.mem.read (p + k) = v.extractLsb' (8 * k) 8) ∧ ∀ q, q < p ∨ p + n ≤ q → t.mem.read q = s.mem.read q

/-- `t` is `s1` but for the listed bytes of memory, the exclusive monitor (R337), the breakpoint hits, and the model's own
notes of the stored runs, each a first byte and a length. -/
def ButStores (s1 t : State) (runs : List (Nat × Nat)) : Prop :=
  ∃ cells, ButHits { s1 with
    mem := { runs.foldl (fun m r => m.note r.1 r.2) s1.mem with cells := cells }
    excl := runs.foldl (fun g r => dropMonitor g r.1 r.2) s1.excl } t

/-- `f` loads the 32-bit word that its address reaches in normal-word space into its register, in SISD mode, as a write of the
register (R49); nothing else changes but the index register of a post-modify. -/
def LoadsWord (s : State) (f : MoveForm) : Prop :=
  ∀ p ea s1, Lands s f.addr .nw 1 ea s1 → OrdinaryWord s ea p → f.cx = true → s.simd = false → s.noBroadcast → f.reg ≠ .px →
    Completes f.instr s fun t => ButHits (s1.writeU f.reg (s.wordAt p)) t ∧
      (∀ n, f.reg = .r n → t.dreg false n = reg40 (s.wordAt p)) ∧ (∀ n, f.reg = .s n → t.dreg true n = reg40 (s.wordAt p)) ∧
      (∀ n, f.reg = .i n → t.ireg n = s.wordAt p) ∧ (∀ n, f.reg = .m n → t.mreg n = s.wordAt p)

/-- `i` stores the 32 bits `v` where `a` reaches in normal-word space, in SISD mode; nothing else changes but the index
register of a post-modify and the exclusive monitor's mark (R337). -/
def StoresWord (i : Instr) (s : State) (a : Addr) (v : Word) : Prop :=
  ∀ p ea s1, Lands s a .nw 1 ea s1 → OrdinaryWord s ea p → s.simd = false →
    Completes i s fun t => StoredBytes s t p 4 v ∧ ButStores s1 t [(p, 4)]

/-- A block in 48-bit mode moves a data register with 40 bits; other registers, and bytes and short words, keep their width
(R263, R268). -/
abbrev keepsWidth (u : UReg) (w : Width) (imdw : Bool) : Prop := imdw = true → w ≠ .w32 ∨ dregOf u = none

/-- A load of at most 32 bits in normal-word, short-word or byte space, in SISD mode. -/
def LoadsSized (s : State) (f : MoveForm) : Prop :=
  ∀ sp w imdw n p s1, accessWidth f.size sp = some (w, n) → keepsWidth f.reg w imdw → Reaches s f.addr sp w imdw n p s1 →
    f.cx = true → s.simd = false → s.noBroadcast → f.reg ≠ .px →
    Completes f.instr s fun t => ButHits (s1.writeU f.reg (s.loaded f.size sp p)) t

/-- A store of at most 32 bits in normal-word, short-word or byte space, in SISD mode. -/
def StoresSized (s : State) (f : MoveForm) : Prop :=
  ∀ sp w imdw n p s1, accessWidth f.size sp = some (w, n) → keepsWidth f.reg w imdw → Reaches s f.addr sp w imdw n p s1 →
    f.cx = true → s.simd = false → f.reg ≠ .px →
    Completes f.instr s fun t => StoredBytes s t p w.bytes (s.readU f.reg) ∧ ButStores s1 t [(p, w.bytes)]

/-- A byte or short-word size outside byte space, or (lw) in short-word space, latches ILADI, and the access has the width of
its space (R265, R266, R338). -/
def MovesIllegally (s : State) (store : Bool) (f : MoveForm) : Prop :=
  ∀ sp w imdw p s1, f.size ≠ .none → accessWidth .none sp = some (w, 1) → (f.size = .lw → sp = .sw) →
    keepsWidth f.reg w imdw → Reaches s f.addr sp w imdw 1 p s1 → f.cx = true → s.simd = false → s.noBroadcast → f.reg ≠ .px →
    Completes f.instr s fun t =>
      if store then StoredBytes s t p w.bytes (s.readU f.reg) ∧ ButStores s1.illegalSpace t [(p, w.bytes)]
      else ButHits (s1.illegalSpace.writeU f.reg (s.loaded .none sp p)) t

/-- A 40-bit transfer of a data register with a 48-bit word of a block in 48-bit mode, in any mode: bits 47:8 of the word; its
low byte is stored as 0 (R258, R263). In normal-word space words are six bytes apart, in byte space four addresses. -/
def Moves40 (s : State) (store : Bool) (f : MoveForm) : Prop :=
  ∀ sp n p s1 y k, (sp, n) ∈ [(Config.Space.nw, 1), (.bw, 4)] → f.size = .none → dregOf f.reg = some (y, k) →
    Reaches s f.addr sp .w40 true n p s1 → f.cx = true → s.noBroadcast →
    Completes f.instr s fun t =>
      if store then StoredBytes s t p 6 (s.dreg y k ++ 0#8) ∧ ButStores s1 t [(p, 6)]
      else ButHits (s1.setDreg y k (BitVec.ofNat 40 (s.mem.readLE p 6 / 256))) t

/-- A 48-bit transfer of PX with a 48-bit word: PX bits 63:16; a load clears the rest (R303). -/
def Moves48 (s : State) (store : Bool) (f : MoveForm) : Prop :=
  ∀ sp n imdw p s1, (sp, n) ∈ [(Config.Space.nw, 1), (.bw, 4)] → f.size = .none → f.reg = .px →
    Reaches s f.addr sp .w48 imdw n p s1 → f.cx = true →
    Completes f.instr s fun t =>
      if store then StoredBytes s t p 6 (s.data.px.extractLsb' 16 48) ∧ ButStores s1 t [(p, 6)]
      else ButHits { s1 with data := { s1.data with px := BitVec.ofNat 48 (s.mem.readLE p 6) ++ 0#16 } } t

/-- The registers of a 64-bit load, the low word first: a pair of data registers, even and odd (R298), a DAG register and its
neighbour (R300), PX whole (R303), a paired system register and in SIMD mode its complement (R300), any other register from
bits 31:0 (R301). -/
def State.takeLong (s : State) (u : UReg) (lo hi : Word) : State :=
  match u with
  | .r n => (s.writeU (.r (n &&& 14#4)) lo).writeU (.r (n ||| 1#4)) hi
  | .s n => (s.writeU (.s (n &&& 14#4)) lo).writeU (.s (n ||| 1#4)) hi
  | .i n => (s.writeU (.i n) lo).writeU (.i (n ^^^ 1#4)) hi
  | .m n => (s.writeU (.m n) lo).writeU (.m (n ^^^ 1#4)) hi
  | .l n => (s.writeU (.l n) lo).writeU (.l (n ^^^ 1#4)) hi
  | .b n => (s.writeU (.b n) lo).writeU (.b (n ^^^ 1#4)) hi
  | .px => { s with data := { s.data with px := hi ++ lo } }
  | u =>
    match s.simd, compOf u with
    | true, some c => (s.writeU u lo).writeU c hi
    | _, _ => s.writeU u lo

/-- What a 64-bit store takes, high word first: a register without a partner is replicated (R298, R300, R301, R303). -/
def State.giveLong (s : State) (u : UReg) : Long :=
  match u with
  | .r n => s.fx false (n ||| 1#4) ++ s.fx false (n &&& 14#4)
  | .s n => s.fx true (n ||| 1#4) ++ s.fx true (n &&& 14#4)
  | .i n => s.ireg (n ^^^ 1#4) ++ s.ireg n
  | .m n => s.mreg (n ^^^ 1#4) ++ s.mreg n
  | .l n => s.lreg (n ^^^ 1#4) ++ s.lreg n
  | .b n => s.breg (n ^^^ 1#4) ++ s.breg n
  | .px => s.data.px
  | u =>
    match compOf u with
    | some c => s.readU c ++ s.readU u
    | none => s.readU u ++ s.readU u

/-- The access moves 64 bits: with (lw), or in long-word space whatever its size, which is illegal there if it is a byte's or
a short word's (R263, R265). `n`: the addresses its modifier counts in. -/
def wideAccess (z : Size) (sp : Config.Space) (n : Nat) : Prop :=
  (sp = .lw ∧ n = 1) ∨ (z = .lw ∧ ((sp = .nw ∧ n = 1) ∨ (sp = .bw ∧ n = 4)))

/-- A 64-bit load or store, under the condition of PEx in any mode (R298 to R304, R505). -/
def MovesLong (s : State) (store : Bool) (f : MoveForm) : Prop :=
  ∀ sp n imdw p s0, wideAccess f.size sp n → Reaches s f.addr sp .w64 imdw n p s0 → f.cx = true → s.noBroadcast →
    let s1 := if f.size = .none ∨ f.size = .lw then s0 else s0.illegalSpace
    Completes f.instr s fun t =>
      if store then StoredBytes s t p 8 (s.giveLong f.reg) ∧ ButStores s1 t [(p, 8)]
      else ButHits (s1.takeLong f.reg (s.wordAt p) (s.wordAt (p + 4))) t

/-- In SIMD mode a register with a complement moves with the word of its element, each under its element's condition (R290,
R291, R292). -/
def MovesPair (s : State) (store : Bool) (f : MoveForm) : Prop :=
  ∀ sp w n p q s1 c, accessWidth f.size sp = some (w, n) → ReachesPair s f.addr sp w n p q s1 → s.simd = true →
    s.noBroadcast → compOf f.reg = some c → (f.cx = true ∨ f.cy = true) →
    Completes f.instr s fun t =>
      if store then
        (∀ k, k < w.bytes →
          t.mem.read (p + k) = (if f.cx then (s.readU f.reg).extractLsb' (8 * k) 8 else s.mem.read (p + k)) ∧
          t.mem.read (q + k) = (if f.cy then (s.readU c).extractLsb' (8 * k) 8 else s.mem.read (q + k))) ∧
        (∀ r, (r < p ∨ p + w.bytes ≤ r) → (r < q ∨ q + w.bytes ≤ r) → t.mem.read r = s.mem.read r) ∧
        ButStores s1 t ((if f.cx then [(p, w.bytes)] else []) ++ (if f.cy then [(q, w.bytes)] else []))
      else
        let s2 := if f.cx then s1.writeU f.reg (s.loaded f.size sp p) else s1
        ButHits (if f.cy then s2.writeU c (s.loaded f.size sp q) else s2) t

/-- In SIMD mode a register without a complement is loaded if an element's condition is true, and stored if PEx's is (R290). -/
def MovesAlone (s : State) (store : Bool) (f : MoveForm) : Prop :=
  ∀ sp w n imdw p s1, accessWidth f.size sp = some (w, n) → Reaches s f.addr sp w imdw n p s1 → s.simd = true →
    compOf f.reg = none → f.reg ≠ .px → (f.cx = true ∨ f.cy = true) →
    Completes f.instr s fun t =>
      if store then
        if f.cx then StoredBytes s t p w.bytes (s.readU f.reg) ∧ ButStores s1 t [(p, w.bytes)] else ButHits s1 t
      else ButHits (s1.writeU f.reg (s.loaded f.size sp p)) t

/-- The access goes through I1 or I9 with its broadcast bit set (R296). -/
def throughBroadcast (s : State) (a : Addr) : Prop :=
  match a with
  | .direct _ => False
  | .post k _ | .pre k _ => (k = 1#4 ∧ s.mode .bdcst1 = true) ∨ (k = 9#4 ∧ s.mode .bdcst9 = true)

/-- A broadcast load brings the datum to a data register and to its complement, of 64 bits to both pairs, in either mode and
under the condition of PEx (R296). -/
def Broadcasts (s : State) (f : MoveForm) : Prop :=
  ∀ sp n p s1 c, throughBroadcast s f.addr → (dregOf f.reg).isSome = true → compOf f.reg = some c → f.cx = true →
    (∀ w, accessWidth f.size sp = some (w, n) → Reaches s f.addr sp w false n p s1 →
      Completes f.instr s fun t =>
        ButHits ((s1.writeU f.reg (s.loaded f.size sp p)).writeU c (s.loaded f.size sp p)) t) ∧
    (wideAccess f.size sp n → (f.size = .none ∨ f.size = .lw) → Reaches s f.addr sp .w64 false n p s1 →
      Completes f.instr s fun t =>
        ButHits ((s1.takeLong f.reg (s.wordAt p) (s.wordAt (p + 4))).takeLong c (s.wordAt p) (s.wordAt (p + 4))) t)

/-- One access of a dual move: the data registers it loads and the bytes it stores, whether it moves 64 bits, and the state
after its address update. -/
structure Half where
  regs : Bool → RegNo → Option Reg40
  bytes : Nat → Option Byte
  long : Bool
  after : State

/-- The `n` bytes of `v` from byte `p` on, little-endian (R257). -/
def bytesAt {b : Nat} (v : BitVec b) (p n q : Nat) : Option Byte :=
  if p ≤ q ∧ q < p + n then some (v.extractLsb' (8 * (q - p)) 8) else none

/-- The access by `a` of data register `n` in a dual move: 16 or 32 bits, in SIMD mode with its implicit access; 40 bits in a
block in 48-bit mode; 64 bits in long-word space (R263, R290, R298, R505, R510). -/
def HalfMove (s : State) (a : Addr) (store : Bool) (n : RegNo) (h : Half) : Prop :=
  let is := fun (regs : Bool → RegNo → Option Reg40) (bytes : Nat → Option Byte) =>
    h.regs = (if store then fun _ _ => none else regs) ∧ h.bytes = if store then bytes else fun _ => none
  (∃ sp w imdw k p, s.simd = false ∧ accessWidth .none sp = some (w, k) ∧ keepsWidth (.r n) w imdw ∧
    Reaches s a sp w imdw k p h.after ∧ h.long = false ∧
    is (fun y r => if y = false ∧ r = n then some (reg40 (s.loaded .none sp p)) else none) (bytesAt (s.fx false n) p w.bytes)) ∨
  (∃ sp w k p q, s.simd = true ∧ accessWidth .none sp = some (w, k) ∧ ReachesPair s a sp w k p q h.after ∧ h.long = false ∧
    is (fun y r => if r = n then some (reg40 (s.loaded .none sp (if y then q else p))) else none)
      (fun b => bytesAt (s.fx true n) q w.bytes b <|> bytesAt (s.fx false n) p w.bytes b)) ∨
  (∃ sp k p, (sp, k) ∈ [(Config.Space.nw, 1), (.bw, 4)] ∧ Reaches s a sp .w40 true k p h.after ∧ h.long = false ∧
    is (fun y r => if y = false ∧ r = n then some (BitVec.ofNat 40 (s.mem.readLE p 6 / 256)) else none)
      (bytesAt (s.dreg false n ++ 0#8) p 6)) ∨
  (∃ imdw p, Reaches s a .lw .w64 imdw 1 p h.after ∧ h.long = true ∧
    is (fun y r => if y = false ∧ r = n &&& 14#4 then some (reg40 (s.wordAt p))
        else if y = false ∧ r = n ||| 1#4 then some (reg40 (s.wordAt (p + 4))) else none)
      (bytesAt (s.giveLong (.r n)) p 8))

/-- A computation beside a move: `u` is the state after the computation alone, `v` after the move alone, `dests` the registers
the move writes. A register that the move writes has the move's value, every other one the computation's (R48, R80); a pair
result is dropped whole if the move writes one of its registers (`wide`, R302). -/
structure Combined (s u v t : State) (dests : List UReg) (wide : Bool) : Prop where
  dag : t.dag = v.dag
  seq : t.seq = v.seq
  mem : t.mem = v.mem
  mmr : t.mmr = v.mmr
  cache : t.cache = v.cache
  posted : t.posted = v.posted
  excl : t.excl = v.excl
  bus : t.bus = v.bus
  bdry : t.bdry = v.bdry
  free : t.free = v.free
  px : t.data.px = v.data.px
  sys : SameSys v t
  mr : ∀ y bg, t.data.mrPhys y bg = u.data.mrPhys y bg
  fifo : SameFifo u t
  hidden : ∀ y n, t.hiddenDreg y n = s.hiddenDreg y n
  astat : ∀ y, t.astat y = if UReg.sys (if y then .astaty else .astatx) ∈ dests then v.astat y else u.astat y
  stky : ∀ y, t.stky y = if UReg.sys (if y then .stkyy else .stkyx) ∈ dests then v.stky y else u.stky y ||| v.stky y
  dregs : ∀ y n, t.dreg y n =
    if peReg y n ∈ dests then v.dreg y n else if wide = true ∧ peReg y (n ^^^ 1#4) ∈ dests then s.dreg y n else u.dreg y n

/-- The result of a computation is a register pair (R841). -/
def pairResult : Compute → Bool
  | .dbl2 _ _ _ _ | .dbl1 _ _ _ | .dblFloat _ _ | .dblFloatBy _ _ _ | .dblFromFlt _ _ | .dblScalb _ _ _ | .dblMul _ _ _
  | .dblMulFlt _ _ _ | .dblMulFlt2 _ _ _ | .mfDbl _ _ _ _ => true
  | _ => false

/-- `i` is computation `c` under `cond` beside the move that `move` makes alone; `fx` is what that move does. -/
def Beside (i : Instr) (s : State) (cond : Cond) (c : Compute) (move : Instr) (fx : Res Fx) : Prop :=
  ∀ u v, exec (.ifCompute cond c) s = .next u → exec move s = .next v →
    ∃ f, fx = .ok f ∧ Completes i s fun t => Combined s u v t f.dests (pairResult c)

/-! ### Address registers and register moves -/

/-- The buffer wrap of R274 on an exact sum: one length down from the end on, one length up below the base. -/
def Wrapped (base len : Nat) (sum : Int) (r : Word) (wrapped : Bool) : Prop :=
  r = BitVec.ofInt 32 (if (base : Int) + len ≤ sum then sum - len else if sum < base then sum + len else sum) ∧
  wrapped = decide ((base : Int) + len ≤ sum ∨ sum < base)

/-- `t` is `s` with index `dst` written and, where `mark` holds, the sticky bit and the latch of the circular buffer overflow
of I7 or I15 (R286). -/
def IndexWritten (s t : State) (dst : RegNo) (r : Word) (mark : Bool) : Prop :=
  let w := s.setI dst r
  let set := fun (sticky latch : Word) =>
    { w with sys := { w.sys with stkyx := w.sys.stkyx ||| sticky, irptl := w.sys.irptl ||| latch } }
  t = if mark ∧ dst = 7#4 then set 0x20000#32 0x20#32 else if mark ∧ dst = 15#4 then set 0x40000#32 0x200000#32 else w

/-- The space of an index register's address: of the mirrored one in bit-reverse mode (R276, R281). -/
def State.indexSpace (s : State) (a : RegNo) : Option Config.Space :=
  spaceOf (if s.reversed a then (s.ireg a).reverse else s.ireg a)

/-- MODIFY of index `src` to index `dst` by `md` items of `2 ^ k` bytes in byte space (R276, R278): always circular. In bit-reverse
mode the modifier, as a pattern, and the length are scaled down. -/
def Modifies (i : Instr) (s : State) (src dst : RegNo) (md : Word) (k : Nat) : Prop :=
  let sc := if s.indexSpace src = some .bw then k else 0
  let step : Int := if s.reversed src = true ∧ sc ≠ 0 then ((md.toNat / 2 ^ sc : Nat) : Int) else md.toInt * 2 ^ sc
  let len := if s.reversed src then (s.lreg src).toNat / 2 ^ sc else (s.lreg src).toNat * 2 ^ sc
  Completes i s fun t => ∃ r w,
    Wrapped (s.breg src).toNat len ((s.ireg src).toNat + step) r w ∧ IndexWritten s t dst r (w && decide (dst = src))

/-- The register holds one of the 40-bit data registers. -/
def isData (u : UReg) : Bool := (dregOf u).isSome

/-- A move of `src` to `dst` under the condition of PEx and, in SIMD mode under that of PEy, of their complements (R49, R77):
between data registers all 40 bits, else 32 bits. A source without a complement goes to the destination's complement itself; to a
destination without one there is no implicit move. PX is not among them. -/
def MovesTo (i : Instr) (s : State) (cx cy : Bool) (dst src : UReg) : Prop :=
  dst ≠ .px → src ≠ .px →
    let one := fun (t : State) (d x : UReg) =>
      match dregOf d, dregOf x with
      | some (y, n), some (z, k) => t.setDreg y n (s.dreg z k)
      | _, _ => t.writeU d (s.readU x)
    Completes i s fun t =>
      let s1 := if cx then one s dst src else s
      t = match s.simd && cy, compOf dst with
        | true, some d => one s1 d ((compOf src).getD src)
        | _, _ => s1

/-- The core memory-mapped registers after a store of `v` to `r` (R320 to R324, R358, R370, R374, R376, R1138, R1153, R1176,
R1177): reserved bits ignore writes; read-only registers and SECI_ID keep their contents; the breakpoint registers but BRKCTL
take it with UMODE only; CMMR_GPERR_STAT is locked by its first error; ILLOP is cleared. -/
def storedMmr (s : State) (r : CoreMmr) (v : Word) : Mmr :=
  let m := s.mmr
  let own := fun (x : Mmr) => if s.gov.umode then x else m
  match r with
  | .sysctl => { m with sysctl := v &&& 0x4603FE0D#32 }
  | .gperrStat => { m with gperrStat :=
      if v = 0#32 then 0#32 else if m.gperrStat = 0#32 then v &&& 0xFC0000FF#32 else m.gperrStat }
  | .pfbStart => { m with pfbStart := v }
  | .pfbEnd => { m with pfbEnd := v }
  | .pfbRange => { m with pfbRange := v }
  | .pwrL1Sd => { m with pwrL1Sd := v &&& 0xF#32 }
  | .pwrGlb => { m with pwrGlb := v &&& 0x3#32 }
  | .pwrL1Ls => { m with pwrL1Ls := v &&& 0xF#32 }
  | .btbCfg => { m with btbCfg := v &&& 0x19F#32 }
  | .btbLockStart => { m with btbLockStart := v }
  | .btbLockEnd => { m with btbLockEnd := v }
  | .l1cCfg => { m with l1cCfg := v &&& 0x01F7F777#32 }
  | .l1cCfg2 => { m with l1cCfg2 := v &&& 0xFFFF#32 }
  | .l1cStart k => { m with l1cStart := m.l1cStart.set k v }.compute k
  | .l1cEnd k => { m with l1cEnd := m.l1cEnd.set k v }.compute k
  | .invIxstart => { m with invIxstart := v }
  | .invCnt => { m with invCnt := v }
  | .ospid => { m with ospid := v }
  | .brkctl => { m with brkctl := v &&& 0x0F3BFCFF#32 }
  | .iaStart k => own { m with iaStart := m.iaStart.set k (v &&& 0x00FFFFFF#32) }
  | .iaEnd k => own { m with iaEnd := m.iaEnd.set k (v &&& 0x00FFFFFF#32) }
  | .daStart k => own { m with daStart := m.daStart.set k v }
  | .daEnd k => own { m with daEnd := m.daEnd.set k v }
  | .paStart => own { m with paStart := v }
  | .paEnd => own { m with paEnd := v }
  | .emun => own { m with emun := v }
  | .illop => { m with illop := 0#32, illopLocked := false }
  | .pfm k => { m with pfm := m.pfm.set k v }
  | .brkstat | .revid | .stage _ | .seciId | .coreId => m

/-- What the spec asks of an access to a cache register (R370, R372, U51): no range operation runs, the DM bus, code in L1, not in
the twelve instructions after a store to SHL1C_CFG or SHL1C_CFG2, the low bits of a range address 0, no line in a cache that gets a
new property: it was written back and invalidated before. -/
def State.cacheFree (s : State) (pm store : Bool) (r : CoreMmr) (v : Word) : Prop :=
  r.isCache = true → s.mmr.invRuns = false ∧ pm = false ∧ s.external = false ∧ s.seq.cacheHold = 0 ∧
    (store = true → (r.isRange = true → lowBits v = false) ∧
      (r = .l1cCfg → ∀ x ∈ s.cache.lines, x.unit.reconfigured s.mmr.l1cCfg v = false) ∧
      (r = .l1cCfg2 → s.cache.lines = [] ∨ changesRange s.mmr.l1cCfg2 v = false))

/-- The parity error paths of R323: status bit, PARE_ bit of the class, enable bit of the class in MODE1 (R173, R1080); that D1
and D2 are of the data class is log 63. -/
def parityPaths : List (ParityPath × Nat × Nat × Nat) :=
  [(.dcpm, 0, 29, 28), (.dcdm, 1, 29, 28), (.icic, 2, 31, 29), (.dss1, 3, 27, 27), (.dss2, 4, 27, 27), (.dcd2, 5, 29, 28),
   (.dcd1, 6, 29, 28), (.icpm, 7, 31, 29)]

/-! ### Branches, returns, loops (spec/41_group2.md) -/

/-- What a branch instruction does whether taken or not, from the state `c` after its computation: with (DB) interrupts are
held off (R1051), and a restricted sequence latches RINSEQI and leaves the loop registers open (R1037). -/
def BranchPasses (s c t : State) (db : Bool) : Prop :=
  t = { c with
    seq := { c.seq with noIrq := if db then 3 else c.seq.noIrq }
    sys := { c.sys with irptl := c.sys.irptl ||| (if s.seq.rinseq db then 0x100000#32 else 0#32) }
    bdry := { c.bdry with loopFree := c.bdry.loopFree || s.seq.rinseq db } }

/-- The sequencer sent to `target`: at once, or after the two delay slots of a (DB) branch (R564). -/
def Seq.sentTo (q : Seq) (target : IAddr) (db : Bool) (sort : BranchSort) : Seq :=
  if db then { q with branches := q.branches ++ [{ target := target, slots := 3, sort := sort }] } else { q with npc := target }

/-- A branch may be taken: outside delay slots, and not within twelve instructions after a store to a branch target buffer
register (R568, R1138, R1221). -/
abbrev State.branchFree (s : State) : Prop := s.seq.branches = [] ∧ s.seq.btbHold = 0

/-- A jump may be taken, also with (DB) in the first slot of a delayed jump (R568). -/
def State.jumpFree (s : State) (db : Bool) : Prop :=
  s.seq.btbHold = 0 ∧ (s.seq.branches = [] ∨
    ∃ b, s.seq.branches = [b] ∧ db = true ∧ (b.sort = .jump ∨ b.sort = .jumpCi) ∧ b.slots = 2)

/-- A push on the PC stack: a full stack overflows and keeps its entries (R63, R66; log 22). -/
def Seq.pushed (q : Seq) (w : Word) : Seq :=
  if 30 ≤ q.pcStk.length then { q with pcOv := true } else { q with pcStk := w :: q.pcStk }

/-- A push that leaves the PC stack with 29 entries or more latches SOVFI (R66). -/
def Sys.almostFull (y : Sys) (q : Seq) : Sys :=
  { y with irptl := y.irptl ||| (if q.pcOv = true ∨ 28 ≤ q.pcStk.length then 0x80#32 else 0#32) }

/-- A pop of the PC stack leaves `q` and gives address `a`: the top entry; an overflowed stack becomes a full one, and its top is
open (R65, R66, log 22). -/
def PopsPc (s : State) (q : Seq) (a : IAddr) : Prop :=
  (s.seq.pcOv = false ∧ ∃ w rest, s.seq.pcStk = w :: rest ∧ a = w.truncate 24 ∧ q = { s.seq with pcStk := rest }) ∨
  (s.seq.pcOv = true ∧ a = (s.pcstk s.seq).truncate 24 ∧ q = { s.seq with pcOv := false })

/-- Everything but the sequencer, the system registers and what is left to the end of the step is as before. -/
def SameOutsideControl (s t : State) : Prop :=
  t.data = s.data ∧ t.dag = s.dag ∧ t.mmr = s.mmr ∧ t.mem = s.mem ∧ t.posted = s.posted ∧ t.excl = s.excl ∧ t.free = s.free ∧
  t.bus = s.bus ∧ t.cache = s.cache

/-- Bit `k` is the lowest one set in `w`. -/
def Lowest (w : Word) (k : Nat) : Prop := w.getLsbD k = true ∧ ∀ j, j < k → w.getLsbD j = false

/-- MODE1, ASTATX and ASTATY of the status stack entry `e` are back (R72, R86). -/
def Sys.restored (y : Sys) (e : StsEntry) : Sys :=
  { y with mode1 := e.mode1 &&& mode1Mask, astatx := e.astatx &&& astatMask, astaty := e.astaty &&& astatMask }

/-- A jump of `i` to `target` from the state `c` after its computation (R566, R567, R577): not taken it falls through; taken
it goes to its target; (LA) pops the PC and the loop stacks; (CI) ends the service of the interrupt with the lowest number and
pops the status stack. -/
def Jumps (i : Instr) (s : State) (cond : Cond) (mods : JumpMods) (target : IAddr) (c : State) : Prop :=
  let db := mods.delayed
  (s.taken cond = false → Completes i s fun t => BranchPasses s c t db) ∧
  (s.taken cond = true → s.jumpFree db → mods.clears = false → mods.aborts = false →
    Completes i s fun t => ∃ p, BranchPasses s c p db ∧ SameOutsideControl c t ∧ t.sys = p.sys ∧ t.bdry.taken = true ∧
      t.seq = p.seq.sentTo target db .jump) ∧
  (∀ e loops q a, s.taken cond = true → s.jumpFree db → mods.aborts = true → PopsPc s q a → s.seq.loopStk = e :: loops →
    Completes i s fun t => ∃ p, BranchPasses s c p db ∧ SameOutsideControl c t ∧ t.sys = p.sys ∧ t.bdry.taken = true ∧
      t.seq = ({ p.seq with
        pcStk := q.pcStk, pcOv := q.pcOv, loopStk := loops, loopOv := false, lcntrs := e.start :: s.seq.lcntrs } : Seq).sentTo
          target db .jump) ∧
  (∀ e sts, s.taken cond = true → s.jumpFree db → mods.clears = true → s.seq.stsStk = e :: sts →
    Completes i s fun t => ∃ p, BranchPasses s c p db ∧ SameOutsideControl c t ∧ t.bdry.taken = true ∧ t.bdry.mode1Now = !db ∧
      t.seq = ({ p.seq with stsStk := sts, stsOv := false } : Seq).sentTo target db .jumpCi ∧
      (s.sys.imaskp = 0#32 → t.sys = p.sys.restored e) ∧
      ∀ k, Lowest s.sys.imaskp k →
        t.sys = { p.sys.restored e with
          imaskp := s.sys.imaskp &&& ~~~(1#32 <<< k), irptl := p.sys.irptl &&& ~~~(1#32 <<< k) })

/-- A call of `i` to `target` (R565): the return address, after the delay slots, goes to the PC stack marked ISCALL (R63), which
may raise SOVFI or overflow (R66; that a full stack keeps its entries is log 22). -/
def Calls (i : Instr) (s : State) (cond : Cond) (db : Bool) (target : IAddr) (c : State) : Prop :=
  (s.taken cond = false → Completes i s fun t => BranchPasses s c t db) ∧
  (s.taken cond = true → s.branchFree →
    Completes i s fun t => ∃ p, BranchPasses s c p db ∧ SameOutsideControl c t ∧ t.sys = p.sys.almostFull s.seq ∧
      t.bdry.taken = true ∧
      t.seq = (p.seq.pushed ((if db then s.succ (s.succ s.seq.npc) else s.seq.npc).setWidth 32 ||| 0x1000000#32)).sentTo
        target db .call)

/-- A return of `i` (R575): control goes to the top of the PC stack, which is popped; RTI also ends the service of the
interrupt with the lowest number and restores MODE1, ASTATX and ASTATY from the status stack (R567, R1048). The breakpoint
interrupt clears BRKSTAT (R1049, D59); the self-nesting SECI keeps its latch, and while it is nested (SINEST in the saved MODE1)
stays in service (R1049). -/
def Returns (i : Instr) (s : State) (cond : Cond) (rti db : Bool) (c : State) : Prop :=
  (s.taken cond = false → Completes i s fun t => BranchPasses s c t db) ∧
  ∀ q a, s.taken cond = true → s.branchFree → PopsPc s q a →
    (rti = false → Completes i s fun t => ∃ p, BranchPasses s c p db ∧ SameOutsideControl c t ∧ t.sys = p.sys ∧
      t.bdry.taken = true ∧ t.seq = ({ p.seq with pcStk := q.pcStk, pcOv := q.pcOv } : Seq).sentTo a db .ret) ∧
    (rti = true → ∀ e sts, s.seq.stsStk = e :: sts →
      Completes i s fun t => ∃ p, BranchPasses s c p db ∧ t.bdry.taken = true ∧ t.bdry.mode1Now = !db ∧
        t.seq = ({ p.seq with pcStk := q.pcStk, pcOv := q.pcOv, stsStk := sts, stsOv := false } : Seq).sentTo a db .ret ∧
        (s.sys.imaskp = 0#32 → SameOutsideControl c t ∧ t.sys = p.sys.restored e) ∧
        ∀ k, Lowest s.sys.imaskp k →
          if k = 15 ∧ e.mode1.getLsbD 30 = true then SameOutsideControl c t ∧ t.sys = p.sys.restored e
          else
            SameOutsideControl (if k = 12 then { c with mmr := { c.mmr with brkstat := 0#32 } } else c) t ∧
            t.sys = { p.sys.restored e with
              imaskp := s.sys.imaskp &&& ~~~(1#32 <<< k)
              irptl := if k = 15 ∧ s.sys.mode2.getLsbD 0 = true then p.sys.irptl else p.sys.irptl &&& ~~~(1#32 <<< k) })

/-- The state after the computation of a branch: in the elements whose condition is true, or with ELSE in the others. -/
def AfterCompute (s : State) (cond : Cond) (els : Bool) (comp : Compute) (c : State) : Prop :=
  (comp = .none ∧ c = s) ∨
  (els = false ∧ exec (.ifCompute cond comp) s = .next c) ∨
  (els = true ∧ s.taken cond = true ∧ s.cx cond = true ∧ s.cy cond = true ∧ c = s) ∨
  (els = true ∧ s.cx cond = false ∧ s.cy cond = false ∧ exec (.compute comp) s = .next c)

/-- A loop of `i` starts (R583 to R591): its top, the next instruction, goes to the PC stack with ISCALL set, the loop mark in
bit 26 and the loop type in bits 29:27; its end address with the termination code and the loop type, and the count, go to the
loop stacks. -/
def StartsLoop (i : Instr) (s : State) (last : IAddr) (term : BitVec 5) (type : BitVec 3) (count : Word)
    (above : List Word) : Prop :=
  s.seq.branches = [] → s.seq.nestingAllowed last = true →
    Completes i s fun t =>
      t = { s with
        sys := s.sys.almostFull s.seq
        seq := { s.seq.pushed (s.seq.npc.setWidth 32 ||| 0x5000000#32 ||| (type.setWidth 32 <<< 27)) with
          loopStk := { laddr := type ++ term ++ last, count := count, start := count } :: s.seq.loopStk
          lcntrs := above } }

/-- A loop of `i` starts on full loop stacks: they overflow, which latches SOVFI, and their top entry is open (R71, log 22). -/
def StartsSeventhLoop (i : Instr) (s : State) (last : IAddr) : Prop :=
  ∀ e rest, s.seq.branches = [] → s.seq.nestingAllowed last = true → s.seq.lcntrs = [] → s.seq.loopStk = e :: rest →
    Completes i s fun t => ∃ (x : LoopEntry) (type : BitVec 3),
      t = { s with
        sys := { s.sys with irptl := s.sys.irptl ||| 0x80#32 }
        seq := { s.seq.pushed (s.seq.npc.setWidth 32 ||| 0x5000000#32 ||| (type.setWidth 32 <<< 27)) with
          loopStk := x :: rest, loopOv := true } }

/-- The truth of a loop's termination condition: on PEx, in SIMD mode on both elements (R585, R590). -/
def State.endsLoop (s : State) (e : LoopEntry) : Bool :=
  let c := condOf (e.laddr.extractLsb' 24 5)
  s.cond false c && (!s.simd || s.cond true c)

/-- The check of an arithmetic loop: `n` more executions of its end once its condition is true. A condition on a multiplier flag,
or one that became true during a CALL of an inner loop, may be missed once; the next check then ends the loop (R590, U17: n or n + 1
iterations). -/
def LoopChecked (s : State) (n : Nat) (e e' : LoopEntry) : Prop :=
  (e.missed = true → e' = { e with exits := n, call := .none, missed := false }) ∧
  (e.missed = false → s.endsLoop e = false → e' = e) ∧
  (e.missed = false → s.endsLoop e = true →
    e' = { e with exits := n, call := .none } ∨
    (e' = { e with call := .none, missed := true } ∧
      ((∃ d, e.call = .turned d) ∨ condOf (e.laddr.extractLsb' 24 5) ∈ [.mv, .ms, .notMv, .notMs])))

/-- A loop entry without the model's mark of a CALL by a loop inside it (R590, U17). -/
def LoopEntry.unmarked (e : LoopEntry) : LoopEntry := { e with call := .none }

/-- The watch on a CALL of an inner loop after the instruction executed from `s0` to `s` (R590, U17): a CALL by an arithmetic loop
marks the arithmetic loops around it whose condition is false; a mark says whether the condition has become true, and goes when the
CALL has returned, its delay slots included, unless the condition has been true since. Nothing else of the loops changes. -/
def CallsWatched (s0 s : State) (e e' : LoopEntry) (inner : Bool) : Prop :=
  e'.unmarked = e.unmarked ∧
  let now := s.endsLoop e
  let away := fun d : Nat => d < s.seq.pcstkp ∨ s.seq.branches ≠ []
  let starts := s.bdry.called = true ∧ inner = true ∧ e.isArith = true ∧ e.call = .none ∧ s0.endsLoop e = false
  (e.call = .none → ¬ starts → e'.call = .none) ∧
  ∀ d, (starts ∧ d = s0.seq.pcstkp) ∨ e.call = .during d ∨ e.call = .turned d →
    (now = true → e'.call = .turned d) ∧ (now = false → away d → e'.call = .during d) ∧
    (now = false → ¬ away d → e'.call = .none)

/-! ### System register bits, stacks, frames (spec/43_group4.md) -/

/-- BIT SET, CLR or TGL: a write of `f` of the register's value and, in SIMD mode, the same of the complementary register
(R661). -/
def WritesBits (i : Instr) (s : State) (r : SysReg) (f : Word → Word) : Prop :=
  Completes i s fun t =>
    t = match s.simd, compOf (.sys r) with
      | true, some (.sys c) => (s.writeSys r (f (s.readSys r))).writeSys c (f (s.readSys c))
      | _, _ => s.writeSys r (f (s.readSys r))

/-- BIT TST or XOR: BTF of PEx, and in SIMD mode BTF of PEy from the complementary register (R133, R661). `marks`: it counts
as a write of ASTAT, whose effect on conditions comes one instruction later (R131). -/
def TestsBits (i : Instr) (s : State) (r : SysReg) (marks : Bool) (f : Word → Bool) : Prop :=
  Completes i s fun t =>
    t.flagOf false 18 = f (s.readSys r) ∧ t.astat false &&& 0xFFFBFFFF#32 = s.astat false &&& 0xFFFBFFFF#32 ∧
    t.astat true &&& 0xFFFBFFFF#32 = s.astat true &&& 0xFFFBFFFF#32 ∧
    t.flagOf true 18 =
      (match s.simd, compOf (.sys r) with
        | true, some (.sys c) => f (s.readSys c)
        | _, _ => s.flagOf true 18) ∧
    t = { s with
      sys := { s.sys with astatx := t.sys.astatx, astaty := t.sys.astaty }
      bdry := { s.bdry with
        astatxWritten := s.bdry.astatxWritten || marks, astatyWritten := s.bdry.astatyWritten || (marks && s.simd) } }

/-- From `u`, what an instruction that started in `s` or an idle step leaves, to `t`: some cycles pass, at least one outside
light sleep. EMUCLK2 and EMUCLK count them (R85). The running timer counts TCOUNT down to zero and from TPERIOD again, and
latches both timer interrupts and pulses the TMREXP pin when it reaches zero (R1071, R1073); a light sleep freezes it (R1053). -/
def TimePasses (s u t : State) : Prop :=
  ∃ c : Nat, (s.lightSleep = false → 0 < c) ∧
    t.sys.emuclk2 ++ t.sys.emuclk = (u.sys.emuclk2 ++ u.sys.emuclk) + BitVec.ofNat 64 c ∧
    (t.bus = u.bus ∨ t.bus = .timerExpired :: u.bus) ∧
    (s.lightSleep = true → t.sys.tcount = u.sys.tcount ∧ t.sys.timer = u.sys.timer ∧ t.bus = u.bus) ∧
    (s.sys.timer = .off → u.sys.mode2.getLsbD 5 = false →
      t.sys.tcount = u.sys.tcount ∧ t.sys.timer = u.sys.timer ∧ t.bus = u.bus) ∧
    (s.lightSleep = false → s.sys.timer = .on → u.sys.mode2.getLsbD 5 = true → u.bdry.tcountWritten = false →
      u.sys.tperiod = s.sys.tperiod →
      let n := s.sys.tcount.toNat
      let period := s.sys.tperiod.toNat
      let expired := decide ((0 < n ∧ n ≤ c) ∨ n + period + 1 ≤ c)
      t.sys.timer = .on ∧ t.bus = (if expired then .timerExpired :: u.bus else u.bus) ∧
      t.sys.tcount.toNat = (if c ≤ n then n - c else period - (c - n - 1) % (period + 1)) ∧
      ∀ k ∈ [11, 22], t.sys.irptl.getLsbD k = (!u.sys.imaskp.getLsbD k && (u.sys.irptl.getLsbD k || expired)))

end Sys2Proof.Machine

open Sys2Proof Sys2Proof.Machine

/-- R730 to R734, R737 to R742 and their short forms (R514): each additive operation adds, subtracts, increments or negates exactly,
wraps or saturates, and sets AZ, AV, AN, AC and AOS as R727 and R728 say. The average is exact, never overflows, and an odd sum goes
to the even neighbour or, with TRUNCATE, down. ABS gives the magnitude; that of 0x80000000 overflows, sets AOS, and saturates with
ALUSAT; AS is the sign of the operand, AN and AC are cleared. -/
def Obligations.FixedArithmetic : Prop :=
  (∀ (s : State) (rn rx ry : RegNo),
     let X := fun y => (s.fx y rx).toInt
     let Y := fun y => (s.fx y ry).toInt
     let N := fun y => (s.fx y rn).toInt
     let x := fun y => (s.fx y rx).toNat
     let w := fun y => (s.fx y ry).toNat
     let n := fun y => (s.fx y rn).toNat
     let ci := fun y => (s.flagOf y 3).toNat
     Adds (.fixAdd rn rx ry) s rn (fun y => X y + Y y) (fun y => decide (2 ^ 32 ≤ x y + w y)) ∧
     Adds (.fixSub rn rx ry) s rn (fun y => X y - Y y) (fun y => decide (w y ≤ x y)) ∧
     Adds (.fixAddCarry rn rx ry) s rn (fun y => X y + Y y + ci y) (fun y => decide (2 ^ 32 ≤ x y + w y + ci y)) ∧
     Adds (.fixSubBorrow rn rx ry) s rn (fun y => X y - Y y + ci y - 1) (fun y => decide (w y < x y + ci y)) ∧
     Adds (.fixPlusCarry rn rx) s rn (fun y => X y + ci y) (fun y => decide (2 ^ 32 ≤ x y + ci y)) ∧
     Adds (.fixPlusCarryMinus1 rn rx) s rn (fun y => X y + ci y - 1) (fun y => decide (0 < x y + ci y)) ∧
     Adds (.fixInc rn rx) s rn (fun y => X y + 1) (fun y => decide (2 ^ 32 ≤ x y + 1)) ∧
     Adds (.fixDec rn rx) s rn (fun y => X y - 1) (fun y => decide (0 < x y)) ∧
     Adds (.fixNeg rn rx) s rn (fun y => -X y) (fun y => decide (x y = 0)) ∧
     Adds (.shortAdd rn rx) s rn (fun y => N y + X y) (fun y => decide (2 ^ 32 ≤ n y + x y)) ∧
     Adds (.shortSub rn rx) s rn (fun y => N y - X y) (fun y => decide (x y ≤ n y)) ∧
     Adds (.shortInc rn rx) s rn (fun y => X y + 1) (fun y => decide (2 ^ 32 ≤ x y + 1)) ∧
     Adds (.shortDec rn rx) s rn (fun y => X y - 1) (fun y => decide (0 < x y))) ∧
  (∀ (s : State) (rn rx ry : RegNo),
     Completes (.fixAvg rn rx ry) s fun t =>
       ComputeFrame s t [rn] aluFlagMask 0#32 ∧ SameMr s t ∧ SameFifo s t ∧
       ∀ y, s.runs y = true →
         let sum := (s.fx y rx).toInt + (s.fx y ry).toInt
         let out := t.fx y rn
         t.dreg y rn = reg40 out ∧
         (2 * out.toInt - sum = 0 ∨ (2 * out.toInt - sum).natAbs = 1) ∧
         (sum % 2 ≠ 0 → if s.mode .truncate then 2 * out.toInt = sum - 1 else out.getLsbD 0 = false) ∧
         AluFlagsAre t y (decide (out = 0#32)) false out.msb (decide (2 ^ 32 ≤ (s.fx y rx).toNat + (s.fx y ry).toNat))
           false false false) ∧
  (∀ (s : State) (rn rx : RegNo),
     Completes (.fixAbs rn rx) s fun t =>
       ComputeFrame s t [rn] aluFlagMask 0x4#32 ∧ SameMr s t ∧ SameFifo s t ∧
       ∀ y, s.runs y = true →
         let x := s.fx y rx
         let out := t.fx y rn
         let ovf := decide (x = 0x80000000#32)
         t.dreg y rn = reg40 out ∧
         out.toNat = (if ovf && s.mode .alusat then 2 ^ 31 - 1 else x.toInt.natAbs) ∧
         AluFlagsAre t y (decide (x = 0#32)) ovf false false x.msb false false ∧
         t.stky y = s.stky y ||| (if ovf then 0x4#32 else 0#32))

/-- R743 to R750 and their short forms (R514): PASS, AND, OR, XOR, NOT, MIN, MAX and CLIP write their result and the flags of
R729; the extension field of the result is 0 (R722). MIN, MAX and CLIP order their operands as signed numbers. -/
def Obligations.LogicalOperations : Prop :=
  ∀ (s : State) (rn rx ry : RegNo),
    let x := fun y => s.fx y rx
    let w := fun y => s.fx y ry
    let n := fun y => s.fx y rn
    Logic (.fixAnd rn rx ry) s rn (fun y => x y &&& w y) ∧
    Logic (.fixOr rn rx ry) s rn (fun y => x y ||| w y) ∧
    Logic (.fixXor rn rx ry) s rn (fun y => x y ^^^ w y) ∧
    Logic (.fixNot rn rx) s rn (fun y => ~~~(x y)) ∧
    Logic (.fixPass rn rx) s rn x ∧
    Logic (.fixMin rn rx ry) s rn (fun y => BitVec.ofInt 32 (min (x y).toInt (w y).toInt)) ∧
    Logic (.fixMax rn rx ry) s rn (fun y => BitVec.ofInt 32 (max (x y).toInt (w y).toInt)) ∧
    Logic (.fixClip rn rx ry) s rn (fun y =>
      BitVec.ofInt 32 ((x y).toInt.sign * min (x y).toInt.natAbs (w y).toInt.natAbs)) ∧
    Logic (.shortAnd rn rx) s rn (fun y => n y &&& x y) ∧
    Logic (.shortOr rn rx) s rn (fun y => n y ||| x y) ∧
    Logic (.shortXor rn rx) s rn (fun y => n y ^^^ x y) ∧
    Logic (.shortNot rn rx) s rn (fun y => ~~~(x y)) ∧
    Logic (.shortPass rn rx) s rn x

/-- R735, R736, R795, R850 and the short compares (R514): a compare orders its operands as signed or unsigned numbers, or as
floating-point numbers of 40 or 64 bits, infinities included and both zeros equal, and accumulates "greater" in CACC. -/
def Obligations.Comparisons : Prop :=
  (∀ (s : State) (rx ry : RegNo),
     Compares (.fixComp rx ry) s (fun y => decide ((s.fx y rx).toInt < (s.fx y ry).toInt)) (fun y => s.fx y rx == s.fx y ry)
       (fun y => decide ((s.fx y ry).toInt < (s.fx y rx).toInt)) (fun _ => false) false ∧
     Compares (.fixCompU rx ry) s (fun y => decide ((s.fx y rx).toNat < (s.fx y ry).toNat)) (fun y => s.fx y rx == s.fx y ry)
       (fun y => decide ((s.fx y ry).toNat < (s.fx y rx).toNat)) (fun _ => false) false ∧
     Compares (.shortComp rx ry) s (fun y => decide ((s.fx y rx).toInt < (s.fx y ry).toInt)) (fun y => s.fx y rx == s.fx y ry)
       (fun y => decide ((s.fx y ry).toInt < (s.fx y rx).toInt)) (fun _ => false) false) ∧
  ∀ (s : State) (rx ry : RegNo) (x z : Pair),
    FltCompares (.fltComp rx ry) s (fun y => fmt40.place (s.fin y rx)) (fun y => fmt40.place (s.fin y ry)) ∧
    FltCompares (.shortFltComp rx ry) s (fun y => fmt40.place (s.fin y rx)) (fun y => fmt40.place (s.fin y ry)) ∧
    FltCompares (.dblComp x z) s (fun y => fmt64.place (s.dbits y x)) (fun y => fmt64.place (s.dbits y z))

/-- R786, R788 and R790 to R794 with the short forms (R514): sums, differences, their magnitudes and averages. -/
def Obligations.FloatSums : Prop :=
  ∀ (s : State) (rn rx ry : RegNo),
    SumRow (.fltAdd rn rx ry) s rn rx ry false false false ∧
    SumRow (.fltSub rn rx ry) s rn rx ry true false false ∧
    SumRow (.fltAbsAdd rn rx ry) s rn rx ry false false true ∧
    SumRow (.fltAbsSub rn rx ry) s rn rx ry true false true ∧
    SumRow (.fltAvg rn rx ry) s rn rx ry false true false ∧
    SumRow (.shortFltAdd rn rx) s rn rn rx false false false ∧
    SumRow (.shortFltSub rn rx) s rn rn rx true false false

/-- R796 to R798 and R812 to R815: negate, ABS, PASS, COPYSIGN, MIN, MAX and CLIP select bits of their flushed operands. -/
def Obligations.FloatSelections : Prop :=
  ∀ (s : State) (rn rx ry : RegNo),
    let nan1 := fun y => s.nanF y rx
    let nan2 := fun y => s.nanF y rx ∨ s.nanF y ry
    let x := fun y => s.flushed y rx
    let w := fun y => s.flushed y ry
    let mag := 0x7FFFFFFFFF#40
    let sgn := 0x8000000000#40
    let below := fun a b : Reg40 => fmt40.key a.toNat < fmt40.key b.toNat
    SelectRow (.fltNeg rn rx) s rn nan1 (fun y => x y ^^^ sgn) ∧
    SelectRow (.fltPass rn rx) s rn nan1 x ∧
    SelectRow (.fltCopysign rn rx ry) s rn nan2 (fun y => (x y &&& mag) ||| (w y &&& sgn)) ∧
    SelectRow (.fltMin rn rx ry) s rn nan2 (fun y =>
      if below (x y) (w y) then x y else if below (w y) (x y) then w y else x y ||| w y) ∧
    SelectRow (.fltMax rn rx ry) s rn nan2 (fun y =>
      if below (w y) (x y) then x y else if below (x y) (w y) then w y else x y &&& w y) ∧
    SelectRow (.fltClip rn rx ry) s rn nan2 (fun y =>
      if x y &&& mag < w y &&& mag then x y else (w y &&& mag) ||| (x y &&& sgn)) ∧
    FltRow (.fltAbs rn rx) s rn nan1 (fun _ => false) (fun y => fmt40.sign (s.fin y rx)) (fun t y =>
      t.dreg y rn = x y &&& mag ∧
      AluFlagsAre t y (decide (fmt40.exp (x y).toNat = 0)) false false false (fmt40.sign (s.fin y rx)) false true ∧
      t.stky y = s.stky y)

/-- R799, R800, R808, R809 and the short FLOAT (R514): RND, SCALB and FLOAT deliver an exact result that the format holds as
it is and overflow or underflow outside its range; a 32-bit integer always converts exactly. -/
def Obligations.FloatScalings : Prop :=
  ∀ (s : State) (rn rx ry : RegNo),
    let nan := fun y => s.nanF y rx
    let n := fun y => (s.fx y rx).toInt
    let k := fun y => (s.fx y ry).toInt
    let one := fun _ : Bool => true
    let zero := fun _ : Bool => false
    FltRow (.fltRnd rn rx) s rn nan one zero (fun t y =>
      (∀ g, s.fl y rx = .inf g → FltIs s t y rn (fltInf g)) ∧ (∀ g, s.fl y rx = .zero g → FltIs s t y rn (fltZero g)) ∧
      (∀ v : Reg40, fmt40.value v.toNat = fmt40.value (s.fin y rx) → fmt40.value v.toNat ≠ none → fmt40.value v.toNat ≠ some 0 →
        v &&& 0xFF#40 = 0#40 → FltIs s t y rn v) ∧
      ∀ p, fmt40.value (s.fin y rx) = some p → FltEnds s t y rn 23 (decide (p < 0)) p) ∧
    FltRow (.fltScalb rn rx ry) s rn nan one zero (fun t y =>
      (∀ g, s.fl y rx = .inf g → FltIs s t y rn (fltInf g)) ∧ (∀ g, s.fl y rx = .zero g → FltIs s t y rn (fltZero g)) ∧
      (∀ (p : ℚ) (v : Reg40), fmt40.value (s.fin y rx) = some p → p ≠ 0 → fmt40.value v.toNat = some (p * (2 : ℚ) ^ (k y)) →
        FltIs s t y rn v) ∧
      ∀ p, fmt40.value (s.fin y rx) = some p → FltEnds s t y rn s.bound (decide (p < 0)) (p * (2 : ℚ) ^ (k y))) ∧
    FltRow (.fltFloat rn rx) s rn (fun _ => False) one zero (fun t y =>
      fmt40.value (t.dreg y rn).toNat = some (n y : ℚ) ∧ (n y = 0 → t.dreg y rn = 0#40) ∧
      AluFlagsAre t y (decide (n y = 0)) false (decide (n y < 0)) false false false true ∧ t.stky y = s.stky y) ∧
    FltRow (.shortFloat rn rx) s rn (fun _ => False) one zero (fun t y =>
      fmt40.value (t.dreg y rn).toNat = some (n y : ℚ) ∧ (n y = 0 → t.dreg y rn = 0#40) ∧
      AluFlagsAre t y (decide (n y = 0)) false (decide (n y < 0)) false false false true ∧ t.stky y = s.stky y) ∧
    FltRow (.fltFloatBy rn rx ry) s rn (fun _ => False) one zero (fun t y =>
      (n y = 0 → FltIs s t y rn (fltZero false)) ∧
      (∀ v : Reg40, n y ≠ 0 → fmt40.value v.toNat = some ((n y : ℚ) * (2 : ℚ) ^ (k y)) → FltIs s t y rn v) ∧
      FltEnds s t y rn 31 (decide (n y < 0)) ((n y : ℚ) * (2 : ℚ) ^ (k y)))

/-- R803 to R807: FIX rounds to nearest, or down with TRUNCATE; TRUNC rounds toward zero; the BY forms scale first;
an infinity or a value outside 32 bits saturates or gives all ones. -/
def Obligations.FloatToFixed : Prop :=
  ∀ (s : State) (rn rx ry : RegNo),
    let nan := fun y => s.nanF y rx
    let val := fun y => fmt40.value (s.fin y rx)
    let k := fun y => (s.fx y ry).toInt
    let op := fun y => s.fl y rx
    FixRow (.fltFix rn rx) s rn nan op val (fun _ => 0) overFlt s.FixDirection ∧
    FixRow (.fltFixBy rn rx ry) s rn nan op val k overFlt s.FixDirection ∧
    FixRow (.fltTrunc rn rx) s rn nan op val (fun _ => 0) overFlt TowardZero ∧
    FixRow (.fltTruncBy rn rx ry) s rn nan op val k overFlt TowardZero

/-- R801, R802, R810 and R811: MANT and LOGB take a number apart; the seeds RECIPS and RSQRTS have the sign and the exponent
the rules give, and with RND32 = 0 their accuracy of 8 and 4 bits (U57); with RND32 = 1 their eight LSBs are clear (R782). AN of RECIPS of a NAN is the model's reading (log 41). -/
def Obligations.FloatParts : Prop :=
  ∀ (s : State) (rn rx : RegNo),
    let nan := fun y => s.nanF y rx
    let v := fun y => s.fin y rx
    let neg := fun y => fmt40.sign (v y)
    let e := fun y => fmt40.exp (v y)
    let normal := fun y => 1 ≤ e y ∧ e y ≤ 254
    FltRow (.fltMant rn rx) s rn nan (fun _ => false) neg (fun t y =>
      (normal y → t.dreg y rn = 1#1 ++ (BitVec.ofNat 31 (v y)) ++ 0#8 ∧
        AluFlagsAre t y false false false false (neg y) false true ∧ t.stky y = s.stky y) ∧
      (e y = 0 → t.dreg y rn = 0#40 ∧ AluFlagsAre t y true false false false (neg y) false true ∧ t.stky y = s.stky y) ∧
      (e y = 255 → t.dreg y rn = s.all1 ∧ AluFlagsAre t y false true false false (neg y) false true ∧
        t.stky y = s.stky y ||| 0x2#32)) ∧
    FltRow (.fltLogb rn rx) s rn nan (fun _ => true) (fun _ => false) (fun t y =>
      (normal y → (t.fx y rn).toInt = (e y : Int) - 127 ∧ t.dreg y rn = reg40 (t.fx y rn) ∧
        AluFlagsAre t y (decide (e y = 127)) false (decide (e y < 127)) false false false true ∧ t.stky y = s.stky y) ∧
      (e y = 0 → t.dreg y rn = (if s.mode .alusat then 0x8000000000#40 else 0xFF80000000#40) ∧
        AluFlagsAre t y false true true false false false true ∧ t.stky y = s.stky y ||| 0x2#32) ∧
      (e y = 255 → t.dreg y rn = (if s.mode .alusat then 0x7FFFFFFF00#40 else 0x7F80000000#40) ∧
        AluFlagsAre t y false true false false false false true ∧ t.stky y = s.stky y ||| 0x2#32)) ∧
    FltRow (.fltRecips rn rx) s rn nan neg (fun _ => false) (fun t y =>
      (1 ≤ e y ∧ e y ≤ 252 → fmt40.sign (t.dreg y rn).toNat = neg y ∧ fmt40.exp (t.dreg y rn).toNat = 253 - e y ∧
        AluFlagsAre t y false false (neg y) false false false true ∧ t.stky y = s.stky y ∧ s.inBoundary (t.dreg y rn) ∧
        ∀ p z, fmt40.value (v y) = some p → fmt40.value (t.dreg y rn).toNat = some z → s.mode .rnd32 = false →
          |z * p - 1| ≤ 1 / 2 ^ 8) ∧
      (253 ≤ e y → t.dreg y rn = fltZero (neg y) ∧ AluFlagsAre t y true false (neg y) false false false true ∧
        t.stky y = s.stky y ||| 0x1#32) ∧
      (e y = 0 → t.dreg y rn = fltInf (neg y) ∧ AluFlagsAre t y false true (neg y) false false false true ∧
        t.stky y = s.stky y ||| 0x2#32)) ∧
    FltRow (.fltRsqrts rn rx) s rn (fun y => s.nanF y rx ∨ (neg y = true ∧ e y ≠ 0)) (fun _ => false) (fun _ => false) (fun t y =>
      (normal y → fmt40.sign (t.dreg y rn).toNat = false ∧
        (fmt40.exp (t.dreg y rn).toNat : Int) = 126 - ((e y : Int) - 127) / 2 ∧
        AluFlagsAre t y false false false false false false true ∧ t.stky y = s.stky y ∧ s.inBoundary (t.dreg y rn) ∧
        ∀ p z, fmt40.value (v y) = some p → fmt40.value (t.dreg y rn).toNat = some z → s.mode .rnd32 = false →
          (15 / 16) ^ 2 ≤ z ^ 2 * p ∧ z ^ 2 * p ≤ (17 / 16) ^ 2) ∧
      (e y = 0 → t.dreg y rn = fltInf (neg y) ∧ AluFlagsAre t y false true (neg y) false false false true ∧
        t.stky y = s.stky y ||| 0x2#32) ∧
      (e y = 255 → t.dreg y rn = 0#40 ∧ AluFlagsAre t y true false false false false false true ∧ t.stky y = s.stky y))

/-- R844, R845, R848, R849 and R851 to R853: 64-bit sums and differences, negate, ABS and PASS. -/
def Obligations.DoubleArithmetic : Prop :=
  ∀ (s : State) (m x z : Pair),
    let nan := fun y => s.nanD y x
    let v := fun y => s.flushedPair y x
    let neg := fun y => fmt64.sign (s.dbits y x)
    DblSumRow (.dblAdd m x z) s m x z false ∧
    DblSumRow (.dblSub m x z) s m x z true ∧
    DblRow (.dblNeg m x) s m nan (fun _ => true) (fun _ => false) (fun t y => DblIs s t y m (v y ^^^ 0x8000000000000000#64)) ∧
    DblRow (.dblPass m x) s m nan (fun _ => true) (fun _ => false) (fun t y => DblIs s t y m (v y)) ∧
    DblRow (.dblAbs m x) s m nan (fun _ => false) neg (fun t y =>
      t.pair y m = v y &&& 0x7FFFFFFFFFFFFFFF#64 ∧
      AluFlagsAre t y (decide (fmt64.exp (v y).toNat = 0)) false false false (neg y) false true ∧ t.stky y = s.stky y)

/-- R854 to R863: conversions between 64-bit numbers, 32/40-bit numbers and integers, and SCALB, with
their overflows and underflows. -/
def Obligations.DoubleConversions : Prop :=
  ∀ (s : State) (m x : Pair) (rn rx ry : RegNo),
    let nan := fun y => s.nanD y x
    let one := fun _ : Bool => true
    let zero := fun _ : Bool => false
    let val := fun y => fmt64.value (s.dbits y x)
    let n := fun y => (s.fx y rx).toInt
    let k := fun y => (s.fx y ry).toInt
    let op := fun y => s.dl y x
    FixRow (.dblFix rn x) s rn nan op val (fun _ => 0) overDbl s.FixDirection ∧
    FixRow (.dblFixBy rn x ry) s rn nan op val k overDbl s.FixDirection ∧
    FixRow (.dblTrunc rn x) s rn nan op val (fun _ => 0) overDbl TowardZero ∧
    FixRow (.dblTruncBy rn x ry) s rn nan op val k overDbl TowardZero ∧
    DblRow (.dblFloat m rx) s m (fun _ => False) one zero (fun t y =>
      fmt64.value (t.pair y m).toNat = some (n y : ℚ) ∧ (n y = 0 → t.pair y m = 0#64) ∧
      AluFlagsAre t y (decide (n y = 0)) false (decide (n y < 0)) false false false true ∧ t.stky y = s.stky y) ∧
    DblRow (.dblFloatBy m rx ry) s m (fun _ => False) one zero (fun t y =>
      (n y = 0 → DblIs s t y m 0#64) ∧
      (∀ v : Long, n y ≠ 0 → fmt64.value v.toNat = some ((n y : ℚ) * (2 : ℚ) ^ (k y)) → DblIs s t y m v) ∧
      DblEnds s t y m (decide (n y < 0)) ((n y : ℚ) * (2 : ℚ) ^ (k y))) ∧
    DblRow (.dblFromFlt m rx) s m (fun y => s.nanF y rx) one zero (fun t y =>
      (∀ g, s.fl y rx = .inf g → DblIs s t y m (dblInf g)) ∧ (∀ g, s.fl y rx = .zero g → DblIs s t y m (dblZero g)) ∧
      (fmt40.value (s.fin y rx) ≠ none → fmt64.value (t.pair y m).toNat = fmt40.value (s.fin y rx))) ∧
    FltRow (.fltFromDbl rn x) s rn nan one zero (fun t y =>
      (∀ g, s.dl y x = .inf g → FltIs s t y rn (fltInf g)) ∧ (∀ g, s.dl y x = .zero g → FltIs s t y rn (fltZero g)) ∧
      (∀ (p : ℚ) (v : Reg40), val y = some p → p ≠ 0 → fmt40.value v.toNat = some p → s.inBoundary v → FltIs s t y rn v) ∧
      ∀ p, val y = some p → FltEnds s t y rn s.bound (decide (p < 0)) p) ∧
    DblRow (.dblScalb m x ry) s m nan one zero (fun t y =>
      (∀ g, s.dl y x = .inf g → DblIs s t y m (dblInf g)) ∧ (∀ g, s.dl y x = .zero g → DblIs s t y m (dblZero g)) ∧
      (∀ (p : ℚ) (v : Long), val y = some p → p ≠ 0 → fmt64.value v.toNat = some (p * (2 : ℚ) ^ (k y)) → DblIs s t y m v) ∧
      ∀ p, val y = some p → DblEnds s t y m (decide (p < 0)) (p * (2 : ℚ) ^ (k y)))

/-- R886 to R898 and the short multiply (R514): the eleven multiply and multiply-accumulate forms, with every modifier the
tables list. -/
def Obligations.FixedMultiply : Prop :=
  ∀ (s : State) (m : MulMod) (rn rx ry : RegNo), m.wellFormed = true →
    let sgn := m.xSigned || m.ySigned
    let A := fun bg y => (s.mrReg y bg).toInt
    let T := fun (base : Bool → Int) (sign : Int) (y : Bool) (a : Acc80) => MacResult m (base y) sign (s.fx y rx) (s.fx y ry) a
    MulToReg (.mulRn m rn rx ry) s rn m.frac sgn false (T (fun _ => 0) 1) ∧
    MulToMr (.mulMrf m rx ry) s false m.frac sgn false (T (fun _ => 0) 1) ∧
    MulToMr (.mulMrb m rx ry) s true m.frac sgn false (T (fun _ => 0) 1) ∧
    MulToReg (.macAddRnMrf m rn rx ry) s rn m.frac sgn false (T (A false) 1) ∧
    MulToReg (.macAddRnMrb m rn rx ry) s rn m.frac sgn false (T (A true) 1) ∧
    MulToMr (.macAddMrf m rx ry) s false m.frac sgn false (T (A false) 1) ∧
    MulToMr (.macAddMrb m rx ry) s true m.frac sgn false (T (A true) 1) ∧
    MulToReg (.macSubRnMrf m rn rx ry) s rn m.frac sgn false (T (A false) (-1)) ∧
    MulToReg (.macSubRnMrb m rn rx ry) s rn m.frac sgn false (T (A true) (-1)) ∧
    MulToMr (.macSubMrf m rx ry) s false m.frac sgn false (T (A false) (-1)) ∧
    MulToMr (.macSubMrb m rx ry) s true m.frac sgn false (T (A true) (-1)) ∧
    MulToReg (.shortMul rn rx) s rn false true false
      (fun y a => a = BitVec.ofInt 80 ((s.fx y rn).toInt * (s.fx y rx).toInt))

/-- R908 and the short form (R514): the floating-point product of 32- and 40-bit operands. -/
def Obligations.FloatMultiply : Prop :=
  ∀ (s : State) (rn rx ry : RegNo),
    let row := fun (i : Instr) (a b : RegNo) =>
      ProductRow i s [rn] fmt40 (fun t y => (t.dreg y rn).toNat) (fun y => s.fl y a) (fun y => s.fl y b)
        (fun y => fmt40.value (s.fin y a)) (fun y => fmt40.value (s.fin y b))
        (fun g => fmt40.encode g 255 (if s.mode .rnd32 then 2 ^ 31 - 2 ^ 8 else 2 ^ 31 - 1)) s.bound
        (fun v => s.mode .rnd32 = true → v % 256 = 0) (SameMr s)
    row (.fltMul rn rx ry) rx ry ∧ row (.shortFltMul rn rx) rn rx

/-- R909 to R912: the 64-bit products of 64-bit and of single-precision operands. What the multiplier result registers of an
executing element hold afterwards is left open (R913). -/
def Obligations.DoubleMultiply : Prop :=
  ∀ (s : State) (m x z : Pair) (rx ry : RegNo),
    let row := fun (i : Instr) (a b : Bool → Fl) (va vb : Bool → Option ℚ) =>
      ProductRow i s [oddOf m, evenOf m] fmt64 (fun t y => (t.pair y m).toNat) a b va vb
        (fun g => fmt64.encode g 2047 (2 ^ 52 - 1)) 52 (fun _ => True)
        (fun t => (∀ y bg, s.runs y = false → t.mrReg y bg = s.mrReg y bg) ∧ ∀ y, s.runs y = true → t.pairClean y m)
    row (.dblMul m x z) (fun y => s.dl y x) (fun y => s.dl y z) (fun y => fmt64.value (s.dbits y x))
      (fun y => fmt64.value (s.dbits y z)) ∧
    row (.dblMulFlt m x ry) (fun y => s.dl y x) (fun y => s.fl y ry) (fun y => fmt64.value (s.dbits y x))
      (fun y => fmt40.value (s.fin y ry)) ∧
    row (.dblMulFlt2 m rx ry) (fun y => s.fl y rx) (fun y => s.fl y ry) (fun y => fmt40.value (s.fin y rx))
      (fun y => fmt40.value (s.fin y ry))

/-- R784: a sum, difference or product that is finite, not zero and did not overflow is the exact result rounded: toward zero
with TRUNCATE, else to the nearest pattern of the boundary in force, ties to the even one. -/
def Obligations.FloatRounding : Prop :=
  ∀ (s : State) (rn rx ry : RegNo) (y : Bool) (p q : ℚ), s.runs y = true →
    fmt40.value (s.fin y rx) = some p → fmt40.value (s.fin y ry) = some q →
    let rounds := fun (v : Reg40) (z r : ℚ) =>
      let ulp := (2 : ℚ) ^ ((fmt40.exp v.toNat : ℤ) - 127 - (s.bound : ℤ))
      if s.mode .truncate then |z| ≤ |r| ∧ |r| < |z| + ulp ∧ 0 < z * r
      else 2 * |z - r| ≤ ulp ∧ (2 * |z - r| = ulp → v.getLsbD (31 - s.bound) = false)
    (∀ t z, exec (.fltAdd rn rx ry) s = .next t → t.flagOf y 1 = false → fmt40.value (t.dreg y rn).toNat = some z → z ≠ 0 →
      rounds (t.dreg y rn) z (p + q)) ∧
    (∀ t z, exec (.fltSub rn rx ry) s = .next t → t.flagOf y 1 = false → fmt40.value (t.dreg y rn).toNat = some z → z ≠ 0 →
      rounds (t.dreg y rn) z (p - q)) ∧
    (∀ t z, exec (.fltMul rn rx ry) s = .next t → t.flagOf y 7 = false → fmt40.value (t.dreg y rn).toNat = some z → z ≠ 0 →
      rounds (t.dreg y rn) z (p * q))

/-- R899 to R903, R906 and R907: RND rounds a multiplier result register at bit 32, SAT saturates it to the format of its modifier; a
register is cleared, its three parts are read and written, MR2 read sign-extended and MR1 written with its sign into MR2. -/
def Obligations.MultiplierRegisters : Prop :=
  (∀ (s : State) (frac sgn : Bool) (rn : RegNo),
     MulToReg (.rndRnMrf sgn rn) s rn true sgn false (fun y => RoundsAt32 (s.mrReg y false)) ∧
     MulToReg (.rndRnMrb sgn rn) s rn true sgn false (fun y => RoundsAt32 (s.mrReg y true)) ∧
     MulToMr (.rndMrf sgn) s false true sgn false (fun y => RoundsAt32 (s.mrReg y false)) ∧
     MulToMr (.rndMrb sgn) s true true sgn false (fun y => RoundsAt32 (s.mrReg y true)) ∧
     MulToReg (.satRnMrf frac sgn rn) s rn frac sgn true (fun y => SaturatesTo frac sgn (s.mrReg y false)) ∧
     MulToReg (.satRnMrb frac sgn rn) s rn frac sgn true (fun y => SaturatesTo frac sgn (s.mrReg y true)) ∧
     MulToMr (.satMrf frac sgn) s false frac sgn true (fun y => SaturatesTo frac sgn (s.mrReg y false)) ∧
     MulToMr (.satMrb frac sgn) s true frac sgn true (fun y => SaturatesTo frac sgn (s.mrReg y true))) ∧
  (∀ (s : State) (rn : RegNo),
     let mr := fun bg y => s.mrReg y bg
     let v := fun y => s.fx y rn
     let mr0 := fun bg y => (mr bg y).truncate 32
     let mr1 := fun bg y => (mr bg y).extractLsb' 32 32
     let mr2 := fun bg y => BitVec.ofInt 32 ((mr bg y).toInt / 2 ^ 64)
     let put0 := fun bg y => (mr bg y).extractLsb' 32 48 ++ v y
     let put1 := fun bg y => BitVec.ofInt 80 ((v y).toInt * 2 ^ 32 + ((mr bg y).toNat % 2 ^ 32 : Nat))
     let put2 := fun bg y => (v y).extractLsb' 0 16 ++ (mr bg y).extractLsb' 0 64
     WritesMr .clrMrf s false (fun _ => 0#80) ∧ WritesMr .clrMrb s true (fun _ => 0#80) ∧
     ReadsMr (.readMr0f rn) s rn (mr0 false) ∧ ReadsMr (.readMr1f rn) s rn (mr1 false) ∧ ReadsMr (.readMr2f rn) s rn (mr2 false) ∧
     ReadsMr (.readMr0b rn) s rn (mr0 true) ∧ ReadsMr (.readMr1b rn) s rn (mr1 true) ∧ ReadsMr (.readMr2b rn) s rn (mr2 true) ∧
     WritesMr (.writeMr0f rn) s false (put0 false) ∧ WritesMr (.writeMr1f rn) s false (put1 false) ∧
     WritesMr (.writeMr2f rn) s false (put2 false) ∧ WritesMr (.writeMr0b rn) s true (put0 true) ∧
     WritesMr (.writeMr1b rn) s true (put1 true) ∧ WritesMr (.writeMr2b rn) s true (put2 true))

/-- R945 to R950 and R963 to R966: shifts, OR-shifts and rotates by a register or an 8-bit signed immediate; SV marks a left shift,
and is 0 after a rotate. EXP, EXP (EX), LEFTZ and LEFTO; EXP (EX) reads AV of the element: an overflowed operand has exponent 1 and
the opposite sign in SS. -/
def Obligations.ShiftsAndExponents : Prop :=
  (∀ (s : State) (rn rx ry : RegNo) (data : Byte),
     let x := fun y => s.fx y rx
     let z := fun y => s.fx y rn
     let n := fun y => (s.fx y ry).toInt
     let d := fun _ : Bool => data.toInt
     let no := fun _ : Bool => false
     let left := fun (n : Bool → Int) (y : Bool) => decide (0 < n y)
     ShiftRow (.lshift rn rx ry) s rn (left n) no (fun y => IsShifted (x y) 0#32 false (n y)) ∧
     ShiftRow (.lshiftImm rn rx data) s rn (left d) no (fun y => IsShifted (x y) 0#32 false (d y)) ∧
     ShiftRow (.orLshift rn rx ry) s rn (left n) no (fun y => IsShifted (x y) (z y) false (n y)) ∧
     ShiftRow (.orLshiftImm rn rx data) s rn (left d) no (fun y => IsShifted (x y) (z y) false (d y)) ∧
     ShiftRow (.ashift rn rx ry) s rn (left n) no (fun y => IsShifted (x y) 0#32 (x y).msb (n y)) ∧
     ShiftRow (.ashiftImm rn rx data) s rn (left d) no (fun y => IsShifted (x y) 0#32 (x y).msb (d y)) ∧
     ShiftRow (.orAshift rn rx ry) s rn (left n) no (fun y => IsShifted (x y) (z y) (x y).msb (n y)) ∧
     ShiftRow (.orAshiftImm rn rx data) s rn (left d) no (fun y => IsShifted (x y) (z y) (x y).msb (d y)) ∧
     ShiftRow (.rot rn rx ry) s rn no no (fun y => IsRotated (x y) (n y)) ∧
     ShiftRow (.rotImm rn rx data) s rn no no (fun y => IsRotated (x y) (d y))) ∧
  ∀ (s : State) (rn rx : RegNo),
    let x := fun y => s.fx y rx
    let av := fun y => s.flagOf y 1
    let no := fun _ : Bool => false
    let all := fun (b : Bool) (y : Bool) => decide (x y = if b then 0xFFFFFFFF#32 else 0#32)
    ShiftRow (.exp rn rx) s rn no (fun y => (x y).msb) (fun y => IsExponent (x y)) ∧
    ShiftRow (.expEx rn rx) s rn no (fun y => av y ^^ (x y).msb)
      (fun y v => if av y then v = 1#32 else IsExponent (x y) v) ∧
    ShiftRow (.leftz rn rx) s rn (all false) no (fun y => CountsLeading false (x y)) ∧
    ShiftRow (.lefto rn rx) s rn (all true) no (fun y => CountsLeading true (x y))

/-- R942, R951 to R955 and R956 to R962: BSET, BCLR, BTGL and BTST by a register or an immediate; SV marks a position outside 0 to 31,
and BTST sets SZ unless the bit is there and is 1. Field deposit and extraction by a register (bit6 in its bits 5:0, len6 in its bits
11:6) or by immediates; SV marks a field that reaches past bit 31. -/
def Obligations.BitsAndFields : Prop :=
  (∀ (s : State) (rn rx ry : RegNo) (data : Byte),
     let x := fun y => s.fx y rx
     let p := fun y => (s.fx y ry).toInt
     let d := fun _ : Bool => data.toInt
     let no := fun _ : Bool => false
     let tests := fun (i : Instr) (p : Bool → Int) =>
       Completes i s fun t =>
         ComputeFrame s t [] shFlagMask 0#32 ∧ SameMr s t ∧ SameFifo s t ∧
         ∀ y, s.runs y = true → ShFlagsAre t y (outside (p y)) (outside (p y) || !(x y).getLsbD (p y).toNat) false
     ShiftRow (.bset rn rx ry) s rn (fun y => outside (p y)) no (fun y => HasBit (x y) (fun _ => true) (p y)) ∧
     ShiftRow (.bsetImm rn rx data) s rn (fun y => outside (d y)) no (fun y => HasBit (x y) (fun _ => true) (d y)) ∧
     ShiftRow (.bclr rn rx ry) s rn (fun y => outside (p y)) no (fun y => HasBit (x y) (fun _ => false) (p y)) ∧
     ShiftRow (.bclrImm rn rx data) s rn (fun y => outside (d y)) no (fun y => HasBit (x y) (fun _ => false) (d y)) ∧
     ShiftRow (.btgl rn rx ry) s rn (fun y => outside (p y)) no (fun y => HasBit (x y) not (p y)) ∧
     ShiftRow (.btglImm rn rx data) s rn (fun y => outside (d y)) no (fun y => HasBit (x y) not (d y)) ∧
     tests (.btst rx ry) p ∧ tests (.btstImm rx data) d) ∧
  ∀ (s : State) (rn rx ry : RegNo) (bit6 len6 : BitVec 6),
    let x := fun y => s.fx y rx
    let z := fun y => s.fx y rn
    let zero := fun _ : Bool => 0#32
    let b := fun y => (s.fx y ry).toNat % 64
    let l := fun y => (s.fx y ry).toNat / 64 % 64
    let no := fun _ : Bool => false
    let dep := fun (i : Instr) (b l : Bool → Nat) (z : Bool → Word) (se : Bool) =>
      ShiftRow i s rn (fun y => decide (32 < b y + l y)) no fun y => IsDeposit (x y) (z y) (b y) (l y) se
    let ext := fun (i : Instr) (b l : Bool → Nat) (se : Bool) =>
      ShiftRow i s rn (fun y => decide (32 < b y + l y)) no fun y => IsExtract (x y) (b y) (l y) se
    let bi := fun _ : Bool => bit6.toNat
    let li := fun _ : Bool => len6.toNat
    dep (.fdep rn rx ry) b l zero false ∧ dep (.fdepImm rn rx bit6 len6) bi li zero false ∧
    dep (.orFdep rn rx ry) b l z false ∧ dep (.orFdepImm rn rx bit6 len6) bi li z false ∧
    dep (.fdepSE rn rx ry) b l zero true ∧ dep (.fdepSEImm rn rx bit6 len6) bi li zero true ∧
    dep (.orFdepSE rn rx ry) b l z true ∧ dep (.orFdepSEImm rn rx bit6 len6) bi li z true ∧
    ext (.fext rn rx ry) b l false ∧ ext (.fextImm rn rx bit6 len6) bi li false ∧
    ext (.fextSE rn rx ry) b l true ∧ ext (.fextSEImm rn rx bit6 len6) bi li true

/-- R967 to R969: FUNPACK gives the number a packed pattern stands for, FPACK rounds a number to the packed format, to nearest or down to zero, and
packing what was unpacked gives the pattern back. That FPACK truncates with MODE1.TRUNCATE is D49, where R968 words it otherwise
(log 64); that it sets SV exactly for an exponent above 135 R968 itself marks as not from the source. -/
def Obligations.Packing : Prop :=
  ∀ (s : State) (rn rx : RegNo),
    let x := fun y => s.fx y rx
    let h := fun y => (x y).toNat % 2 ^ 16
    let e := fun y => (x y).toNat / 2 ^ 23 % 256
    let f := fun y => (x y).toNat % 2 ^ 23
    ∃ u, exec (.funpack rn rx) s = .next u ∧ ComputeFrame s u [rn] shFlagMask 0#32 ∧ SameMr s u ∧ SameFifo s u ∧
    (∀ y, s.runs y = true → ShFlagsAre u y false false false ∧
      fmt40.value (u.dreg y rn).toNat = some (packedValue (h y)) ∧ (u.fx y rn).msb = (x y).getLsbD 15) ∧
    (Completes (.fpack rn rn) u fun t => ∀ y, s.runs y = true → (t.fx y rn).toNat = h y) ∧
    Completes (.fpack rn rx) s fun t =>
      ComputeFrame s t [rn] shFlagMask 0#32 ∧ SameMr s t ∧ SameFifo s t ∧
      ∀ y, s.runs y = true →
        let out := (t.fx y rn).toNat
        t.dreg y rn = reg40 (t.fx y rn) ∧ out < 2 ^ 16 ∧ ShFlagsAre t y (decide (135 < e y)) false false ∧
        ((t.fx y rn).getLsbD 15 = (x y).msb) ∧
        (135 < e y → out % 2 ^ 15 = 0x7FFF) ∧
        (120 < e y → e y ≤ 135 →
          ∃ n : Int, s.FixDirection n (((f y : Nat) : ℚ) / 2 ^ 12) ∧ ((out % 2 ^ 15 : Nat) : Int) = min 0x7FFF ((((e y : Nat) : Int) - 120) * 2 ^ 11 + n)) ∧
        (109 < e y → e y ≤ 120 →
          s.FixDirection ((out % 2 ^ 15 : Nat) : Int) ((2 ^ 23 + ((f y : Nat) : ℚ)) / 2 ^ (133 - e y))) ∧
        (e y ≤ 109 → out % 2 ^ 15 = 0)

/-- R970 to R974: deposits to and extractions from the bit FIFO, writes and reads of its pointer; in SIMD mode each is
refused, as R970 leaves it undefined. Which bits a deposit over stale bits leaves open is the model's reading (log 24). -/
def Obligations.BitFifo : Prop :=
  ∀ (s : State) (rn rx ry : RegNo) (len : BitVec 12) (data : BitVec 7),
    Deposits (.bitdep rx ry) s (s.fx false rx) ((s.fx false ry).toNat % 64) ∧
    Deposits (.bitdepImm rx len) s (s.fx false rx) len.toNat ∧
    Extracts (.bitext rn rx) s rn ((s.fx false rx).toNat % 64) false ∧
    Extracts (.bitextImm rn len) s rn len.toNat false ∧
    Extracts (.bitextNU rn rx) s rn ((s.fx false rx).toNat % 64) true ∧
    Extracts (.bitextNUImm rn len) s rn len.toNat true ∧
    SetsPointer (.setBffwrp rn) s ((s.fx false rn).truncate 7) ∧ SetsPointer (.setBffwrpImm data) s data ∧
    (s.simd = false → Completes (.getBffwrp rn) s fun t =>
      ComputeFrame s t [rn] shFlagMask 0#32 ∧ SameMr s t ∧ SameFifo s t ∧
      t.dreg false rn = reg40 (s.data.bffwrp.setWidth 32) ∧ ShFlagsAre t false false false false) ∧
    (s.simd = true → ∀ i ∈ [Instr.bitdep rx ry, .bitdepImm rx len, .bitext rn rx, .bitextImm rn len, .bitextNU rn rx,
      .bitextNUImm rn len, .setBffwrp rn, .setBffwrpImm data, .getBffwrp rn], exec i s = .refused .bitFifoSimd)

/-- R1000 to R1005, R1007, R1008 and R1010: the fixed-point multifunction forms, with the multiplier inputs in R3-0 and R7-4 and the
ALU inputs in R11-8 and R15-12 (R1001). Dual add/subtract, fixed-point and floating-point, writes the sum that the single addition
gives and the difference that the single subtraction gives, the sum alone when both name one register; each flag and each sticky bit
is the OR of the two operations' own. -/
def Obligations.FixedMultifunction : Prop :=
  (∀ (s : State) (rm ra rs : RegNo) (q : MfIn),
     let x : RegNo := 0#2 ++ q.xm
     let w : RegNo := 1#2 ++ q.ym
     let a : RegNo := 2#2 ++ q.xa
     let b : RegNo := 3#2 ++ q.ya
     let add := Instr.fixAdd ra a b
     let sub := Instr.fixSub ra a b
     let avg := Instr.fixAvg ra a b
     let ssfr : MulMod := { ySigned := true, xSigned := true, frac := true, round := true }
     let ssf : MulMod := { ySigned := true, xSigned := true, frac := true, round := false }
     let mul := Instr.mulRn ssfr rm x w
     let addRm := Instr.macAddRnMrf ssfr rm x w
     let subRm := Instr.macSubRnMrf ssfr rm x w
     let addMr := Instr.macAddMrf ssf x w
     let subMr := Instr.macSubMrf ssf x w
     Parallel (.mfMulAdd rm ra q) add mul s [ra] [rm] [] ∧
     Parallel (.mfMulSub rm ra q) sub mul s [ra] [rm] [] ∧
     Parallel (.mfMulAvg rm ra q) avg mul s [ra] [rm] [] ∧
     Parallel (.mfMacAddRmAdd rm ra q) add addRm s [ra] [rm] [] ∧
     Parallel (.mfMacAddRmSub rm ra q) sub addRm s [ra] [rm] [] ∧
     Parallel (.mfMacAddRmAvg rm ra q) avg addRm s [ra] [rm] [] ∧
     Parallel (.mfMacSubRmAdd rm ra q) add subRm s [ra] [rm] [] ∧
     Parallel (.mfMacSubRmSub rm ra q) sub subRm s [ra] [rm] [] ∧
     Parallel (.mfMacSubRmAvg rm ra q) avg subRm s [ra] [rm] [] ∧
     Parallel (.mfMacAddMrfAdd ra q) add addMr s [ra] [] [] ∧
     Parallel (.mfMacAddMrfSub ra q) sub addMr s [ra] [] [] ∧
     Parallel (.mfMacAddMrfAvg ra q) avg addMr s [ra] [] [] ∧
     Parallel (.mfMacSubMrfAdd ra q) add subMr s [ra] [] [] ∧
     Parallel (.mfMacSubMrfSub ra q) sub subMr s [ra] [] [] ∧
     Parallel (.mfMacSubMrfAvg ra q) avg subMr s [ra] [] [] ∧
     Parallel (.mfFixAddSub rm ra rs q) (.fixAddSub ra rs a b) mul s [ra] [rm] [rs]) ∧
  ∀ (s : State) (ra rs rx ry : RegNo),
    let dual := fun (i a d : Instr) (sticky : Word) =>
      ∃ u v, exec a s = .next u ∧ exec d s = .next v ∧
      Completes i s fun t =>
        ComputeFrame s t [ra, rs] aluFlagMask sticky ∧ SameMr s t ∧ SameFifo s t ∧
        ∀ y, s.runs y = true →
          t.dreg y ra = u.dreg y ra ∧ (rs ≠ ra → t.dreg y rs = v.dreg y rs) ∧
          t.astat y &&& aluFlagMask = (u.astat y ||| v.astat y) &&& aluFlagMask ∧ t.stky y = u.stky y ||| v.stky y
    dual (.fixAddSub ra rs rx ry) (.fixAdd ra rx ry) (.fixSub rs rx ry) 0x4#32 ∧
    dual (.fltAddSub ra rs rx ry) (.fltAdd ra rx ry) (.fltSub rs rx ry) aluStickyMask

/-- R1000 to R1003, R1005 and R1009 to R1012: the floating-point multifunction forms of 32 and 40 bits, and those of 64 bits
on register pairs. -/
def Obligations.FloatMultifunction : Prop :=
  ∀ (s : State) (rm ra rs : RegNo) (m p : Pair) (q : MfIn) (d : MfDblIn),
    let x : RegNo := 0#2 ++ q.xm
    let w : RegNo := 1#2 ++ q.ym
    let a : RegNo := 2#2 ++ q.xa
    let b : RegNo := 3#2 ++ q.ya
    let mul := Instr.fltMul rm x w
    let px : Pair := 0#2 ++ d.x
    let pz : Pair := 1#2 ++ d.z
    let pp : Pair := 2#2 ++ d.p
    let pr : Pair := 3#2 ++ d.r
    Parallel (.mfFltAdd rm ra q) (.fltAdd ra a b) mul s [ra] [rm] [] ∧
    Parallel (.mfFltSub rm ra q) (.fltSub ra a b) mul s [ra] [rm] [] ∧
    Parallel (.mfFltFloatBy rm ra q) (.fltFloatBy ra a b) mul s [ra] [rm] [] ∧
    Parallel (.mfFltFixBy rm ra q) (.fltFixBy ra a b) mul s [ra] [rm] [] ∧
    Parallel (.mfFltAvg rm ra q) (.fltAvg ra a b) mul s [ra] [rm] [] ∧
    Parallel (.mfFltAbs rm ra q) (.fltAbs ra a) mul s [ra] [rm] [] ∧
    Parallel (.mfFltMax rm ra q) (.fltMax ra a b) mul s [ra] [rm] [] ∧
    Parallel (.mfFltMin rm ra q) (.fltMin ra a b) mul s [ra] [rm] [] ∧
    Parallel (.mfFltAddSub rm ra rs q) (.fltAddSub ra rs a b) mul s [ra] [rm] [rs] ∧
    Parallel (.mfDblAdd m p d) (.dblAdd p pp pr) (.dblMul m px pz) s [oddOf p, evenOf p] [oddOf m, evenOf m] [] ∧
    Parallel (.mfDblSub m p d) (.dblSub p pp pr) (.dblMul m px pz) s [oddOf p, evenOf p] [oddOf m, evenOf m] []

/-- R75 and R78: the 32 conditions by the flags of an element, the FLAGS register and the loop counter; the complement of a condition has the code with bit 4
inverted; selective execution makes FLAG2_IN pick an element. -/
def Obligations.Conditions : Prop :=
  ∀ (s : State) (y : Bool),
    let a := s.condAstat y
    let sat := s.mode .alusat
    let flags := s.readU (.sys .flags)
    let fixLess := a.getLsbD 2 ^^ (a.getLsbD 1 && !sat)
    (s.cond y .eq = a.getLsbD 0 ∧ s.cond y .ac = a.getLsbD 3 ∧ s.cond y .av = a.getLsbD 1 ∧ s.cond y .mv = a.getLsbD 7 ∧
      s.cond y .ms = a.getLsbD 6 ∧ s.cond y .sv = a.getLsbD 11 ∧ s.cond y .sz = a.getLsbD 12 ∧ s.cond y .tf = a.getLsbD 18 ∧
      s.cond y .sf = a.getLsbD 14 ∧ s.cond y .true_ = true) ∧
    (s.cond y .flag0 = flags.getLsbD 0 ∧ s.cond y .flag1 = flags.getLsbD 2 ∧ s.cond y .flag2 = flags.getLsbD 4 ∧
      s.cond y .flag3 = flags.getLsbD 6) ∧
    s.cond y .notLce = (s.readU .curlcntr != 1#32) ∧
    s.cond y .lt = (if a.getLsbD 10 then a.getLsbD 2 && !a.getLsbD 0 else fixLess) ∧
    s.cond y .le = ((if a.getLsbD 10 then a.getLsbD 2 else fixLess) || a.getLsbD 0) ∧
    (∀ c : Cond, c ≠ .notLce → c ≠ .true_ → s.cond y (condOf (c.code ^^^ 0x10#5)) = !s.cond y c) ∧
    (s.mode .selpe = true → s.condOp y .flag2 = !y ∧ s.condOp y .notFlag2 = y) ∧
    (∀ c : Cond, s.mode .selpe = false ∨ (c ≠ .flag2 ∧ c ≠ .notFlag2) → s.condOp y c = s.cond y c)

/-- R502, R503, R512 to R514 and R530: a compute field alone does what its operation's own row does; each short compute stands for a
full one; the empty field does nothing. Every computation completes but a bit-FIFO operation in SIMD mode or with its pointer
above 64. Under a condition, a computation or an immediate shift takes effect on the elements whose condition is true. -/
def Obligations.ComputeForms : Prop :=
  (∀ (s : State) (c : Compute) (rn rx : RegNo),
     (c ≠ .none → exec (.compute c) s = exec (.ofCompute c) s) ∧ exec (.compute .none) s = .next s ∧
     (usesFifo c = false ∨ s.fifoReady → ∃ t, exec (.compute c) s = .next t) ∧
     (∀ op : ShortOp, (∃ t, exec (.shortCompute op rn rx) s = .next t) ∧
       exec (.shortCompute op rn rx) s = exec (shortInstr op.code rn rx) s) ∧
     exec (.shortCompute .add rn rx) s = exec (.fixAdd rn rn rx) s ∧
     exec (.shortCompute .sub rn rx) s = exec (.fixSub rn rn rx) s ∧
     exec (.shortCompute .comp rn rx) s = exec (.fixComp rn rx) s ∧
     exec (.shortCompute .fltAdd rn rx) s = exec (.fltAdd rn rn rx) s ∧
     exec (.shortCompute .fltMul rn rx) s = exec (.fltMul rn rn rx) s) ∧
  (∀ (s : State) (cond : Cond) (c : Compute) (sh : ShiftImm),
     Gated (.ifCompute cond c) (.compute c) s cond ∧ Gated (.ifShiftImm cond sh) (.ofShiftImm sh) s cond ∧
     (usesFifo c = false ∨ s.fifoReady → ∃ t, exec (.ifCompute cond c) s = .next t) ∧
     (usesFifoImm sh = false ∨ s.fifoReady → ∃ t, exec (.ifShiftImm cond sh) s = .next t))

/-- R505, R515 to R518, R520, R521, R622, R624 and R625: every form of load brings the 32-bit word of its normal-word address
to its register. The load does not depend on the computation beside it, which is empty here. -/
def Obligations.WordLoads : Prop :=
  ∀ (s : State) (q : MoveArgs), ∀ f ∈ q.normal s false, LoadsWord s f

/-- R505, R515 to R518, R520, R521, R622, R624 to R627: every form of store puts the value that its register holds before the
instruction, or its constant, into the 32-bit word of its normal-word address. -/
def Obligations.WordStores : Prop :=
  ∀ (s : State) (q : MoveArgs) (d16 : Parcel),
    (∀ f ∈ q.normal s true, f.cx = true → f.reg ≠ .px → StoresWord f.instr s f.addr (s.readU f.reg)) ∧
    StoresWord (.storeImm q.pm q.i q.m q.data) s (s.regAddr q.pm true q.i q.m) q.data ∧
    StoresWord (.storeImm16 q.pm q.i q.m d16) s (s.regAddr q.pm true q.i q.m) (d16.signExtend 32)

/-- R255, R258, R263 to R268, R276, R303, R313, R338, R516, R518, R521 to R523 and R623: in byte space the sized forms move a
byte, a short word or a word, extend what they load, and count their modifiers in items of that size; in short-word space a
form without a size moves 16 bits; in a block in 48-bit mode a data register moves 40 bits of a 48-bit word and a constant is
stored above zeros; PX moves 48 bits; a size that the space does not have latches ILADI and counts for nothing. The layout of
PX in L2 and L3, and in byte space, is the model's choice (log 52), so is that a constant in a 48-bit block is stored above zeros and
that a 40-bit access has no implicit half in SIMD mode (log 25). That MODE1.SSE has no part in the loads of byte space is R264 and
R267 against R178 (log 66). -/
def Obligations.ByteSpaceMoves : Prop :=
  ∀ (s : State) (q : MoveArgs) (z : Size) (d16 : Parcel),
    (∀ f ∈ q.normal s false ++ q.sized s false z, LoadsSized s f ∧ MovesIllegally s false f ∧ Moves40 s false f ∧ Moves48 s false f) ∧
    (∀ f ∈ q.normal s true ++ q.sized s true z, StoresSized s f ∧ MovesIllegally s true f ∧ Moves40 s true f ∧ Moves48 s true f) ∧
    (∀ f ∈ q.long s false, MovesIllegally s false f) ∧ (∀ f ∈ q.long s true, MovesIllegally s true f) ∧
    ∀ x ∈ [(Instr.storeImm q.pm q.i q.m q.data, q.data), (.storeImm16 q.pm q.i q.m d16, d16.signExtend 32)],
      (∀ sp w n imdw p s1, accessWidth .none sp = some (w, n) → (w = .w32 → imdw = false) →
        Reaches s (s.regAddr q.pm true q.i q.m) sp w imdw n p s1 → s.simd = false →
        Completes x.1 s fun t => StoredBytes s t p w.bytes x.2 ∧ ButStores s1 t [(p, w.bytes)]) ∧
      ∀ sp n p s1, (sp, n) ∈ [(Config.Space.nw, 1), (.bw, 4)] →
        Reaches s (s.regAddr q.pm true q.i q.m) sp .w40 true n p s1 →
        Completes x.1 s fun t => StoredBytes s t p 6 (x.2 ++ 0#16) ∧ ButStores s1 t [(p, 6)]

/-- R333 to R337: an exclusive load from L2 or L3 sets the monitor and AZ; an exclusive store takes place, and sets AZ, only
while the monitor holds its granule, and clears the monitor; a failed one clears AZ and changes nothing else. An exclusive
access to a peripheral or to a core memory-mapped register fails: a load brings any value; the register is an unintended access
all the same. The granule of 8 bytes, and that L2 and L3 support exclusive accesses and these regions do not, are the model's
choice (log 15); that addresses from 0x20000000 on are L2 and L3 is log 1. -/
def Obligations.ExclusiveAccesses : Prop :=
  ∀ (s : State) (cond : Cond) (post pm : Bool) (i m : DagNo) (n : RegNo) (addr : Word), s.cx cond = true → s.simd = false →
    s.noBroadcast →
    let shared := fun (pm : Bool) (a : Addr) (p : Nat) (s1 : State) => ∃ ea,
      Lands s a .nw 1 ea s1 ∧ OrdinaryWord s ea p ∧ 0x20000000 ≤ p ∧ s.cacheable pm p = false
    let peripheral := fun (a : Addr) (s1 : State) => ∃ ea l, s.seq.cacheHold = 0 ∧
      Lands s a .bw 4 ea s1 ∧ locate ea.toNat = some l ∧ l.region.target = .device ∧ l.off % 4 = 0 ∧ l.off + 4 ≤ l.region.count
    let core := fun (a : Addr) (s1 : State) => ∃ ea,
      (∀ k md, a ≠ .pre k md) ∧ Lands s a .nw 1 ea s1 ∧ Config.inCmmrRange ea.toNat = true
    let az := fun (t : State) (b : Bool) => { t with sys := { t.sys with astatx := putBit t.sys.astatx 0 b } }
    let loads := fun (x : Instr) (pm : Bool) (a : Addr) => ∀ s1,
      (∀ p, shared pm a p s1 →
        Completes x s fun t => ButHits { az (s1.writeU (.r n) (s.wordAt p)) true with excl := some (p / 8) } t) ∧
      (peripheral a s1 → Completes x s fun t => ∃ v, ButHits (az (s1.writeU (.r n) v) false) t) ∧
      (core a s1 → Completes x s fun t => ∃ v, ButHits (az (s1.unintended.writeU (.r n) v) false) t)
    let stores := fun (x : Instr) (pm : Bool) (a : Addr) => ∀ s1,
      (∀ p, shared pm a p s1 → Completes x s fun t =>
        if s.excl = some (p / 8) then StoredBytes s t p 4 (s.fx false n) ∧ ButStores (az s1 true) t [(p, 4)] ∧ t.excl = none
        else ButHits (az s1 false) t) ∧
      (peripheral a s1 → Completes x s fun t => ButHits (az s1 false) t) ∧
      (core a s1 → Completes x s fun t => ButHits (az s1.unintended false) t)
    loads (.loadUregSized cond post pm i m (.r n) .none true) pm (s.regAddr pm post i m) ∧
    loads (.moveDregDirect false n addr .none true) false (.direct addr) ∧
    stores (.storeUregSized cond post pm i m (.r n) .none true) pm (s.regAddr pm post i m) ∧
    stores (.moveDregDirect true n addr .none true) false (.direct addr)

/-- R263, R265, R298 to R304, R311, R338, R626 and R627: an (lw) access in normal-word or byte space, and every access in
long-word space, moves 64 bits between memory and a pair of registers, PX, or a single register; a constant goes to the low half
under zeros (R626, D32; R301 words it otherwise, log 18); that ASTAT, STKY and PX1 and PX2 move as pairs, as R300 says of USTAT, is the model's
choice (log 36); a misaligned address goes to the one below it and sets U64MA, whatever U64MAE says
(the model's reading, log 17), and with U64MAE latches IICDI. -/
def Obligations.LongWordMoves : Prop :=
  ∀ (s : State) (q : MoveArgs) (z : Size) (d16 : Parcel),
    (∀ f ∈ q.long s false ++ q.normal s false ++ q.sized s false z, MovesLong s false f) ∧
    (∀ f ∈ q.long s true ++ q.normal s true ++ q.sized s true z, MovesLong s true f) ∧
    ∀ x ∈ [(Instr.storeImm q.pm q.i q.m q.data, q.data), (.storeImm16 q.pm q.i q.m d16, d16.signExtend 32)],
      ∀ p s1, Reaches s (s.regAddr q.pm true q.i q.m) .lw .w64 false 1 p s1 →
        Completes x.1 s fun t => StoredBytes s t p 8 (0#32 ++ x.2) ∧ ButStores s1 t [(p, 8)]

/-- R290 to R293, R296 and R505: in SIMD mode every move of a register with a complement moves the complement to or from the
next word, short word or byte, each under the condition of its element; a register without one moves alone; a constant is
stored twice; a broadcast load fills both registers from the one datum; a move that no element's condition lets happen does
nothing. -/
def Obligations.SimdMoves : Prop :=
  ∀ (s : State) (q : MoveArgs) (z : Size) (d16 : Parcel),
    (∀ f ∈ q.normal s false ++ q.sized s false z, MovesPair s false f ∧ MovesAlone s false f ∧ Broadcasts s f) ∧
    (∀ f ∈ q.long s false, Broadcasts s f) ∧
    (∀ f ∈ q.normal s true ++ q.sized s true z, MovesPair s true f ∧ MovesAlone s true f) ∧
    (∀ b, ∀ f ∈ q.normal s b ++ q.sized s b z ++ q.long s b, f.cx = false → f.cy = false → exec f.instr s = .next s) ∧
    ∀ x ∈ [(Instr.storeImm q.pm q.i q.m q.data, q.data), (.storeImm16 q.pm q.i q.m d16, d16.signExtend 32)],
      ∀ sp w n p r s1, accessWidth .none sp = some (w, n) → ReachesPair s (s.regAddr q.pm true q.i q.m) sp w n p r s1 →
        s.simd = true → Completes x.1 s fun t =>
          (∀ k, k < w.bytes → t.mem.read (p + k) = x.2.extractLsb' (8 * k) 8 ∧ t.mem.read (r + k) = x.2.extractLsb' (8 * k) 8) ∧
          (∀ b, (b < p ∨ p + w.bytes ≤ b) → (b < r ∨ r + w.bytes ≤ b) → t.mem.read b = s.mem.read b) ∧
          ButStores s1 t [(p, w.bytes), (r, w.bytes)]

/-- R48, R263, R290, R298, R302, R505, R510 and R511: a dual move makes its DM and its PM access at once, both from the state
before it, in every space and mode, also with circular buffers: its address registers and latches are those of the two moves
alone. Of two loads of one register the DM load stays, and a 64-bit PM load that names it is blocked whole; of two stores to one
byte the PM store stays (the order of stores is the model's, log 42). -/
def Obligations.DualMoves : Prop :=
  (∀ (s : State) (dmStore pmStore : Bool) (i m j k : DagNo) (rd rp : RegNo) (d p : Half), s.noBroadcast →
     HalfMove s (s.regAddr false true i m) dmStore rd d → HalfMove s (s.regAddr true true j k) pmStore rp p →
     let clash := p.long = true ∧ ∃ y r, (d.regs y r).isSome = true ∧ (p.regs y r).isSome = true
     exec (.dualMove dmStore i m rd pmStore j k rp) s = exec (.computeDualMove .none dmStore i m rd pmStore j k rp) s ∧
     Completes (.computeDualMove .none dmStore i m rd pmStore j k rp) s fun t =>
       t.dag = ((s.setI (dagNo false i) (d.after.ireg (dagNo false i))).setI (dagNo true j) (p.after.ireg (dagNo true j))).dag ∧
       t.sys = { s.sys with
         stkyx := d.after.sys.stkyx ||| p.after.sys.stkyx, irptl := d.after.sys.irptl ||| p.after.sys.irptl } ∧
       t.seq = s.seq ∧ t.mmr = s.mmr ∧ t.posted = s.posted ∧ t.bus = s.bus ∧ t.free = s.free ∧
       (∀ y r v, d.regs y r = some v → t.dreg y r = v) ∧
       (∀ y r v, d.regs y r = none → p.regs y r = some v → (clash → t.dreg y r = s.dreg y r) ∧ (¬ clash → t.dreg y r = v)) ∧
       (∀ y r, d.regs y r = none → p.regs y r = none → t.dreg y r = s.dreg y r) ∧
       (∀ y r, t.hiddenDreg y r = s.hiddenDreg y r) ∧ t.data.px = s.data.px ∧ SameMr s t ∧ SameFifo s t ∧
       ∀ b, t.mem.read b = (p.bytes b).getD ((d.bytes b).getD (s.mem.read b))) ∧
  ∀ (s v w : State) (dmStore pmStore : Bool) (i m j k : DagNo) (rd rp : RegNo) (p q : Nat),
    let a := dagNo false i
    let b := dagNo true j
    s.simd = false → s.noBroadcast → OrdinaryWord s (s.present a (s.ireg a)) p → OrdinaryWord s (s.present b (s.ireg b)) q →
    exec (.moveUregSized .true_ true false dmStore i m (.r rd) .none) s = .next v →
    exec (.moveUregSized .true_ true true pmStore j k (.r rp) .none) s = .next w →
    Completes (.computeDualMove .none dmStore i m rd pmStore j k rp) s fun t =>
      t.dag = ((s.setI a (v.ireg a)).setI b (w.ireg b)).dag ∧
      t.sys = { s.sys with stkyx := v.sys.stkyx ||| w.sys.stkyx, irptl := v.sys.irptl ||| w.sys.irptl }

/-- R48, R80, R302, R505, R510, R524, R526, R529, R531 and R533: a computation beside a data move, a dual move, a register move,
a swap, a MODIFY or an address conversion, and an immediate shift beside a data move. That a result is dropped for a register
that only a PM load blocked whole names is the model's choice (log 42). Both use the state before the instruction; a register that
both write takes the move's value, a status register that the move writes too. -/
def Obligations.OperationBesideMove : Prop :=
  (∀ (s : State) (cond : Cond) (c : Compute) (post pm long : Bool) (i m d : DagNo) (u src : UReg) (n k : RegNo) (d6 : BitVec 6)
     (scale : Scale) (toByte breg : Bool),
     let size := if long then Size.lw else .none
     let move := fun (store : Bool) (a : Addr) (r : UReg) (z : Size) =>
       s.moveFx { pm := pm, addr := a, store := store, what := .reg r, size := z, gate := cond } (s.cx cond) (s.cy cond)
     let byReg := s.regAddr pm post i m
     let by6 := immAddr pm post i (d6.signExtend 32)
     Beside (.loadUreg cond c post pm i m long u) s cond c (.loadUreg cond .none post pm i m long u) (move false byReg u size) ∧
     Beside (.storeUreg cond c post pm i m long u) s cond c (.storeUreg cond .none post pm i m long u) (move true byReg u size) ∧
     Beside (.loadDregImm cond c pm i post d6 n) s cond c (.loadDregImm cond .none pm i post d6 n) (move false by6 (.r n) .none) ∧
     Beside (.storeDregImm cond c pm i post d6 n) s cond c (.storeDregImm cond .none pm i post d6 n) (move true by6 (.r n) .none) ∧
     Beside (.moveUreg cond c u src) s cond c (.moveUregShort cond u src) (.ok (s.regMoveFx u src (s.cx cond) (s.cy cond))) ∧
     Beside (.swapDreg cond c n k) s cond c (.swapDregShort cond n k) (.ok (s.swapFx n k (s.cx cond) (s.cy cond))) ∧
     Beside (.modify cond c pm i d m scale) s cond c (.modify cond .none pm i d m scale) (.ok {}) ∧
     Beside (.convertAddr cond c pm i d toByte breg) s cond c (.convertAddr cond .none pm i d toByte breg) (.ok {})) ∧
  (∀ (s u v : State) (c : Compute) (dmStore pmStore : Bool) (i m j k : DagNo) (rd rp : RegNo),
     exec (.compute c) s = .next u → exec (.dualMove dmStore i m rd pmStore j k rp) s = .next v →
     ∃ f g, s.moveFx (s.dualHalf false dmStore i m rd) true true = .ok f ∧ s.moveFx (s.dualHalf true pmStore j k rp) true true = .ok g ∧
       Completes (.computeDualMove c dmStore i m rd pmStore j k rp) s fun t => Combined s u v t (f.dests ++ g.dests) (pairResult c)) ∧
  (∀ (s : State) (cond : Cond) (sh : ShiftImm) (i m : DagNo) (n : RegNo),
     let goes := fun (x : Instr) (pm store : Bool) =>
       let a := s.regAddr pm true i m
       (∀ u v, exec (.ifShiftImm cond sh) s = .next u → exec (.moveUregSized cond true pm store i m (.r n) .none) s = .next v →
         ∃ f, s.moveFx { pm := pm, addr := a, store := store, what := .reg (.r n), gate := cond } (s.cx cond) (s.cy cond) = .ok f ∧
           Completes x s fun t => Combined s u v t f.dests false) ∧
       ∀ p ea s1, s.cx cond = true → s.simd = false → s.fifoReady → s.noBroadcast → Lands s a .nw 1 ea s1 → OrdinaryWord s ea p →
         ∃ u v, exec (.ofShiftImm sh) s = .next u ∧ exec (.moveUregSized cond true pm store i m (.r n) .none) s = .next v ∧
           Completes x s fun t => Combined s u v t (if store then [] else [.r n]) false
     goes (.shiftImmLoadDM cond sh i m n) false false ∧ goes (.shiftImmStoreDM cond sh i m n) false true ∧
     goes (.shiftImmLoadPM cond sh i m n) true false ∧ goes (.shiftImmStorePM cond sh i m n) true true)

/-- R261, R265, R280, R338, R533 and R663: BITREV writes the mirrored sum; a normal-word address of L1, L2 or L3 converts to
the byte address of the same storage and back, and a byte address converts to itself; a long-word or short-word address
latches ILADI and is copied: that W2B copies it, as B2W does, is the model's choice (log 29). -/
def Obligations.AddressConversion : Prop :=
  ∀ (s : State) (cond : Cond) (pm : Bool) (src dst : DagNo) (data : Word) (l : Loc), s.cx cond = true →
    let a := dagNo pm src
    let d := dagNo pm dst
    (Completes (.bitrevImm pm src dst data) s fun t =>
      ∃ r : Word, t = s.setI d r ∧ ∀ j : Nat, j < 32 → r.getLsbD j = (s.ireg a + data).getLsbD (31 - j)) ∧
    (locate (s.ireg a).toNat = some l → l.region.space = .nw →
      Completes (.convertAddr cond .none pm src dst true false) s fun t =>
        ∃ r : Word, t = s.setI d r ∧
          (∃ k, locate r.toNat = some k ∧ k.region.space = .bw ∧ k.region.target = l.region.target ∧
            k.region.phys = l.region.phys ∧ k.off = 4 * l.off) ∧
          exec (.convertAddr cond .none pm dst src false false) t = .next (t.setI a (s.ireg a)) ∧
          exec (.convertAddr cond .none pm dst src true false) t = .next (t.setI a r)) ∧
    (locate (s.breg a).toNat = some l → l.region.space = .nw →
      Completes (.convertAddr cond .none pm src dst true true) s fun t =>
        ∃ r : Word, t = s.setBOnly d r ∧ ∃ k, locate r.toNat = some k ∧ k.region.space = .bw ∧
          k.region.target = l.region.target ∧ k.off = 4 * l.off) ∧
    ∀ toByte : Bool, (spaceOf (s.ireg a) = some .lw ∨ spaceOf (s.ireg a) = some .sw) →
      Completes (.convertAddr cond .none pm src dst toByte false) s fun t => t = s.illegalSpace.setI d (s.ireg a)

/-- R49, R55 to R59, R77, R78, R84, R85, R89, R275, R524, R526 to R528, R628 and R629: register moves and swaps, each element's part
under its own condition in SIMD mode and under selective execution, and immediate loads; PX takes from and gives to a data register
40 bits, gives its lower word to any other register and, but for the USTAT registers, to that register's complement; from any other
register it takes the register into PX1 and its pair partner, or else the register itself, into PX2. What a write leaves in the
registers of the sequencer's neighbours: a write of B loads I too, PX1 and PX2 are the halves of PX, TPERIOD and TCOUNT hold what is
written, PC, FADDR, DADDR and the EMUCLK counters ignore it (D10). That ASTAT, STKY, PX1 and PX2 move to PX in pairs, as R59 says of
USTAT, and that a 32-bit constant goes to both halves of PX, is the model's choice (log 36). A write of a sequencer register that R1221
or R1230 puts outside the defined behaviour is made, and marks the step refused (log 43). -/
def Obligations.RegisterMoves : Prop :=
  (∀ (s : State) (cond : Cond) (dst src : UReg) (n k : RegNo) (data : Word) (d16 : Parcel),
     let cx := s.cx cond
     let cy := s.cy cond
     let loads := fun (i : Instr) (v : Word) => Completes i s fun t =>
       t = match s.simd, compOf dst with
         | true, some d => (s.writeU dst v).writeU d v
         | _, _ => s.writeU dst v
     MovesTo (.moveUreg cond .none dst src) s cx cy dst src ∧ MovesTo (.moveUregShort cond dst src) s cx cy dst src ∧
     (∀ i ∈ [Instr.swapDreg cond .none n k, .swapDregShort cond n k], Completes i s fun t =>
       let s1 := if cx then s.setDreg false n (s.dreg true k) else s
       t = if cy then s1.setDreg true k (s.dreg false n) else s1) ∧
     loads (.moveImm dst data) data ∧ loads (.moveImm16 dst d16) (d16.signExtend 32) ∧
     (dregOf dst = none → dst ≠ .px → ∀ i ∈ [Instr.moveUreg cond .none dst .px, .moveUregShort cond dst .px], Completes i s fun t =>
       let v := s.data.px.truncate 32
       let s1 := if cx then s.writeU dst v else s
       t = match s.simd && cy && !isUstat dst, compOf dst with
         | true, some d => s1.writeU d v
         | _, _ => s1) ∧
     (dregOf src = none → ∀ i ∈ [Instr.moveUreg cond .none .px src, .moveUregShort cond .px src], Completes i s fun t =>
       let whole : Long := if src = .px then s.data.px else s.readU ((compOf src).getD src) ++ s.readU src
       t = if cx then { s with data := { s.data with px := whole } } else s) ∧
     ∀ y : Bool,
       let u : UReg := if y then .s n else .r n
       let v := s.data.px.extractLsb' 24 40
       (∀ i ∈ [Instr.moveUreg cond .none .px u, .moveUregShort cond .px u], Completes i s fun t =>
         t = if cx then { s with data := { s.data with px := s.dreg y n ++ 0#24 } } else s) ∧
       ∀ i ∈ [Instr.moveUreg cond .none u .px, .moveUregShort cond u .px], Completes i s fun t =>
         let s1 := if cx then s.setDreg y n v else s
         t = if s.simd && cy then s1.setDreg (!y) n v else s1) ∧
  ∀ (s : State) (n : RegNo) (v : Word),
    let writes := fun (u : UReg) (P : State → Prop) => Completes (.moveImm u v) s P
    let dag := fun (u : UReg) (i m l b : RegNo → Word) => writes u fun t =>
      t = { s with dag := t.dag } ∧ (∀ j, t.ireg j = i j) ∧ (∀ j, t.mreg j = m j) ∧ (∀ j, t.lreg j = l j) ∧ ∀ j, t.breg j = b j
    let put := fun (f : RegNo → Word) (j : RegNo) => if j = n then v else f j
    let low := s.data.px.extractLsb' 0 32
    let high := s.data.px.extractLsb' 32 32
    dag (.i n) (put s.ireg) s.mreg s.lreg s.breg ∧ dag (.m n) s.ireg (put s.mreg) s.lreg s.breg ∧
    dag (.l n) s.ireg s.mreg (put s.lreg) s.breg ∧ dag (.b n) (put s.ireg) s.mreg s.lreg (put s.breg) ∧
    (s.simd = false → writes (.r n) (fun t => t = s.setDreg false n (reg40 v)) ∧ writes (.s n) (fun t => t = s.setDreg true n (reg40 v)) ∧
      writes .px1 (fun t => t = { s with data := { s.data with px := high ++ v } }) ∧
      writes .px2 fun t => t = { s with data := { s.data with px := v ++ low } }) ∧
    (s.simd = true → ∀ u ∈ [UReg.px1, .px2], writes u fun t => t = { s with data := { s.data with px := v ++ v } }) ∧
    writes .px (fun t => t = { s with data := { s.data with px := v ++ v } }) ∧
    writes .tperiod (fun t => t = { s with sys := { s.sys with tperiod := v } }) ∧
    writes .tcount (fun t => t = { s with sys := { s.sys with tcount := v }, bdry := { s.bdry with tcountWritten := true } }) ∧
    ∀ u ∈ [UReg.pc, .faddr, .daddr, .emuclk, .emuclk2], writes u fun t => t = s

/-- R64, R65, R68 to R70: writes of the sequencer's registers outside delay slots. PCSTK and LADDR replace the top entries, on
empty stacks nothing; an overflowed PC stack keeps its entries (log 22); CURLCNTR replaces the count of a counter loop, or of an
entry that PUSH LOOP made, LCNTR the count to come. PCSTKP waits: the next instruction still finds the stack as it was; after it the
newest entries go, or entries come whose contents are open, and 31 marks the stack as overflowed; on an overflowed stack nothing
happens (the open entries, 31, and that the stack is judged then and not at the write, are log 22). The model's own note of what a restored loop still waits for is log 43. -/
def Obligations.SequencerRegisters : Prop :=
  (∀ (s : State) (v : Word), s.seq.branches = [] →
     let sets := fun (u : UReg) (q : Seq) => Completes (.moveImm u v) s fun t => t = { s with seq := q }
     (∀ w rest, s.seq.pcStk = w :: rest → (∀ e ∈ s.seq.loopStk.head?, e.restored = .whole) →
       sets .pcstk { s.seq with pcStk := if s.seq.pcOv then w :: rest else v :: rest }) ∧
     (s.seq.pcStk = [] → (∀ e ∈ s.seq.loopStk.head?, e.restored = .whole) → sets .pcstk s.seq) ∧
     sets .pcstkp { s.seq with pcStkpNew := some (v.truncate 5) } ∧
     (s.seq.loopStk = [] → sets .laddr s.seq ∧ sets .curlcntr s.seq) ∧
     (∀ e rest, s.seq.loopStk = e :: rest →
       (e.restored = .whole ∨ e.restored = .counted →
         sets .laddr { s.seq with loopStk := { e with laddr := v, restored := .whole } :: rest }) ∧
       (e.restored = .whole → e.laddr.extractLsb' 24 5 = 0b01111#5 →
         sets .curlcntr { s.seq with loopStk := { e with count := v } :: rest }) ∧
       (e.restored = .whole → e.laddr.extractLsb' 24 5 ≠ 0b01111#5 → sets .curlcntr s.seq) ∧
       (e.restored = .pushed ∨ e.restored = .counted →
         sets .curlcntr { s.seq with loopStk := { e with count := v, restored := .counted } :: rest })) ∧
     (s.seq.lcntrs = [] → sets .lcntr s.seq) ∧
     ∀ c above, s.seq.lcntrs = c :: above → sets .lcntr { s.seq with lcntrs := v :: above }) ∧
  ∀ (s t : State) (f : Fetched) (i : Instr) (n : BitVec 5),
    s.accept = none → s.seq.idle = false → s.seq.srst ≠ 1 → s.fetch s.seq.pc = some f → s.fetchStop = none → f.decode = .ok i →
    s.seq.loopStk = [] → s.seq.branches = [] → s.seq.pcStkpNew = some n →
    exec i (s.begin f.len) = .next t → t.seq = (s.begin f.len).seq → t.bdry.refused = none → t.bdry.taken = false →
    (s.begin f.len).seq.pcStk = s.seq.pcStk ∧ (s.begin f.len).seq.pcOv = s.seq.pcOv ∧
    ∃ u, step s = .next u ∧ u.seq.pcStkpNew = none ∧ u.seq.pcStkpDue = none ∧
      let depth := min n.toNat 30
      if s.seq.pcOv then u.seq.pcStk = s.seq.pcStk ∧ u.seq.pcOv = true
      else u.seq.pcOv = decide (n = 31#5) ∧
        (depth ≤ s.seq.pcStk.length → u.seq.pcStk = s.seq.pcStk.drop (s.seq.pcStk.length - depth)) ∧
        (s.seq.pcStk.length < depth → ∃ fresh, u.seq.pcStk = fresh ++ s.seq.pcStk ∧ u.seq.pcStk.length = depth)

/-- R318 to R324, R327, R339, R346, R358, R370, R372, R1081, R1138, R1153, R1176 and R1177: in SISD mode a load reads a core
memory-mapped register and a store writes it at its word address, by the rule of that register, and leaves every other
register, the sequencer, the status registers and memory as they were, but for what the register is there to do: the reset
request (whose time is the model's choice, log 46), the hold of the branch target buffer and of the caches, light sleep (that a bit
left at 1 puts no block to sleep again is log 37), shutdown, the acknowledgement to the event controller, an artificial parity error
(PARI at every value but 0, the first one recorded: log 19). A store to SHL1C_CFG drops the lines of the caches that it invalidates;
a conditional access to a cache register stops, as R372 rules it out (log 11).
PX moves as its half PX1. The access is the unintended one of IIRAE. The store stays posted until SYNC, which changes nothing else but
the model's note of it; the posting is the model's choice (log 19), so are the address of the prefetch buffer's range register (log 51) and the invalidation registers at a store of
END (log 57). -/
def Obligations.CoreRegisters : Prop :=
  (∀ (s : State) (pm : Bool) (u : UReg) (addr : Word) (r : CoreMmr),
     Config.inCmmrRange addr.toNat = true → mmrAt addr.toNat = some r → s.simd = false →
     let v := s.readU u
     (s.cacheFree pm false r v → Completes (.loadUregDirect pm false u addr) s fun t =>
       ButHits (s.unintended.writeU (if u = .px then .px1 else u) (s.readMmr r)) t) ∧
     (s.cacheFree pm true r v → Completes (.storeUregDirect pm false u addr) s fun t =>
       t.mmr = storedMmr s r v ∧
       t.posted = { was := s.mmr, left := 5 } :: s.posted ∧
       t.data = s.data ∧ t.dag = s.dag ∧ t.excl = s.excl ∧ t.free = s.free ∧
       t.cache.lines = (if r = .l1cCfg then s.cache.lines.filter fun x => !v.getLsbD (x.unit.base + 6) else s.cache.lines) ∧
       t.cache.near = (if r.isCache then 13 else s.cache.near) ∧
       (r.isRange = false → r ≠ .l1cCfg2 → t.cache.early = s.cache.early) ∧
       t.seq = { s.seq with
         srst := if r = .sysctl ∧ v.getLsbD 0 = true then 2 else s.seq.srst
         btbHold := if r ∈ [.btbCfg, .btbLockStart, .btbLockEnd] then 13 else s.seq.btbHold
         cacheHold := if r ∈ [.l1cCfg, .l1cCfg2] then 13 else s.seq.cacheHold } ∧
       t.sys = { s.unintended.sys with
         irptl := s.unintended.sys.irptl ||| (if r = .gperrStat ∧ v ≠ 0#32 then 0x8#32 else 0#32) } ∧
       t.bus = (if r = .seciId then Config.BusEvent.secAck :: s.bus else s.bus) ∧
       (r ∉ [.sysctl, .pwrL1Sd, .pwrL1Ls] → t.mem = s.mem) ∧
       (r = .pwrL1Ls → SameBytes s t ∧ ∀ b : Fin 4, t.mem.power[b] =
         if v.getLsbD b then (if s.mmr.pwrL1Ls.getLsbD b then s.mem.power[b] else .asleep) else .awake) ∧
       (r ∈ [.sysctl, .pwrL1Sd] → t.mem.power = s.mem.power ∧
         ∀ p, (∀ b, blockOf p = some b → shutBlocks t.mmr.sysctl t.mmr.pwrL1Sd b = true →
           shutBlocks s.mmr.sysctl s.mmr.pwrL1Sd b = true) → t.mem.read p = s.mem.read p))) ∧
  (∀ (s : State) (cond : Cond) (store : Bool) (i m : DagNo) (u : UReg) (r : CoreMmr),
     let ea := s.present (dagNo false i) (s.ireg (dagNo false i))
     cond ≠ .true_ → s.cx cond = true → s.simd = false → s.mmr.invRuns = false → Config.inCmmrRange ea.toNat = true →
     mmrAt ea.toNat = some r → r.isCache = true →
     exec (.moveUregSized cond true false store i m u .none) s = .refused (.cacheRestriction ea.toNat)) ∧
  ∀ s : State, exec .sync s = .next { s with posted := [], mem := s.mem.sync }

/-- R370 to R372, R376 and R667: a store of END to one of the first two ranges, programmed for write-back and invalidation, puts the
first set and the number of sets into the invalidation registers; that these are the sets of the largest cache is the model's
choice (log 57). A cache operation moves the two registers on by one index and ends the range operation at count 0; with no range
operation under way the count stays 0 (log 57); one that names no cache does nothing (log 61). INVALIDATE and FLUSH drop the lines of
their caches at the index that a write-back-invalidate range holds (which lines those are: log 57), WRITEBACK drops none. In the
twelve instructions after a store to SHL1C_CFG or SHL1C_CFG2, and under ranges that break the restrictions of R372, a cache operation
stops; a range whose ends lie in different spaces breaks them. -/
def Obligations.CacheRanges : Prop :=
  (∀ (s : State) (k : Fin 8) (v : Word), k.val < 2 → s.mmr.l1cCfg2.getLsbD (2 * k) = true →
     s.mmr.l1cCfg2.getLsbD (2 * k + 1) = true →
     let m := storedMmr s (.l1cEnd k) v
     let sets := cacheSets s.mmr.l1cCfg
     let first := normalAddr s.mmr.l1cStart[k]
     m.invIxstart = BitVec.ofNat 32 (first / 64 % sets) ∧
     m.invCnt = BitVec.ofNat 32 (min ((normalAddr v - first + 63) / 64) sets)) ∧
  ∀ (s : State) (a b c d e : Bool),
    let names := a || b || c || d || e
    let count := fun m : Mmr => { m with
      invIxstart := m.invIxstart + 1#32, invCnt := if m.invCnt = 0#32 then 0#32 else m.invCnt - 1#32
      invRuns := decide (1 < m.invCnt.toNat) }
    (names = false → exec (.cacheOp a b c d e) s = .next s) ∧
    (names = true → s.seq.cacheHold = 0 → s.brokenRange = false → Completes (.cacheOp a b c d e) s fun t =>
      t = { s with mmr := count s.mmr, posted := s.posted.map fun p => { p with was := count p.was }, cache := t.cache } ∧
      t.cache.early = s.cache.early ∧ t.cache.near = s.cache.near ∧
      ∀ x, x ∈ t.cache.lines ↔ x ∈ s.cache.lines ∧
        ¬ (((x.unit = .i ∧ a = true) ∨ (x.unit = .dm ∧ b = true) ∨ (x.unit = .pm ∧ d = true)) ∧ s.wbiRange x.line = true ∧
          x.line / 64 % x.unit.sets s.gov.l1cCfg = s.mmr.invIxstart.toNat % x.unit.sets s.gov.l1cCfg)) ∧
    (names = true → s.seq.cacheHold ≠ 0 ∨ s.brokenRange = true →
      exec (.cacheOp a b c d e) s = .refused (.cacheRestriction s.seq.pc.toNat)) ∧
    ∀ k : Fin 8, s.gov.l1cCfg2.getLsbD (2 * k + 1) = true → s.gov.l1cStart[k] ≠ 0#32 → s.gov.l1cEnd[k] ≠ 0#32 →
      spaceOf s.gov.l1cStart[k] ≠ spaceOf (s.gov.l1cEnd[k] - 1#32) → s.brokenRange = true

/-- R58, R339 and R346: a 32-bit load and store of a system memory-mapped register or a peripheral goes over the crossbar, whose
answer is open (log 12); with PX it moves PX1, with (lw) too at a peripheral; of a system register it is the unintended access of
IIRAE, and that only such an access reaches it, and that multi-memory space counts as a peripheral, is the model's reading (log 16). -/
def Obligations.CrossbarAccesses : Prop :=
  ∀ (s : State) (pm long : Bool) (u : UReg) (addr : Word) (l : Loc),
    (long = true → u = .px ∧ l.region.target = .device) → locate addr.toNat = some l → (l.region.target = .device ∨ l.region.target = .smmr) → l.off + 4 ≤ l.region.count →
    s.simd = false → s.seq.cacheHold = 0 →
    let p := l.region.phys + l.off
    let s1 := if l.region.target = .smmr then s.unintended else s
    (Completes (.loadUregDirect pm long u addr) s fun t => ∃ x : Word,
      ButHits { s1.writeU (if u = .px then .px1 else u) x with bus := .read p 4 :: s.bus } t) ∧
    Completes (.storeUregDirect pm long u addr) s fun t =>
      ButHits { s1 with bus := .write p 4 (s.readU u).toNat :: s.bus, excl := dropMonitor s.excl p 4 } t

/-- R219, R323, R1032, R1035, R1049, R1057, R1080 and R1081: what the outside does to the core. An event of the event controller
writes its number and latches SECI, an accelerator latches FIRI or IIRI, each unless it is in service; a parity error records its
path and its class, unless an earlier error locks the record, and with the class enabled latches PARI; of simultaneous errors DM
hides PM and S1 hides S2, others are recorded together. That D1 and D2 are of the data class, and that both PM paths stand behind
the one DM path, is the model's reading (log 63). -/
def Obligations.OutsideEvents : Prop :=
  (∀ (s : State) (sid : Word), s.posted = [] →
     (s.secRaise sid).mmr = { s.mmr with seciId := sid } ∧
     (s.secRaise sid).sys.irptl =
       if s.sys.imaskp.getLsbD 15 = true ∧ s.sys.mode2.getLsbD 0 = false then s.sys.irptl else s.sys.irptl ||| 0x8000#32) ∧
  (∀ (s : State) (iir : Bool),
     let k := if iir then 14 else 13
     s.accelerator iir = { s with sys := { s.sys with
       irptl := if s.sys.imaskp.getLsbD k then s.sys.irptl else s.sys.irptl ||| (1#32 <<< k) } }) ∧
  ∀ (s : State), s.posted = [] →
    let record := fun x : ParityPath × Nat × Nat × Nat =>
      1#32 <<< x.2.1 ||| 1#32 <<< x.2.2.1 ||| (if s.sys.mode1.getLsbD x.2.2.2 then 1#32 <<< (x.2.2.1 - 1) else 0#32)
    let after := fun (l : List ParityPath) (w : Word) (on : Bool) =>
      let t := s.parityError l
      t.mmr.gperrStat = (if s.mmr.gperrStat = 0#32 then w else s.mmr.gperrStat) ∧
      t.sys.irptl = (if on then s.sys.irptl ||| 0x8#32 else s.sys.irptl) ∧
      t.sys.parity = (s.sys.parity || on) ∧ t.data = s.data ∧ t.dag = s.dag ∧ t.seq = s.seq ∧ t.mem = s.mem
    let hides := fun a b : ParityPath => (a = .dcdm ∧ (b = .dcpm ∨ b = .icpm)) ∨ (a = .dss1 ∧ b = .dss2)
    (∀ x ∈ parityPaths, after [x.1] (record x) (s.sys.mode1.getLsbD x.2.2.2)) ∧
    ∀ x ∈ parityPaths, ∀ y ∈ parityPaths,
      (hides x.1 y.1 → ∀ l ∈ [[x.1, y.1], [y.1, x.1]], after l (record x) (s.sys.mode1.getLsbD x.2.2.2)) ∧
      (¬ hides x.1 y.1 → ¬ hides y.1 x.1 →
        after [x.1, y.1] (record x ||| record y) (s.sys.mode1.getLsbD x.2.2.2 || s.sys.mode1.getLsbD y.2.2.2))

/-- R265, R271 to R278, R286, R338, R531, R532 and R662: MODIFY wraps once at the ends of the buffer that the base and length
registers give, whatever MODE1 says, and a post-modify access does so with CBUFEN; a wrap of I7 or I15 onto itself sets CB7S or
CB15S and latches the interrupt; a flag that the space of the index does not have latches ILADI and scales nothing; in bit-reverse
mode the space is that of the mirrored index, and a modifier is scaled down. That a
buffer of length 0 marks a wrap, and a MODIFY to another register none, is the model's reading (log 28), that (nw) is legal on an
index in no space log 59. -/
def Obligations.CircularBuffers : Prop :=
  (∀ (s : State) (cond : Cond) (pm : Bool) (src dst m : DagNo) (data : Word) (scale : Scale), s.cx cond = true →
     let a := dagNo pm src
     let d := dagNo pm dst
     let md := s.mreg (dagNo pm m)
     let space := s.indexSpace a
     let legal := scale = .none ∨ space = some .bw ∨ (scale = .nw ∧ space ≠ some .lw ∧ space ≠ some .sw)
     let illegal := fun (i : Instr) (md : Word) => Completes i s fun t => ∃ r w,
       Wrapped (s.breg a).toNat (s.lreg a).toNat ((s.ireg a).toNat + md.toInt) r w ∧
       IndexWritten s.illegalSpace t d r (w && decide (d = a))
     Modifies (.modifyShort cond pm src dst m) s a d md 0 ∧
     (legal → Modifies (.modify cond .none pm src dst m scale) s a d md (scaleShift scale)) ∧
     (legal → Modifies (.modifyImm pm src dst data scale) s a d data (scaleShift scale)) ∧
     (¬ legal → illegal (.modify cond .none pm src dst m scale) md ∧ illegal (.modifyImm pm src dst data scale) data)) ∧
  (∀ (s : State) (pm : Bool) (i m : DagNo) (n : RegNo) (p : Nat),
     let a := dagNo pm i
     let ea := if s.reversed a then (s.ireg a).reverse else s.ireg a
     s.simd = false → s.noBroadcast → s.mode .cbufen = true → OrdinaryWord s ea p →
     Completes (.moveUregSized .true_ true pm false i m (.r n) .none) s fun t => ∃ r w u,
       Wrapped (s.breg a).toNat (s.lreg a).toNat ((s.ireg a).toNat + (s.mreg (dagNo pm m)).toInt) r w ∧
       IndexWritten s u a r w ∧ ButHits (u.setDreg false n (reg40 (s.wordAt p))) t)

/-- R562 to R568, R577 to R579: the jumps, direct, PC-relative and indirect, with their modifiers (DB), (LA) and (CI). The
computation of a Type 9a jump comes first: that what a (CI) jump pops wins over the flags of the computation beside it is the
model's choice (log 62; D30 speaks of RTI), that a (CI) jump with no interrupt in service pops the status stack is D29. That the
pops of (LA) make an overflowed PC stack a full one and clear the loop overflow is log 22, that LCNTR then holds the loop's start
count is log 23. A short VISA jump is the same jump. -/
def Obligations.JumpInstructions : Prop :=
  ∀ (s c : State) (cond : Cond) (addr : IAddr) (off : BitVec 6) (md ic : DagNo) (mods : JumpMods) (els : Bool) (comp : Compute),
    let indirect : IAddr := (s.ireg (1#1 ++ ic) + s.mreg (1#1 ++ md)).truncate 24
    let near : IAddr := s.seq.pc + off.signExtend 24
    Jumps (.jumpDirect cond addr mods) s cond mods addr s ∧
    Jumps (.jumpPcRel cond addr mods) s cond mods (s.seq.pc + addr) s ∧
    Jumps (.branchShort cond (.indirect md ic) (.jump mods)) s cond mods indirect s ∧
    Jumps (.branchShort cond (.pcRel off) (.jump mods)) s cond mods near s ∧
    (AfterCompute s cond els comp c → Jumps (.jumpIndirect cond md ic mods els comp) s cond mods indirect c) ∧
    (AfterCompute s cond els comp c → Jumps (.jumpPcRel6 cond off mods els comp) s cond mods near c)

/-- R63, R66, R562 to R565, R577 to R579: the calls, also on a nearly full and on a full PC stack, which keeps its entries and
overflows (the model's choice, log 22). -/
def Obligations.CallInstructions : Prop :=
  ∀ (s c : State) (cond : Cond) (addr : IAddr) (off : BitVec 6) (md ic : DagNo) (db els : Bool) (comp : Compute),
    let indirect : IAddr := (s.ireg (1#1 ++ ic) + s.mreg (1#1 ++ md)).truncate 24
    let near : IAddr := s.seq.pc + off.signExtend 24
    Calls (.callDirect cond addr db) s cond db addr s ∧
    Calls (.callPcRel cond addr db) s cond db (s.seq.pc + addr) s ∧
    Calls (.branchShort cond (.indirect md ic) (.call db)) s cond db indirect s ∧
    Calls (.branchShort cond (.pcRel off) (.call db)) s cond db near s ∧
    (AfterCompute s cond els comp c → Calls (.callIndirect cond md ic db els comp) s cond db indirect c) ∧
    (AfterCompute s cond els comp c → Calls (.callPcRel6 cond off db els comp) s cond db near c)

/-- R65, R66, R575, R576, R581, R582, R1048 and R1049: RTS and RTI, long and short; (LR) changes nothing. What the return pops
wins over the computation beside it (D30); from an overflowed PC stack it goes to an open address (log 22). An RTI with no interrupt in service only pops (the model's choice, log 55). -/
def Obligations.ReturnInstructions : Prop :=
  ∀ (s c : State) (cond : Cond) (db lr els : Bool) (comp : Compute),
    exec (.rts cond db lr els comp) s = exec (.rts cond db false els comp) s ∧
    exec (.returnShort cond (.rts db lr)) s = exec (.returnShort cond (.rts db false)) s ∧
    (AfterCompute s cond els comp c → Returns (.rts cond db lr els comp) s cond false db c) ∧
    (AfterCompute s cond els comp c → Returns (.rti cond db els comp) s cond true db c) ∧
    Returns (.returnShort cond (.rts db lr)) s cond false db s ∧
    Returns (.returnShort cond (.rti db)) s cond true db s

/-- R580: a Type 10a instruction jumps if its condition is true; if it is false for both elements, the computation and the
DM move take place instead, and control falls through; not at a cache register, of which this is a conditional access (R372,
log 11). -/
def Obligations.JumpElseInstructions : Prop :=
  ∀ (s : State) (cond : Cond) (off : BitVec 6) (md ic : DagNo) (c : Compute) (i m : DagNo) (n : RegNo),
    let indirect : IAddr := (s.ireg (1#1 ++ ic) + s.mreg (1#1 ++ md)).truncate 24
    let near : IAddr := s.seq.pc + off.signExtend 24
    let ea := s.present (dagNo false i) (s.ireg (dagNo false i))
    let noCache := ∀ r, mmrAt ea.toNat = some r → r.isCache = false
    let row := fun (x : Instr) (target : IAddr) (move : Instr) =>
      (s.taken cond = true → s.cx cond = true → s.cy cond = true → s.jumpFree false →
        Completes x s fun t => ∃ p, BranchPasses s s p false ∧ SameOutsideControl s t ∧ t.sys = p.sys ∧ t.bdry.taken = true ∧
          t.seq = p.seq.sentTo target false .jump) ∧
      (s.taken cond = false → s.cx cond = false → s.cy cond = false → noCache → ∀ u, exec move s = .next u →
        Completes x s fun t => BranchPasses u u t false)
    row (.jumpIndirectElseLoad cond md ic c i m n) indirect (.loadUreg .true_ c true false i m false (.r n)) ∧
    row (.jumpIndirectElseStore cond md ic c i m n) indirect (.storeUreg .true_ c true false i m false (.r n)) ∧
    row (.jumpPcRelElseLoad cond off c i m n) near (.loadUreg .true_ c true false i m false (.r n)) ∧
    row (.jumpPcRelElseStore cond off c i m n) near (.storeUreg .true_ c true false i m false (.r n))

/-- R63, R66, R67, R70, R71 and R583 to R591: DO UNTIL starts a counter loop, an endless loop or an arithmetic loop, also on nearly
full and full stacks; what an overflow leaves on top is open (log 22). The loop type codes,
and the loop mark and the type in the undescribed bits of the PC stack entry, are the model's choice (log 21), that the entry is
marked ISCALL is its reading (log 31), and so is the start count kept for LCNTR (log 23). -/
def Obligations.LoopStarts : Prop :=
  ∀ (s : State) (count : Parcel) (reg : UReg) (off : BitVec 23) (f1 : Bool) (term : Cond),
    let last : IAddr := s.seq.pc + off.signExtend 24
    let type := fun v : Word =>
      if f1 = true ∧ s.sys.mode2.getLsbD 7 = false ∧ shortLoop s.seq.npc last v = false then 3#3 else 2#3
    (∀ c above, s.seq.lcntrs = c :: above →
      let counter := fun (i : Instr) (v : Word) => StartsLoop i s last 0b01111#5 (type v) v above
      counter (.doCounterImm count off f1) (count.setWidth 32) ∧
      counter (.doCounterUreg reg off f1) (s.readU reg) ∧
      StartsLoop (.doUntil .true_ off f1) s last 0b11111#5 1#3 c above ∧
      (term ≠ .true_ → term ≠ .notLce → StartsLoop (.doUntil term off f1) s last term.code 0#3 c above)) ∧
    ∀ i ∈ [Instr.doCounterImm count off f1, .doCounterUreg reg off f1, .doUntil .true_ off f1, .doUntil term off f1],
      i ≠ .doUntil .notLce off f1 → StartsSeventhLoop i s last

/-- R590 and R592: after the last instruction of a counter loop whose count is not 1, control goes to the loop's top and the count
goes down by one; at 1 the loop is left, the loop and PC stacks are popped, and the count before the loop is in LCNTR again
(log 23); an endless loop always goes back. An arithmetic loop tests its condition before the third-last instruction of its body,
or before the last one of a body of one or two; true, it is left after the last instruction: at its next execution, in a body of
two at its second, of one at its third; a test may miss a condition once that a multiplier flag made true, or that became true
during a CALL of an inner loop; an enclosing arithmetic loop tests before its third-last instruction too, also while the inner loop runs. A loop may not go
back within twelve instructions of a store to a branch target buffer register (R1138). -/
def Obligations.LoopEnds : Prop :=
  (∀ (s0 s : State) (f : Fetched) (i : Instr) (e : LoopEntry) (t : List LoopEntry) (w : Word) (stk : List Word),
     s0.fetch s0.seq.pc = some f → s0.fetchStop = none → f.decode = .ok i → s0.accept = none → s0.seq.idle = false →
     s0.seq.srst ≠ 1 → s0.seq.pcStk = w :: stk → s0.seq.pcOv = false → e.laddr.truncate 24 = s0.seq.pc →
     s0.seq.branches = [] → s0.seq.pcStkpNew = none → s0.compressedAtEnd f.len = false →
     (s0.begin f.len).seq.loopStk = e :: t → exec i (s0.begin f.len) = .next s → s.seq = (s0.begin f.len).seq →
     s.bdry.taken = false → s.bdry.refused = none → s.bdry.loopFree = false →
     let go := fun (npc : IAddr) (loops : List LoopEntry) (pcs : List Word) (cnts : List Word) =>
       ∃ u, step s0 = .next u ∧ u.seq.pc = npc ∧ u.seq.loopStk.map LoopEntry.unmarked = loops.map LoopEntry.unmarked ∧
         u.seq.pcStk = pcs ∧ u.seq.lcntrs = cnts
     let back := fun e' : LoopEntry =>
       if s0.seq.btbHold = 0 then go (w.truncate 24) (e' :: t) (w :: stk) s0.seq.lcntrs else step s0 = .refused .btbWindow
     let out := go (s0.seq.pc + BitVec.ofNat 24 f.len) t stk (e.start :: s0.seq.lcntrs)
     let code := e.laddr.extractLsb' 24 5
     (code = 0b01111#5 → e.count ≠ 1#32 → back { e with count := e.count - 1#32 }) ∧
     (code = 0b01111#5 → e.count = 1#32 → out) ∧
     (code = 0b11111#5 → back e) ∧
     (code ≠ 0b01111#5 → code ≠ 0b11111#5 →
       (e.exits = 0 → back e) ∧ (e.exits = 1 → out) ∧ ∀ n, e.exits = n + 2 → back { e with exits := n + 1 })) ∧
  (∀ (s : State) (len : Nat) (e : LoopEntry) (t : List LoopEntry) (top : IAddr),
    s.seq.loopStk = e :: t → s.seq.loopTop = some top →
    let u := fullLen s.seq.pc
    let last := (e.laddr.truncate 24 : IAddr).toNat
    let body := (last - top.toNat) / u + 1
    let test := if top.toNat + 2 * u ≤ last then s.seq.pc.toNat + 2 * u = last else s.seq.pc.toNat = last
    ∃ e' t', (s.begin len).seq.loopStk = e' :: t' ∧ t'.length = t.length ∧
      ((e.laddr.extractLsb' 24 5 = 0b01111#5 ∨ e.laddr.extractLsb' 24 5 = 0b11111#5 ∨ e.exits ≠ 0 ∨ ¬ test) → e' = e) ∧
      (e.laddr.extractLsb' 24 5 ≠ 0b01111#5 → e.laddr.extractLsb' 24 5 ≠ 0b11111#5 → e.exits = 0 → test →
        LoopChecked s (if body = 1 then 3 else if body = 2 then 2 else 1) e e') ∧
      ∀ (k : Nat) (o o' : LoopEntry), t[k]? = some o → t'[k]? = some o' →
        let here := s.seq.pc.toNat + 2 * u = (o.laddr.truncate 24 : IAddr).toNat
        (o.laddr.extractLsb' 24 5 = 0b01111#5 ∨ o.laddr.extractLsb' 24 5 = 0b11111#5 ∨ o.exits ≠ 0 ∨ ¬ here → o' = o) ∧
        (o.laddr.extractLsb' 24 5 ≠ 0b01111#5 → o.laddr.extractLsb' 24 5 ≠ 0b11111#5 → o.exits = 0 → here → LoopChecked s 1 o o')) ∧
  ∀ (s0 s : State) (k : Nat) (e : LoopEntry), s.seq.loopStk[k]? = some e →
    ∃ e', (s0.passCalls s).seq.loopStk[k]? = some e' ∧
      CallsWatched s0 s e e' ((s.seq.loopStk.take k).any LoopEntry.isArith)

/-- R63 to R74, R353, R568, R665, R666 and R1060: the pushes and pops of Type 20a. PUSH STS saves MODE1, ASTATX and ASTATY and
clears the MODE1 bits of MMASK, POP STS restores them; PUSH LOOP and PUSH PCSTK make an entry whose address is open, POP drops the
top. A push that leaves 29 or more PC stack entries latches SOVFI, a push on a full stack overflows it and latches SOVFI: the PC
stack keeps its entries, the top of the others is open (log 22); a pop clears the overflow. LCNTR then holds the count before the
loop (the model's reading, log 23), and a POP LOOP clears the overflow mark of the loop stacks (D15, log 22). A PUSH PCSTK for a loop
that PUSH LOOP made waits for its LADDR (R666; the model's way of it, log 43). With FLUSH CACHE, the stored code needs no more of it
(log 11). -/
def Obligations.StackOperations : Prop :=
  ∀ (s : State) (sts pcstk flush : Bool),
    let q := s.seq
    let slots := fun (pc pop : Bool) => pc = true → ∀ b ∈ q.branches, b.sort = .call ∨ (pop = true ∧ b.sort = .jumpCi)
    let same := fun (t : State) => t.data = s.data ∧ t.dag = s.dag ∧ t.mem = (if flush then s.mem.flushCode else s.mem) ∧
      t.mmr = s.mmr ∧ t.posted = s.posted ∧ t.excl = s.excl ∧ t.bus = s.bus ∧ t.free = s.free ∧ t.cache = s.cache ∧
      t.seq.pc = q.pc ∧ t.seq.npc = q.npc ∧ t.seq.branches = q.branches
    let sameLoops := fun (t : State) => t.seq.loopStk = q.loopStk ∧ t.seq.lcntrs = q.lcntrs ∧ t.seq.loopOv = q.loopOv
    let stsPushed := fun (t : State) =>
      (q.stsStk.length < 15 → t.seq.stsOv = q.stsOv ∧
        t.seq.stsStk = { mode1 := s.sys.mode1, astatx := s.astatx, astaty := s.sys.astaty } :: q.stsStk) ∧
      (15 ≤ q.stsStk.length → t.seq.stsOv = true ∧ ∃ e, t.seq.stsStk = e :: q.stsStk.tail)
    let pcPushed := fun (t : State) => ∃ w, t.seq.pcStk = (q.pushed w).pcStk ∧ t.seq.pcOv = (q.pushed w).pcOv
    let samePc := fun (t : State) => t.seq.pcStk = q.pcStk ∧ t.seq.pcOv = q.pcOv
    let sameSts := fun (t : State) => t.seq.stsStk = q.stsStk ∧ t.seq.stsOv = q.stsOv
    let pushes := fun (t : State) (loop sts pcstk : Bool) =>
      let alarm := loop || (sts && decide (15 ≤ q.stsStk.length)) || (pcstk && (q.pcOv || decide (28 ≤ q.pcStk.length)))
      (if sts then stsPushed t else sameSts t) ∧ (if pcstk then pcPushed t else samePc t) ∧ same t ∧
      t.sys = { s.sys with
        mode1 := if sts then s.sys.mode1 &&& ~~~s.sys.mmask else s.sys.mode1
        irptl := s.sys.irptl ||| (if alarm then 0x80#32 else 0#32) }
    let pops := fun (t : State) (sts pcstk : Bool) =>
      (if pcstk then ∃ p a, PopsPc s p a ∧ t.seq.pcStk = p.pcStk ∧ t.seq.pcOv = p.pcOv else samePc t) ∧
      (if sts then ∃ e, q.stsStk = e :: t.seq.stsStk ∧ t.seq.stsOv = false ∧ t.sys = s.sys.restored e
        else sameSts t ∧ t.sys = s.sys) ∧ same t
    let restored := ∀ e ∈ q.loopStk.head?, e.restored = .whole
    let hasPc := q.pcStk ≠ [] ∨ q.pcOv = true
    (q.branches = [] → ∀ c above, q.lcntrs = c :: above → Completes (.pushLoop sts pcstk flush) s fun t =>
      (∃ a, t.seq.loopStk =
        { laddr := a, count := c, start := c, restored := if pcstk then .tied else .pushed } :: q.loopStk) ∧
      t.seq.lcntrs = above ∧ t.seq.loopOv = q.loopOv ∧ pushes t false sts pcstk) ∧
    (q.branches = [] → ∀ e rest, q.lcntrs = [] → q.loopStk = e :: rest → Completes (.pushLoop sts pcstk flush) s fun t =>
      (∃ x, t.seq.loopStk = x :: rest) ∧ t.seq.lcntrs = [] ∧ t.seq.loopOv = true ∧ pushes t true sts pcstk) ∧
    (slots pcstk false → (pcstk = true → restored) → Completes (.pushSts pcstk flush) s fun t =>
      sameLoops t ∧ pushes t false true pcstk) ∧
    (slots true false → restored → Completes (.pushPcstk flush) s fun t => sameLoops t ∧ pushes t false false true) ∧
    (q.branches = [] → ∀ l loops, q.loopStk = l :: loops → (sts = true → q.stsStk ≠ []) → (pcstk = true → hasPc) →
      Completes (.popLoop sts pcstk flush) s fun t =>
        t.seq.loopStk = loops ∧ t.seq.lcntrs = l.start :: q.lcntrs ∧ t.seq.loopOv = false ∧ pops t sts pcstk) ∧
    (slots pcstk true → q.stsStk ≠ [] → (pcstk = true → hasPc) → Completes (.popSts pcstk flush) s fun t =>
      sameLoops t ∧ pops t true pcstk) ∧
    (slots true true → hasPc → Completes (.popPcstk flush) s fun t => sameLoops t ∧ pops t false true)

/-- R85, R88, R353, R665, R668, R670, R674 and R1070 to R1073: NOP and, without an emulator, EMUIDLE change nothing; FLUSH CACHE
and SYNC change nothing but the model's notes of stores into code (log 11) and the posting of stores (log 19); IDLE makes the core
idle, in a delay slot for ever; an idle core waits while time passes, and time passes at the end of every instruction. That several
expiries of the timer in one step are one pulse of TMREXP is the model's choice (log 38). -/
def Obligations.NoOperations : Prop :=
  (∀ s : State,
     exec .nop s = .next s ∧ exec .nopShort s = .next s ∧
     exec .flushCache s = .next { s with mem := s.mem.flushCode } ∧
     exec .sync s = .next { s with posted := [], mem := s.mem.sync } ∧
     (s.idleAllowed = .ok () → exec .emuidle s = .next s ∧ exec (.idleShort true) s = .next s ∧
       ∀ i ∈ [Instr.idle, .idleShort false], exec i s = .next { s with seq := { s.seq with
         idle := true, noIrq := if s.seq.noIrq = 0 then 0 else s.seq.noIrq + 1 } })) ∧
  (∀ s : State, s.accept = none → s.seq.idle = true →
     ∃ t, step s = .next t ∧ TimePasses s s t ∧ t.seq = s.seq ∧ t.data = s.data ∧ t.dag = s.dag ∧ t.mmr = s.mmr ∧
       t.posted = s.posted ∧ t.excl = s.excl ∧ t.cache = s.cache ∧ SameBytes s t) ∧
  ∀ (s u t : State) (len : Nat), s.finish u len = .ok t → s.seq.srst ≠ 1 → TimePasses s u t

/-- R671 and R672: CJUMP saves the frame pointer I6 in R2, and in SIMD mode in S2, makes the stack pointer I7 the new frame
pointer and jumps with two delay slots; RFRAME makes I6 the stack pointer and loads I6 from where it points, in any space; where
that is a 64-bit access, I7 is the old I6 all the same (log 42). -/
def Obligations.FrameInstructions : Prop :=
  ∀ (s : State) (addr : IAddr),
    let jumps := fun (i : Instr) (target : IAddr) => s.branchFree →
      Completes i s fun t => t.dreg false 2#4 = reg40 (s.ireg 6#4) ∧
        t.dreg true 2#4 = (if s.simd then reg40 (s.ireg 6#4) else s.dreg true 2#4) ∧
        (∀ y n, n ≠ 2#4 → t.dreg y n = s.dreg y n) ∧ t.dag = (s.setI 6#4 (s.ireg 7#4)).dag ∧
        t.seq = { s.seq with branches := [{ target := target, slots := 3, sort := .jump }], noIrq := 3 } ∧
        t.bdry.taken = true ∧ t.mem = s.mem ∧ t.mmr = s.mmr ∧ t.posted = s.posted ∧ t.excl = s.excl ∧ t.bus = s.bus ∧
        t.cache = s.cache ∧
        (∀ y, t.astat y = s.astat y ∧ t.stky y = s.stky y) ∧ SameMr s t ∧ SameFifo s t
    jumps (.cjump addr) addr ∧ jumps (.cjumpPcRel addr) (s.seq.pc + addr) ∧
    ∀ i ∈ [Instr.rframe, .rframeShort],
      (∀ sp w imdw n p s1, accessWidth .none sp = some (w, n) → Reaches s (.pre 6#4 0#32) sp w imdw n p s1 →
        Completes i s fun t => ButHits ((s.setI 6#4 (s.loaded .none sp p)).setI 7#4 (s.ireg 6#4)) t) ∧
      ∀ p s1, Reaches s (.pre 6#4 0#32) .lw .w64 false 1 p s1 →
        Completes i s fun t => ButHits ((s.setI 6#4 (s.wordAt p)).setI 7#4 (s.ireg 6#4)) t

/-- R63 to R74, R130, R133, R150, R165, R170, R190, R210 and R661: the five operations on the bits of a system register; a system
register holds what is written to its writable bits, the other bits keep reading as they did, or as 0. FLAG value bits of inputs
and stack status bits are not writable. That reserved bits read 0 and ignore writes is log 9 (D13), that bit 14 of ASTATY reads 0
log 47, that STKYY holds the arithmetic bits alone D14, that IRPTL, IMASK and IMASKP have bits 13 and 14 the product's choice
(log 1). -/
def Obligations.SystemRegisters : Prop :=
  (∀ (s : State) (r : SysReg) (d : Word),
     WritesBits (.bitSet r d) s r (fun v => v ||| d) ∧ WritesBits (.bitClr r d) s r (fun v => v &&& ~~~d) ∧
     WritesBits (.bitTgl r d) s r (fun v => v ^^^ d) ∧
     TestsBits (.bitTst r d) s r false (fun v => decide (v &&& d = d)) ∧
     TestsBits (.bitXor r d) s r (r == .astatx || r == .astaty) (fun v => decide (v = d))) ∧
  (∀ (s : State) (v : Word),
     let after := fun (r : SysReg) => (s.writeU (.sys r) v).readU (.sys r)
     (∀ r ∈ [SysReg.ustat1, .ustat2, .ustat3, .ustat4], after r = v) ∧
     (∀ r ∈ [SysReg.mode1, .mmask], after r = v &&& 0xF9E1FCFF#32) ∧ after .mode2 = v &&& 0x3800B1#32 ∧
     (∀ r ∈ [SysReg.irptl, .imask, .imaskp], after r = v &&& 0xFFF0F9F8#32) ∧
     after .astatx = putBit (v &&& 0xFF043FFF#32) 14 (decide (32 ≤ s.data.bffwrp.toNat)) ∧ after .astaty = v &&& 0xFF043FFF#32 ∧
     after .stkyy = v &&& 0x3E7#32 ∧ after .stkyx &&& ~~~0x7E00000#32 = v &&& 0x1E03E7#32 ∧
     (after .stkyx).getLsbD 22 = (s.seq.pcStk.isEmpty && !s.seq.pcOv) ∧ (after .stkyx).getLsbD 24 = s.seq.stsStk.isEmpty ∧
     (after .stkyx).getLsbD 26 = s.seq.loopStk.isEmpty ∧
     (s.seq.stsStk ≠ [] → after .mode1stk = v &&& 0xF9E1FCFF#32) ∧
     (∀ k : Nat, k < 4 → (after .flags).getLsbD (2 * k + 1) = v.getLsbD (2 * k + 1) ∧
       (v.getLsbD (2 * k + 1) = true → s.sys.flags.getLsbD (2 * k + 1) = true → (after .flags).getLsbD (2 * k) = v.getLsbD (2 * k)) ∧
       (v.getLsbD (2 * k + 1) = false → (after .flags).getLsbD (2 * k) = s.sys.pins.getLsbD k)))

/-- R402, R406, R60, R339, R1045 and R1177: when no interrupt is due and the core is not idle, a step executes the instruction
that the bytes at the PC decode to, on the state in which control is headed for the next address, and then does the work of the
instruction boundary; a fetch from no populated address stops the core (R341, D23, log 16); code in the storage of a cache, against the
restrictions on the caches, and code stored to without a flush sequence, is refused (R382, R372, R355, log 11); a fetch from a memory-mapped register is the unintended
access of IIRAE. An undefined word is a NOP of full length (D26, log 45) that raises ILOPI, and the first one is captured. -/
def Obligations.StepRunsDecodedInstruction : Prop :=
  ∀ (s : State), s.accept = none → s.seq.idle = false →
    (s.fetch s.seq.pc = none → step s = .fault (.busHang s.seq.pc.toNat)) ∧
    ∀ f, s.fetch s.seq.pc = some f →
      let s0 := s.begin f.len
      (∀ r, s.fetchStop = some r → step s = .refused r) ∧
      (s.fetchStop = none → f.decode = .error .oddPair → step s = .refused .oddPair) ∧
      (s.fetchStop = none → f.decode = .error .stackMix → step s = .refused .stackMix) ∧
      (s.fetchStop = none → ∀ i, f.decode = .ok i →
        s0.seq.npc = s.seq.pc + BitVec.ofNat 24 f.len ∧ s0.seq.pc = s.seq.pc ∧
        (∀ t, exec i s0 = .next t → step s = (s0.finish (s0.afterFetch t f.bytes) f.len).outcome) ∧
        (∀ r, exec i s0 = .fault r → step s = .fault r) ∧
        (∀ r, exec i s0 = .refused r → step s = .refused r)) ∧
      (∀ t, let a := s0.afterFetch t f.bytes
        a.data = t.data ∧ a.dag = t.dag ∧ a.seq = t.seq ∧ a.bdry = t.bdry ∧ SameBytes t a ∧ a.mmr = t.mmr ∧
        (Config.inCmmrRange s.seq.pc.toNat = true → s.sys.mode2.getLsbD 20 = true →
          a.sys = { t.sys with stkyx := t.sys.stkyx ||| 0x80000#32, irptl := t.sys.irptl ||| 0x40#32 })) ∧
      (s.fetchStop = none → ∀ r, f.decode = .error r → r ≠ .oddPair → r ≠ .stackMix →
        step s = (s0.finish (s0.afterFetch s0.illegal f.bytes) f.len).outcome ∧
        s0.illegal.seq.npc = s.seq.pc + BitVec.ofNat 24 (fullLen s.seq.pc) ∧
        s0.illegal.sys.irptl = s.sys.irptl ||| 0x10#32 ∧
        (s.posted = [] → s0.illegal.mmr.illopLocked = true ∧
          s0.illegal.mmr.illop = if s.mmr.illopLocked then s.mmr.illop
            else s.seq.pc.setWidth 32 ||| (if s.seq.interruptible then 0#32 else 0x1000000#32)))

/-- R510 to R674 and spec/95: a few words written out from the spec's encodings decode to the instructions they stand for. -/
def Obligations.DecodeWords : Prop :=
  decode 0x000000000000#48 = .ok .nop ∧
  decode 0x013E00001001#48 = .ok (.fixAdd 0 0 1) ∧
  decode 0x54FE02800000#48 = .ok (.loadUreg .true_ .none true false 2 3 false (.r 5)) ∧
  decode 0x68FE2B000000#48 = .ok (.storeDregImm .true_ .none false 4 true 5 6) ∧
  decode 0x703E36000000#48 = .ok (.moveUreg .true_ .none .px1 (.r 0)) ∧
  decode 0x06BE00090210#48 = .ok (.callDirect .true_ 0x90210 false) ∧
  decode 0x073E00FFFFFD#48 = .ok (.jumpPcRel .true_ 0xFFFFFD .none) ∧
  decode 0x0A3E00000000#48 = .ok (.rts .true_ false false false .none) ∧
  decode 0x0C0004000002#48 = .ok (.doCounterImm 4 2 false) ∧
  decode 0x1000000B8004#48 = .ok (.loadUregDirect false false (.r 0) 0xB8004) ∧
  decode 0xAB6F00000018#48 = .ok (.storeUregOffset false 5 false .tcount 0x18) ∧
  decode 0x0F0012345678#48 = .ok (.moveImm (.r 0) 0x12345678) ∧
  decode 0x140201000000#48 = .ok (.bitSet .mode1 0x01000000) ∧
  decode 0x180400090500#48 = .ok (.cjump 0x90500)

/-- R92, R93, R94, R322, R1204 and R1205: what reset leaves, and that the step after which a software reset falls due ends with
the core so, memory and the input pins kept. The PC's value is the product's choice (log 2). Also after a software reset, the values
of the alternate sets, TPERIOD, TCOUNT and BFF, which R94 and R1201 leave unspecified, are log 4, the zeros of the data, DAG, PX,
USTAT and MR registers log 5 (D12), the reset value of PFB_RANGE_SELECT log 51; the time of the reset is log 46. -/
def Obligations.ResetValues : Prop :=
  (State.reset.sys.mode1 = 0#32 ∧ State.reset.sys.mode2 = 0#32 ∧ State.reset.sys.astatx = 0#32 ∧ State.reset.sys.astaty = 0#32 ∧
    State.reset.sys.irptl = 0#32 ∧ State.reset.sys.imaskp = 0#32 ∧ State.reset.readU (.sys .stkyx) = 0x5400000#32 ∧
    State.reset.sys.stkyy = 0#32 ∧ State.reset.sys.mmask = 0x200000#32 ∧ State.reset.readU .pcstkp = 0#32 ∧
    State.reset.readU .curlcntr = 0xFFFFFFFF#32 ∧ State.reset.readU .laddr = 0xFFFFFFFF#32 ∧
    State.reset.seq.pc = Config.resetVector ∧ State.reset.simd = false ∧ State.reset.accept = none) ∧
  ∀ (s u : State) (f : Fetched) (i : Instr),
    s.accept = none → s.seq.idle = false → s.seq.srst = 1 → s.fetch s.seq.pc = some f → s.fetchStop = none →
    f.decode = .ok i → s.seq.loopStk = [] → exec i (s.begin f.len) = .next u → u.bdry.refused = none →
    ∃ t, step s = .next t ∧ t.data = State.reset.data ∧ t.dag = State.reset.dag ∧ t.seq = State.reset.seq ∧
      t.sys = { State.reset.sys with pins := u.sys.pins } ∧ t.mmr = State.reset.mmr ∧ t.posted = [] ∧ t.excl = none ∧ t.cache = State.reset.cache ∧
      ∀ p, t.mem.read p = u.mem.read p

/-- The three invariants hold right after reset: canonical memory, stacks within their depths, reserved bits 0. -/
def Obligations.ResetInvariants : Prop :=
  State.reset.mem.wf = true ∧ StackInv State.reset.seq ∧ ReservedZero State.reset.sys

/-- Every step keeps memory in its canonical form: addresses strictly rising, no entry equal to the unlisted byte. -/
def Obligations.StepKeepsMemoryCanonical : Prop :=
  ∀ s t : State, s.mem.wf = true → step s = .next t → t.mem.wf = true

/-- R63 to R74: every step keeps the stacks within their depths, and the loop stack and the free counter locations together
at six. -/
def Obligations.StepKeepsStacks : Prop :=
  ∀ s t : State, StackInv s.seq → step s = .next t → StackInv t.seq

/-- R130, R150, R165, R170, R190 and R210: every step keeps the reserved bits of the mode, status and
interrupt registers 0 (D13, log 9). -/
def Obligations.StepKeepsReservedBits : Prop :=
  ∀ s t : State, ReservedZero s.sys → step s = .next t → ReservedZero t.sys

/-- Every well-formed instruction, with every operand at every value, decodes from its own encoding (spec/30_encoding.md and the
encodings of files 40 to 49). -/
def Obligations.DecodeEncode : Prop := ∀ i : Instr, i.wellFormed = true → decodeCode (encode i) = .ok i

/-- R60, R564 and R568: outside loops an instruction that does not transfer control is followed by the one after it; a delayed
branch redirects control after its second delay slot: of the two steps that follow the branch, the first goes on to the next
instruction, the second to the target. -/
def Obligations.StepAdvances : Prop :=
  (∀ (s t : State) (f : Fetched) (i : Instr),
     s.accept = none → s.seq.idle = false → s.seq.srst ≠ 1 → s.fetch s.seq.pc = some f → s.fetchStop = none → f.decode = .ok i →
     s.seq.loopStk = [] → s.seq.branches = [] → s.seq.pcStkpNew = none →
     exec i (s.begin f.len) = .next t → t.bdry.taken = false → t.bdry.refused = none → t.bdry.loopFree = false →
     t.seq.idle = false → t.seq.branches = [] → t.seq.npc = (s.begin f.len).seq.npc → t.seq.pcStkpDue = none →
     ∃ u, step s = .next u ∧ u.seq.pc = s.seq.pc + BitVec.ofNat 24 f.len ∧ u.seq.loopStk = t.seq.loopStk ∧
       u.seq.pcStk = t.seq.pcStk ∧ u.seq.stsStk = t.seq.stsStk ∧ u.data = t.data ∧ u.dag = t.dag ∧ SameBytes t u ∧
       (u.bus = t.bus ∨ u.bus = .timerExpired :: t.bus)) ∧
  ∀ (s t : State) (f : Fetched) (i : Instr) (b : PendingBranch),
    s.accept = none → s.seq.idle = false → s.seq.srst ≠ 1 → s.fetch s.seq.pc = some f → s.fetchStop = none → f.decode = .ok i →
    s.seq.loopStk = [] → s.seq.branches = [b] → s.seq.pcStkpNew = none → s.seq.btbHold = 0 →
    exec i (s.begin f.len) = .next t → t.seq = (s.begin f.len).seq → t.bdry.refused = none → t.bdry.loopFree = false →
    ∃ u, step s = .next u ∧
      if b.slots ≤ 1 then u.seq.pc = b.target ∧ u.seq.branches = []
      else u.seq.pc = s.seq.pc + BitVec.ofNat 24 f.len ∧ u.seq.branches = [{ b with slots := b.slots - 1 }]

/-- R1150 to R1154 and D65: with UMODE, the breakpoint sets whose address or data range an instruction hits make an event of the
groups that BRKCTL enables; it counts EMUN down or, at 0, is recorded in BRKSTAT and raises BKPI. An access to plain memory hits the
data sets of its bus whose range holds its address and whose mode takes it. That mode bit 0 takes stores and mode bit 1 loads is the
model's choice (log 8; the codes are the parameter D56), the negate bit on an empty range is D57, EMUN at 0 D58, both in log 39. -/
def Obligations.Breakpoints : Prop :=
  (∀ (s u : State) (f : Fetched) (i : Instr) (t : State),
     s.accept = none → s.seq.idle = false → s.seq.srst ≠ 1 → s.fetch s.seq.pc = some f → s.fetchStop = none → f.decode = .ok i →
     exec i (s.begin f.len) = .next t → step s = .next u → s.posted = [] → t.posted = [] →
     let on := fun k : Nat => s.mmr.brkctl.getLsbD k
     let hit := fun (n : Fin 4) =>
       let a := s.mmr.iaStart[n].toNat
       let b := s.mmr.iaEnd[n].toNat
       decide (a ≤ b) && (on (13 + n) != decide (a ≤ s.seq.pc.toNat ∧ s.seq.pc.toNat ≤ b))
     let groups := [(21, hit 0 || hit 1 || hit 2 || hit 3), (20, t.bdry.hits.getLsbD 1 || t.bdry.hits.getLsbD 2),
       (19, t.bdry.hits.getLsbD 0)].filter fun g => on g.1
     let event := on 25 && !groups.isEmpty && (if on 24 then groups.all (·.2) else groups.any (·.2))
     let bits : Word := flagBit 3 (hit 0) ||| flagBit 4 (hit 1) ||| flagBit 5 (hit 2) ||| flagBit 6 (hit 3) |||
       t.bdry.hits.setWidth 32
     (event = false → u.mmr.emun = t.mmr.emun ∧ u.mmr.brkstat = t.mmr.brkstat) ∧
     (event = true → t.mmr.emun ≠ 0#32 → u.mmr.emun = t.mmr.emun - 1#32 ∧ u.mmr.brkstat = t.mmr.brkstat) ∧
     (event = true → t.mmr.emun = 0#32 → u.mmr.emun = 0#32 ∧ u.mmr.brkstat = t.mmr.brkstat ||| bits ∧
       u.sys.irptl.getLsbD 12 = !t.sys.imaskp.getLsbD 12)) ∧
  ∀ (s : State) (pm store : Bool) (u : UReg) (addr : Word) (p : Nat),
    OrdinaryWord s addr p → s.simd = false → u ≠ .px → s.posted = [] →
    let on := fun k : Nat => s.mmr.brkctl.getLsbD k
    let sig := fun (mode neg : Nat) (a b : Word) =>
      on (if store then mode else mode + 1) && decide (a.toNat ≤ b.toNat) &&
        (on neg != decide (a.toNat ≤ addr.toNat ∧ addr.toNat ≤ b.toNat))
    Completes (if store then .storeUregDirect pm false u addr else .loadUregDirect pm false u addr) s fun t =>
      t.bdry.hits.getLsbD 0 = (s.bdry.hits.getLsbD 0 || (pm && sig 0 10 s.mmr.paStart s.mmr.paEnd)) ∧
      t.bdry.hits.getLsbD 1 = (s.bdry.hits.getLsbD 1 || (!pm && sig 2 11 s.mmr.daStart[0] s.mmr.daEnd[0])) ∧
      t.bdry.hits.getLsbD 2 = (s.bdry.hits.getLsbD 2 || (!pm && sig 4 12 s.mmr.daStart[1] s.mmr.daEnd[1]))

/-- R63, R66, R72, R74, R1038, R1045 to R1047, R1049, R1051, R1054, R1055 and R1081: when an interrupt is accepted the step saves the
PC, marked ISCALL and ISINT, and MODE1 and the arithmetic status, on nearly full or full stacks latching SOVFI, clears the MODE1 bits of MMASK, moves the latch bit to IMASKP and
goes to the vector; SECI that self-nests sets SINEST; after a parity error of a core access the saved PC is open. One is accepted
only if it is latched, enabled in IMASK, IRPTEN is set, none is in service or nesting lets it through, and no delayed branch is
under way; of several the one with the lowest number; the masks may be those of one boundary ago. One that is so is accepted. An
arithmetic interrupt is latched at every step as long as its sticky bit is set. The marks of the saved PC and the recognition one
step after latching are the model's reading (log 31, log 34); that a full PC stack keeps its entries and the top of a full status
stack is open is its choice (log 22), so is the open address after a parity error (log 63). -/
def Obligations.Interrupts : Prop :=
  (∀ (s : State) (k : Nat) (base : IAddr),
     s.accept = some k → s.ivtBase = .ok base → s.seq.pcStkpDue = none → s.seq.pcStkpNew = none →
     ∃ (t : State) (ret : IAddr), step s = .next t ∧ t.seq.pc = base + BitVec.ofNat 24 (4 * k) ∧
       (s.sys.parity = false ∨ k ≠ 3 → ret = s.seq.pc) ∧
       t.seq.pcStk = (s.seq.pushed (ret.setWidth 32 ||| 0x3000000#32)).pcStk ∧
       t.seq.pcOv = (s.seq.pushed (ret.setWidth 32 ||| 0x3000000#32)).pcOv ∧
       (s.seq.stsStk.length < 15 → t.seq.stsOv = s.seq.stsOv ∧
         t.seq.stsStk = { mode1 := s.sys.mode1, astatx := s.astatx, astaty := s.sys.astaty } :: s.seq.stsStk) ∧
       (15 ≤ s.seq.stsStk.length → t.seq.stsOv = true ∧ ∃ e, t.seq.stsStk = e :: s.seq.stsStk.tail) ∧
       (s.seq.pcOv = true ∨ 28 ≤ s.seq.pcStk.length ∨ 15 ≤ s.seq.stsStk.length →
         k = 7 ∨ s.sys.imaskp.getLsbD 7 = true ∨ t.sys.irptl.getLsbD 7 = true) ∧
       t.sys.mode1 = (s.sys.mode1 &&& ~~~s.sys.mmask) |||
         (if k = 15 ∧ s.sys.mode2.getLsbD 0 = true then 0x40000000#32 else 0#32) ∧
       t.sys.mode1Act = t.sys.mode1 ∧
       t.sys.imaskp = s.sys.imaskp ||| (1#32 <<< k) ∧ t.sys.irptl.getLsbD k = false ∧ t.seq.idle = false ∧
       t.seq.branches = [] ∧ t.data = s.data ∧ t.dag = s.dag ∧ t.seq.loopStk = s.seq.loopStk ∧ t.sys.astatx = s.sys.astatx ∧
       t.sys.astaty = s.sys.astaty ∧ SameBytes s t ∧
       (t.bus = s.bus ∨ t.bus = .timerExpired :: s.bus) ∧ t.posted = s.posted) ∧
  (∀ (s : State) (k : Nat), s.accept = some k →
     let m := s.masks
     (m.imask = s.sys.imask ∨ m.imask = s.sys.imaskWas) ∧
     (m.irpten = s.sys.mode1.getLsbD 12 ∨ m.irpten = s.sys.mode1Act.getLsbD 12) ∧
     (m.nestm = s.sys.mode1.getLsbD 11 ∨ m.nestm = s.sys.mode1Act.getLsbD 11) ∧
     (m.snen = s.sys.mode2.getLsbD 0 ∨ m.snen = s.sys.mode2Was.getLsbD 0) ∧
     m.irpten = true ∧ s.sys.irptl.getLsbD k = true ∧ s.sys.irptlSeen.getLsbD k = true ∧ m.imask.getLsbD k = true ∧
     ((s.seq.branches = [] ∧ s.seq.noIrq = 0 ∧ s.seq.vectorDue = false) ∨ (s.sys.parity = true ∧ k = 3)) ∧
     (∀ p, Lowest s.sys.imaskp p → m.nestm = true ∧ if m.snen = true ∧ p = 15 then k ≤ 15 else k < p) ∧
     ∀ j, j < k → s.sys.irptl.getLsbD j = true → s.sys.irptlSeen.getLsbD j = true → m.imask.getLsbD j = true →
       s.sys.tmask m.nestm m.snen j = true) ∧
  (∀ (s : State) (k : Nat), s.masks.irpten = true → s.sys.irptl.getLsbD k = true → s.sys.irptlSeen.getLsbD k = true →
     s.masks.imask.getLsbD k = true → s.seq.branches = [] → s.seq.noIrq = 0 → s.seq.vectorDue = false → s.sys.imaskp = 0#32 →
     (∀ j, j < k → s.sys.irptl.getLsbD j = false) → s.accept = some k) ∧
  ∀ (s u t : State) (len : Nat), s.finish u len = .ok t → s.seq.srst ≠ 1 →
    ∀ x ∈ [(23, 2, 6), (24, 1, 7), (25, 0, 8), (26, 5, 9)],
      let sticky := u.sys.stkyx ||| u.sys.stkyy
      t.sys.irptl.getLsbD x.1 =
        (!u.sys.imaskp.getLsbD x.1 && (u.sys.irptl.getLsbD x.1 || sticky.getLsbD x.2.1 || sticky.getLsbD x.2.2))
end

