-- ==== Sys2Proof/Laws/State.lean ====
section
/-! SUPPORT. What each update of the state leaves alone: one lemma per field per update, for simp. -/

namespace Sys2Proof.Machine

open Sys2Proof

/-! ### Data and address registers -/

@[simp] theorem State.setDreg_dag (s : State) (y : Bool) (n : RegNo) (v : Reg40) : (s.setDreg y n v).dag = s.dag := by
  unfold State.setDreg; (repeat' split) <;> rfl

@[simp] theorem State.setDreg_seq (s : State) (y : Bool) (n : RegNo) (v : Reg40) : (s.setDreg y n v).seq = s.seq := by
  unfold State.setDreg; (repeat' split) <;> rfl

@[simp] theorem State.setDreg_sys (s : State) (y : Bool) (n : RegNo) (v : Reg40) : (s.setDreg y n v).sys = s.sys := by
  unfold State.setDreg; (repeat' split) <;> rfl

@[simp] theorem State.setDreg_mmr (s : State) (y : Bool) (n : RegNo) (v : Reg40) : (s.setDreg y n v).mmr = s.mmr := by
  unfold State.setDreg; (repeat' split) <;> rfl

@[simp] theorem State.setDreg_posted (s : State) (y : Bool) (n : RegNo) (v : Reg40) : (s.setDreg y n v).posted = s.posted := by
  unfold State.setDreg; (repeat' split) <;> rfl

@[simp] theorem State.setDreg_mem (s : State) (y : Bool) (n : RegNo) (v : Reg40) : (s.setDreg y n v).mem = s.mem := by
  unfold State.setDreg; (repeat' split) <;> rfl

@[simp] theorem State.setDreg_excl (s : State) (y : Bool) (n : RegNo) (v : Reg40) : (s.setDreg y n v).excl = s.excl := by
  unfold State.setDreg; (repeat' split) <;> rfl

@[simp] theorem State.setDreg_bus (s : State) (y : Bool) (n : RegNo) (v : Reg40) : (s.setDreg y n v).bus = s.bus := by
  unfold State.setDreg; (repeat' split) <;> rfl

@[simp] theorem State.setDreg_cache (s : State) (y : Bool) (n : RegNo) (v : Reg40) : (s.setDreg y n v).cache = s.cache := by
  unfold State.setDreg; (repeat' split) <;> rfl

@[simp] theorem State.setDreg_bdry (s : State) (y : Bool) (n : RegNo) (v : Reg40) : (s.setDreg y n v).bdry = s.bdry := by
  unfold State.setDreg; (repeat' split) <;> rfl

@[simp] theorem State.setDreg_free (s : State) (y : Bool) (n : RegNo) (v : Reg40) : (s.setDreg y n v).free = s.free := by
  unfold State.setDreg; (repeat' split) <;> rfl

@[simp] theorem State.setI_data (s : State) (n : RegNo) (v : Word) : (s.setI n v).data = s.data := by
  unfold State.setI; split <;> rfl

@[simp] theorem State.setI_seq (s : State) (n : RegNo) (v : Word) : (s.setI n v).seq = s.seq := by
  unfold State.setI; split <;> rfl

@[simp] theorem State.setI_sys (s : State) (n : RegNo) (v : Word) : (s.setI n v).sys = s.sys := by
  unfold State.setI; split <;> rfl

@[simp] theorem State.setI_mmr (s : State) (n : RegNo) (v : Word) : (s.setI n v).mmr = s.mmr := by
  unfold State.setI; split <;> rfl

@[simp] theorem State.setI_posted (s : State) (n : RegNo) (v : Word) : (s.setI n v).posted = s.posted := by
  unfold State.setI; split <;> rfl

@[simp] theorem State.setI_mem (s : State) (n : RegNo) (v : Word) : (s.setI n v).mem = s.mem := by
  unfold State.setI; split <;> rfl

@[simp] theorem State.setI_excl (s : State) (n : RegNo) (v : Word) : (s.setI n v).excl = s.excl := by
  unfold State.setI; split <;> rfl

@[simp] theorem State.setI_bus (s : State) (n : RegNo) (v : Word) : (s.setI n v).bus = s.bus := by
  unfold State.setI; split <;> rfl

@[simp] theorem State.setI_cache (s : State) (n : RegNo) (v : Word) : (s.setI n v).cache = s.cache := by
  unfold State.setI; split <;> rfl

@[simp] theorem State.setI_bdry (s : State) (n : RegNo) (v : Word) : (s.setI n v).bdry = s.bdry := by
  unfold State.setI; split <;> rfl

@[simp] theorem State.setI_free (s : State) (n : RegNo) (v : Word) : (s.setI n v).free = s.free := by
  unfold State.setI; split <;> rfl

@[simp] theorem State.setM_data (s : State) (n : RegNo) (v : Word) : (s.setM n v).data = s.data := by
  unfold State.setM; split <;> rfl

@[simp] theorem State.setM_seq (s : State) (n : RegNo) (v : Word) : (s.setM n v).seq = s.seq := by
  unfold State.setM; split <;> rfl

@[simp] theorem State.setM_sys (s : State) (n : RegNo) (v : Word) : (s.setM n v).sys = s.sys := by
  unfold State.setM; split <;> rfl

@[simp] theorem State.setM_mmr (s : State) (n : RegNo) (v : Word) : (s.setM n v).mmr = s.mmr := by
  unfold State.setM; split <;> rfl

@[simp] theorem State.setM_posted (s : State) (n : RegNo) (v : Word) : (s.setM n v).posted = s.posted := by
  unfold State.setM; split <;> rfl

@[simp] theorem State.setM_mem (s : State) (n : RegNo) (v : Word) : (s.setM n v).mem = s.mem := by
  unfold State.setM; split <;> rfl

@[simp] theorem State.setM_excl (s : State) (n : RegNo) (v : Word) : (s.setM n v).excl = s.excl := by
  unfold State.setM; split <;> rfl

@[simp] theorem State.setM_bus (s : State) (n : RegNo) (v : Word) : (s.setM n v).bus = s.bus := by
  unfold State.setM; split <;> rfl

@[simp] theorem State.setM_cache (s : State) (n : RegNo) (v : Word) : (s.setM n v).cache = s.cache := by
  unfold State.setM; split <;> rfl

@[simp] theorem State.setM_bdry (s : State) (n : RegNo) (v : Word) : (s.setM n v).bdry = s.bdry := by
  unfold State.setM; split <;> rfl

@[simp] theorem State.setM_free (s : State) (n : RegNo) (v : Word) : (s.setM n v).free = s.free := by
  unfold State.setM; split <;> rfl

@[simp] theorem State.setL_data (s : State) (n : RegNo) (v : Word) : (s.setL n v).data = s.data := by
  unfold State.setL; split <;> rfl

@[simp] theorem State.setL_seq (s : State) (n : RegNo) (v : Word) : (s.setL n v).seq = s.seq := by
  unfold State.setL; split <;> rfl

@[simp] theorem State.setL_sys (s : State) (n : RegNo) (v : Word) : (s.setL n v).sys = s.sys := by
  unfold State.setL; split <;> rfl

@[simp] theorem State.setL_mmr (s : State) (n : RegNo) (v : Word) : (s.setL n v).mmr = s.mmr := by
  unfold State.setL; split <;> rfl

@[simp] theorem State.setL_posted (s : State) (n : RegNo) (v : Word) : (s.setL n v).posted = s.posted := by
  unfold State.setL; split <;> rfl

@[simp] theorem State.setL_mem (s : State) (n : RegNo) (v : Word) : (s.setL n v).mem = s.mem := by
  unfold State.setL; split <;> rfl

@[simp] theorem State.setL_excl (s : State) (n : RegNo) (v : Word) : (s.setL n v).excl = s.excl := by
  unfold State.setL; split <;> rfl

@[simp] theorem State.setL_bus (s : State) (n : RegNo) (v : Word) : (s.setL n v).bus = s.bus := by
  unfold State.setL; split <;> rfl

@[simp] theorem State.setL_cache (s : State) (n : RegNo) (v : Word) : (s.setL n v).cache = s.cache := by
  unfold State.setL; split <;> rfl

@[simp] theorem State.setL_bdry (s : State) (n : RegNo) (v : Word) : (s.setL n v).bdry = s.bdry := by
  unfold State.setL; split <;> rfl

@[simp] theorem State.setL_free (s : State) (n : RegNo) (v : Word) : (s.setL n v).free = s.free := by
  unfold State.setL; split <;> rfl

@[simp] theorem State.setBOnly_data (s : State) (n : RegNo) (v : Word) : (s.setBOnly n v).data = s.data := by
  unfold State.setBOnly; split <;> rfl

@[simp] theorem State.setBOnly_seq (s : State) (n : RegNo) (v : Word) : (s.setBOnly n v).seq = s.seq := by
  unfold State.setBOnly; split <;> rfl

@[simp] theorem State.setBOnly_sys (s : State) (n : RegNo) (v : Word) : (s.setBOnly n v).sys = s.sys := by
  unfold State.setBOnly; split <;> rfl

@[simp] theorem State.setBOnly_mmr (s : State) (n : RegNo) (v : Word) : (s.setBOnly n v).mmr = s.mmr := by
  unfold State.setBOnly; split <;> rfl

@[simp] theorem State.setBOnly_posted (s : State) (n : RegNo) (v : Word) : (s.setBOnly n v).posted = s.posted := by
  unfold State.setBOnly; split <;> rfl

@[simp] theorem State.setBOnly_mem (s : State) (n : RegNo) (v : Word) : (s.setBOnly n v).mem = s.mem := by
  unfold State.setBOnly; split <;> rfl

@[simp] theorem State.setBOnly_excl (s : State) (n : RegNo) (v : Word) : (s.setBOnly n v).excl = s.excl := by
  unfold State.setBOnly; split <;> rfl

@[simp] theorem State.setBOnly_bus (s : State) (n : RegNo) (v : Word) : (s.setBOnly n v).bus = s.bus := by
  unfold State.setBOnly; split <;> rfl

@[simp] theorem State.setBOnly_cache (s : State) (n : RegNo) (v : Word) : (s.setBOnly n v).cache = s.cache := by
  unfold State.setBOnly; split <;> rfl

@[simp] theorem State.setBOnly_bdry (s : State) (n : RegNo) (v : Word) : (s.setBOnly n v).bdry = s.bdry := by
  unfold State.setBOnly; split <;> rfl

@[simp] theorem State.setBOnly_free (s : State) (n : RegNo) (v : Word) : (s.setBOnly n v).free = s.free := by
  unfold State.setBOnly; split <;> rfl

@[simp] theorem State.setB_data (s : State) (n : RegNo) (v : Word) : (s.setB n v).data = s.data := by
  unfold State.setB; simp

@[simp] theorem State.setB_seq (s : State) (n : RegNo) (v : Word) : (s.setB n v).seq = s.seq := by
  unfold State.setB; simp

@[simp] theorem State.setB_sys (s : State) (n : RegNo) (v : Word) : (s.setB n v).sys = s.sys := by
  unfold State.setB; simp

@[simp] theorem State.setB_mmr (s : State) (n : RegNo) (v : Word) : (s.setB n v).mmr = s.mmr := by
  unfold State.setB; simp

@[simp] theorem State.setB_posted (s : State) (n : RegNo) (v : Word) : (s.setB n v).posted = s.posted := by
  unfold State.setB; simp

@[simp] theorem State.setB_mem (s : State) (n : RegNo) (v : Word) : (s.setB n v).mem = s.mem := by
  unfold State.setB; simp

@[simp] theorem State.setB_excl (s : State) (n : RegNo) (v : Word) : (s.setB n v).excl = s.excl := by
  unfold State.setB; simp

@[simp] theorem State.setB_bus (s : State) (n : RegNo) (v : Word) : (s.setB n v).bus = s.bus := by
  unfold State.setB; simp

@[simp] theorem State.setB_cache (s : State) (n : RegNo) (v : Word) : (s.setB n v).cache = s.cache := by
  unfold State.setB; simp

@[simp] theorem State.setB_bdry (s : State) (n : RegNo) (v : Word) : (s.setB n v).bdry = s.bdry := by
  unfold State.setB; simp

@[simp] theorem State.setB_free (s : State) (n : RegNo) (v : Word) : (s.setB n v).free = s.free := by
  unfold State.setB; simp

/-! ### System and universal registers -/

@[simp] theorem State.writeSys_data (s : State) (r : SysReg) (v : Word) : (s.writeSys r v).data = s.data := by
  unfold State.writeSys; split <;> rfl

@[simp] theorem State.writeSys_dag (s : State) (r : SysReg) (v : Word) : (s.writeSys r v).dag = s.dag := by
  unfold State.writeSys; split <;> rfl

@[simp] theorem State.writeSys_mmr (s : State) (r : SysReg) (v : Word) : (s.writeSys r v).mmr = s.mmr := by
  unfold State.writeSys; split <;> rfl

@[simp] theorem State.writeSys_posted (s : State) (r : SysReg) (v : Word) : (s.writeSys r v).posted = s.posted := by
  unfold State.writeSys; split <;> rfl

@[simp] theorem State.writeSys_mem (s : State) (r : SysReg) (v : Word) : (s.writeSys r v).mem = s.mem := by
  unfold State.writeSys; split <;> rfl

@[simp] theorem State.writeSys_excl (s : State) (r : SysReg) (v : Word) : (s.writeSys r v).excl = s.excl := by
  unfold State.writeSys; split <;> rfl

@[simp] theorem State.writeSys_bus (s : State) (r : SysReg) (v : Word) : (s.writeSys r v).bus = s.bus := by
  unfold State.writeSys; split <;> rfl

@[simp] theorem State.writeSys_cache (s : State) (r : SysReg) (v : Word) : (s.writeSys r v).cache = s.cache := by
  unfold State.writeSys; split <;> rfl

@[simp] theorem State.writeSys_free (s : State) (r : SysReg) (v : Word) : (s.writeSys r v).free = s.free := by
  unfold State.writeSys; split <;> rfl

@[simp] theorem State.guarded_data (s : State) (q : Seq) (r : Option Refusal) : (s.guarded q r).data = s.data := by
  unfold State.guarded; split <;> rfl

@[simp] theorem State.guarded_dag (s : State) (q : Seq) (r : Option Refusal) : (s.guarded q r).dag = s.dag := by
  unfold State.guarded; split <;> rfl

@[simp] theorem State.guarded_sys (s : State) (q : Seq) (r : Option Refusal) : (s.guarded q r).sys = s.sys := by
  unfold State.guarded; split <;> rfl

@[simp] theorem State.guarded_mmr (s : State) (q : Seq) (r : Option Refusal) : (s.guarded q r).mmr = s.mmr := by
  unfold State.guarded; split <;> rfl

@[simp] theorem State.guarded_posted (s : State) (q : Seq) (r : Option Refusal) : (s.guarded q r).posted = s.posted := by
  unfold State.guarded; split <;> rfl

@[simp] theorem State.guarded_mem (s : State) (q : Seq) (r : Option Refusal) : (s.guarded q r).mem = s.mem := by
  unfold State.guarded; split <;> rfl

@[simp] theorem State.guarded_excl (s : State) (q : Seq) (r : Option Refusal) : (s.guarded q r).excl = s.excl := by
  unfold State.guarded; split <;> rfl

@[simp] theorem State.guarded_bus (s : State) (q : Seq) (r : Option Refusal) : (s.guarded q r).bus = s.bus := by
  unfold State.guarded; split <;> rfl

@[simp] theorem State.guarded_cache (s : State) (q : Seq) (r : Option Refusal) : (s.guarded q r).cache = s.cache := by
  unfold State.guarded; split <;> rfl

@[simp] theorem State.guarded_free (s : State) (q : Seq) (r : Option Refusal) : (s.guarded q r).free = s.free := by
  unfold State.guarded; split <;> rfl

@[simp] theorem State.writeU_mmr (s : State) (u : UReg) (v : Word) : (s.writeU u v).mmr = s.mmr := by
  cases u <;> simp [State.writeU]

@[simp] theorem State.writeU_posted (s : State) (u : UReg) (v : Word) : (s.writeU u v).posted = s.posted := by
  cases u <;> simp [State.writeU]

@[simp] theorem State.writeU_mem (s : State) (u : UReg) (v : Word) : (s.writeU u v).mem = s.mem := by
  cases u <;> simp [State.writeU]

@[simp] theorem State.writeU_excl (s : State) (u : UReg) (v : Word) : (s.writeU u v).excl = s.excl := by
  cases u <;> simp [State.writeU]

@[simp] theorem State.writeU_bus (s : State) (u : UReg) (v : Word) : (s.writeU u v).bus = s.bus := by
  cases u <;> simp [State.writeU]

@[simp] theorem State.writeU_cache (s : State) (u : UReg) (v : Word) : (s.writeU u v).cache = s.cache := by
  cases u <;> simp [State.writeU]

@[simp] theorem State.writeU_free (s : State) (u : UReg) (v : Word) : (s.writeU u v).free = s.free := by
  cases u <;> simp [State.writeU]

@[simp] theorem State.writeVal_mmr (s : State) (u : UReg) (x : RegVal) : (s.writeVal u x).mmr = s.mmr := by
  unfold State.writeVal; split <;> simp

@[simp] theorem State.writeVal_posted (s : State) (u : UReg) (x : RegVal) : (s.writeVal u x).posted = s.posted := by
  unfold State.writeVal; split <;> simp

@[simp] theorem State.writeVal_mem (s : State) (u : UReg) (x : RegVal) : (s.writeVal u x).mem = s.mem := by
  unfold State.writeVal; split <;> simp

@[simp] theorem State.writeVal_excl (s : State) (u : UReg) (x : RegVal) : (s.writeVal u x).excl = s.excl := by
  unfold State.writeVal; split <;> simp

@[simp] theorem State.writeVal_bus (s : State) (u : UReg) (x : RegVal) : (s.writeVal u x).bus = s.bus := by
  unfold State.writeVal; split <;> simp

@[simp] theorem State.writeVal_cache (s : State) (u : UReg) (x : RegVal) : (s.writeVal u x).cache = s.cache := by
  unfold State.writeVal; split <;> simp

@[simp] theorem State.writeVal_free (s : State) (u : UReg) (x : RegVal) : (s.writeVal u x).free = s.free := by
  unfold State.writeVal; split <;> simp

/-! ### Latches -/

@[simp] theorem State.raise_data (s : State) (k : Irq) : (s.raise k).data = s.data := rfl

@[simp] theorem State.raise_dag (s : State) (k : Irq) : (s.raise k).dag = s.dag := rfl

@[simp] theorem State.raise_seq (s : State) (k : Irq) : (s.raise k).seq = s.seq := rfl

@[simp] theorem State.raise_mmr (s : State) (k : Irq) : (s.raise k).mmr = s.mmr := rfl

@[simp] theorem State.raise_posted (s : State) (k : Irq) : (s.raise k).posted = s.posted := rfl

@[simp] theorem State.raise_mem (s : State) (k : Irq) : (s.raise k).mem = s.mem := rfl

@[simp] theorem State.raise_excl (s : State) (k : Irq) : (s.raise k).excl = s.excl := rfl

@[simp] theorem State.raise_bus (s : State) (k : Irq) : (s.raise k).bus = s.bus := rfl

@[simp] theorem State.raise_cache (s : State) (k : Irq) : (s.raise k).cache = s.cache := rfl

@[simp] theorem State.raise_bdry (s : State) (k : Irq) : (s.raise k).bdry = s.bdry := rfl

@[simp] theorem State.raise_free (s : State) (k : Irq) : (s.raise k).free = s.free := rfl

@[simp] theorem State.raiseIf_data (s : State) (b : Bool) (k : Irq) : (s.raiseIf b k).data = s.data := by
  unfold State.raiseIf; split <;> rfl

@[simp] theorem State.raiseIf_dag (s : State) (b : Bool) (k : Irq) : (s.raiseIf b k).dag = s.dag := by
  unfold State.raiseIf; split <;> rfl

@[simp] theorem State.raiseIf_seq (s : State) (b : Bool) (k : Irq) : (s.raiseIf b k).seq = s.seq := by
  unfold State.raiseIf; split <;> rfl

@[simp] theorem State.raiseIf_mmr (s : State) (b : Bool) (k : Irq) : (s.raiseIf b k).mmr = s.mmr := by
  unfold State.raiseIf; split <;> rfl

@[simp] theorem State.raiseIf_posted (s : State) (b : Bool) (k : Irq) : (s.raiseIf b k).posted = s.posted := by
  unfold State.raiseIf; split <;> rfl

@[simp] theorem State.raiseIf_mem (s : State) (b : Bool) (k : Irq) : (s.raiseIf b k).mem = s.mem := by
  unfold State.raiseIf; split <;> rfl

@[simp] theorem State.raiseIf_excl (s : State) (b : Bool) (k : Irq) : (s.raiseIf b k).excl = s.excl := by
  unfold State.raiseIf; split <;> rfl

@[simp] theorem State.raiseIf_bus (s : State) (b : Bool) (k : Irq) : (s.raiseIf b k).bus = s.bus := by
  unfold State.raiseIf; split <;> rfl

@[simp] theorem State.raiseIf_cache (s : State) (b : Bool) (k : Irq) : (s.raiseIf b k).cache = s.cache := by
  unfold State.raiseIf; split <;> rfl

@[simp] theorem State.raiseIf_bdry (s : State) (b : Bool) (k : Irq) : (s.raiseIf b k).bdry = s.bdry := by
  unfold State.raiseIf; split <;> rfl

@[simp] theorem State.raiseIf_free (s : State) (b : Bool) (k : Irq) : (s.raiseIf b k).free = s.free := by
  unfold State.raiseIf; split <;> rfl

@[simp] theorem State.stick_data (s : State) (i : Nat) : (s.stick i).data = s.data := rfl

@[simp] theorem State.stick_dag (s : State) (i : Nat) : (s.stick i).dag = s.dag := rfl

@[simp] theorem State.stick_seq (s : State) (i : Nat) : (s.stick i).seq = s.seq := rfl

@[simp] theorem State.stick_mmr (s : State) (i : Nat) : (s.stick i).mmr = s.mmr := rfl

@[simp] theorem State.stick_posted (s : State) (i : Nat) : (s.stick i).posted = s.posted := rfl

@[simp] theorem State.stick_mem (s : State) (i : Nat) : (s.stick i).mem = s.mem := rfl

@[simp] theorem State.stick_excl (s : State) (i : Nat) : (s.stick i).excl = s.excl := rfl

@[simp] theorem State.stick_bus (s : State) (i : Nat) : (s.stick i).bus = s.bus := rfl

@[simp] theorem State.stick_cache (s : State) (i : Nat) : (s.stick i).cache = s.cache := rfl

@[simp] theorem State.stick_bdry (s : State) (i : Nat) : (s.stick i).bdry = s.bdry := rfl

@[simp] theorem State.stick_free (s : State) (i : Nat) : (s.stick i).free = s.free := rfl

/-! ### Computations -/

@[simp] theorem State.applyFlags_data (s : State) (y : Bool) (o : PeOut) : (s.applyFlags y o).data = s.data := by
  unfold State.applyFlags; split <;> rfl

@[simp] theorem State.applyFlags_dag (s : State) (y : Bool) (o : PeOut) : (s.applyFlags y o).dag = s.dag := by
  unfold State.applyFlags; split <;> rfl

@[simp] theorem State.applyFlags_seq (s : State) (y : Bool) (o : PeOut) : (s.applyFlags y o).seq = s.seq := by
  unfold State.applyFlags; split <;> rfl

@[simp] theorem State.applyFlags_mmr (s : State) (y : Bool) (o : PeOut) : (s.applyFlags y o).mmr = s.mmr := by
  unfold State.applyFlags; split <;> rfl

@[simp] theorem State.applyFlags_posted (s : State) (y : Bool) (o : PeOut) : (s.applyFlags y o).posted = s.posted := by
  unfold State.applyFlags; split <;> rfl

@[simp] theorem State.applyFlags_mem (s : State) (y : Bool) (o : PeOut) : (s.applyFlags y o).mem = s.mem := by
  unfold State.applyFlags; split <;> rfl

@[simp] theorem State.applyFlags_excl (s : State) (y : Bool) (o : PeOut) : (s.applyFlags y o).excl = s.excl := by
  unfold State.applyFlags; split <;> rfl

@[simp] theorem State.applyFlags_bus (s : State) (y : Bool) (o : PeOut) : (s.applyFlags y o).bus = s.bus := by
  unfold State.applyFlags; split <;> rfl

@[simp] theorem State.applyFlags_cache (s : State) (y : Bool) (o : PeOut) : (s.applyFlags y o).cache = s.cache := by
  unfold State.applyFlags; split <;> rfl

@[simp] theorem State.applyFlags_bdry (s : State) (y : Bool) (o : PeOut) : (s.applyFlags y o).bdry = s.bdry := by
  unfold State.applyFlags; split <;> rfl

@[simp] theorem State.applyFlags_free (s : State) (y : Bool) (o : PeOut) : (s.applyFlags y o).free = s.free := by
  unfold State.applyFlags; split <;> rfl

@[simp] theorem State.applyMr_dag (s : State) (y : Bool) (o : PeOut) : (s.applyMr y o).dag = s.dag := by
  unfold State.applyMr; split <;> rfl

@[simp] theorem State.applyMr_seq (s : State) (y : Bool) (o : PeOut) : (s.applyMr y o).seq = s.seq := by
  unfold State.applyMr; split <;> rfl

@[simp] theorem State.applyMr_sys (s : State) (y : Bool) (o : PeOut) : (s.applyMr y o).sys = s.sys := by
  unfold State.applyMr; split <;> rfl

@[simp] theorem State.applyMr_mmr (s : State) (y : Bool) (o : PeOut) : (s.applyMr y o).mmr = s.mmr := by
  unfold State.applyMr; split <;> rfl

@[simp] theorem State.applyMr_posted (s : State) (y : Bool) (o : PeOut) : (s.applyMr y o).posted = s.posted := by
  unfold State.applyMr; split <;> rfl

@[simp] theorem State.applyMr_mem (s : State) (y : Bool) (o : PeOut) : (s.applyMr y o).mem = s.mem := by
  unfold State.applyMr; split <;> rfl

@[simp] theorem State.applyMr_excl (s : State) (y : Bool) (o : PeOut) : (s.applyMr y o).excl = s.excl := by
  unfold State.applyMr; split <;> rfl

@[simp] theorem State.applyMr_bus (s : State) (y : Bool) (o : PeOut) : (s.applyMr y o).bus = s.bus := by
  unfold State.applyMr; split <;> rfl

@[simp] theorem State.applyMr_cache (s : State) (y : Bool) (o : PeOut) : (s.applyMr y o).cache = s.cache := by
  unfold State.applyMr; split <;> rfl

@[simp] theorem State.applyMr_bdry (s : State) (y : Bool) (o : PeOut) : (s.applyMr y o).bdry = s.bdry := by
  unfold State.applyMr; split <;> rfl

@[simp] theorem State.applyMr_free (s : State) (y : Bool) (o : PeOut) : (s.applyMr y o).free = s.free := by
  unfold State.applyMr; split <;> rfl

@[simp] theorem State.applyFifo_dag (s : State) (o : PeOut) : (s.applyFifo o).dag = s.dag := by
  unfold State.applyFifo; split <;> rfl

@[simp] theorem State.applyFifo_seq (s : State) (o : PeOut) : (s.applyFifo o).seq = s.seq := by
  unfold State.applyFifo; split <;> rfl

@[simp] theorem State.applyFifo_sys (s : State) (o : PeOut) : (s.applyFifo o).sys = s.sys := by
  unfold State.applyFifo; split <;> rfl

@[simp] theorem State.applyFifo_mmr (s : State) (o : PeOut) : (s.applyFifo o).mmr = s.mmr := by
  unfold State.applyFifo; split <;> rfl

@[simp] theorem State.applyFifo_posted (s : State) (o : PeOut) : (s.applyFifo o).posted = s.posted := by
  unfold State.applyFifo; split <;> rfl

@[simp] theorem State.applyFifo_mem (s : State) (o : PeOut) : (s.applyFifo o).mem = s.mem := by
  unfold State.applyFifo; split <;> rfl

@[simp] theorem State.applyFifo_excl (s : State) (o : PeOut) : (s.applyFifo o).excl = s.excl := by
  unfold State.applyFifo; split <;> rfl

@[simp] theorem State.applyFifo_bus (s : State) (o : PeOut) : (s.applyFifo o).bus = s.bus := by
  unfold State.applyFifo; split <;> rfl

@[simp] theorem State.applyFifo_cache (s : State) (o : PeOut) : (s.applyFifo o).cache = s.cache := by
  unfold State.applyFifo; split <;> rfl

@[simp] theorem State.applyFifo_bdry (s : State) (o : PeOut) : (s.applyFifo o).bdry = s.bdry := by
  unfold State.applyFifo; split <;> rfl

@[simp] theorem State.applyFifo_free (s : State) (o : PeOut) : (s.applyFifo o).free = s.free := by
  unfold State.applyFifo; split <;> rfl

/-! ### Stacks and branches -/

@[simp] theorem State.pushPc_data (s : State) (w : Word) : (s.pushPc w).data = s.data := by
  unfold State.pushPc; split <;> simp

@[simp] theorem State.pushPc_dag (s : State) (w : Word) : (s.pushPc w).dag = s.dag := by
  unfold State.pushPc; split <;> simp

@[simp] theorem State.pushPc_mmr (s : State) (w : Word) : (s.pushPc w).mmr = s.mmr := by
  unfold State.pushPc; split <;> simp

@[simp] theorem State.pushPc_posted (s : State) (w : Word) : (s.pushPc w).posted = s.posted := by
  unfold State.pushPc; split <;> simp

@[simp] theorem State.pushPc_mem (s : State) (w : Word) : (s.pushPc w).mem = s.mem := by
  unfold State.pushPc; split <;> simp

@[simp] theorem State.pushPc_excl (s : State) (w : Word) : (s.pushPc w).excl = s.excl := by
  unfold State.pushPc; split <;> simp

@[simp] theorem State.pushPc_bus (s : State) (w : Word) : (s.pushPc w).bus = s.bus := by
  unfold State.pushPc; split <;> simp

@[simp] theorem State.pushPc_cache (s : State) (w : Word) : (s.pushPc w).cache = s.cache := by
  unfold State.pushPc; split <;> simp

@[simp] theorem State.pushPc_bdry (s : State) (w : Word) : (s.pushPc w).bdry = s.bdry := by
  unfold State.pushPc; split <;> simp

@[simp] theorem State.pushPc_free (s : State) (w : Word) : (s.pushPc w).free = s.free := by
  unfold State.pushPc; split <;> simp

@[simp] theorem State.pushLoop_data (s : State) (w : Word) (r : Restored) : (s.pushLoop w r).data = s.data := by
  unfold State.pushLoop; split <;> rfl

@[simp] theorem State.pushLoop_dag (s : State) (w : Word) (r : Restored) : (s.pushLoop w r).dag = s.dag := by
  unfold State.pushLoop; split <;> rfl

@[simp] theorem State.pushLoop_mmr (s : State) (w : Word) (r : Restored) : (s.pushLoop w r).mmr = s.mmr := by
  unfold State.pushLoop; split <;> rfl

@[simp] theorem State.pushLoop_posted (s : State) (w : Word) (r : Restored) : (s.pushLoop w r).posted = s.posted := by
  unfold State.pushLoop; split <;> rfl

@[simp] theorem State.pushLoop_mem (s : State) (w : Word) (r : Restored) : (s.pushLoop w r).mem = s.mem := by
  unfold State.pushLoop; split <;> rfl

@[simp] theorem State.pushLoop_excl (s : State) (w : Word) (r : Restored) : (s.pushLoop w r).excl = s.excl := by
  unfold State.pushLoop; split <;> rfl

@[simp] theorem State.pushLoop_bus (s : State) (w : Word) (r : Restored) : (s.pushLoop w r).bus = s.bus := by
  unfold State.pushLoop; split <;> rfl

@[simp] theorem State.pushLoop_cache (s : State) (w : Word) (r : Restored) : (s.pushLoop w r).cache = s.cache := by
  unfold State.pushLoop; split <;> rfl

@[simp] theorem State.pushLoop_bdry (s : State) (w : Word) (r : Restored) : (s.pushLoop w r).bdry = s.bdry := by
  unfold State.pushLoop; split <;> rfl

@[simp] theorem State.pushLoop_free (s : State) (w : Word) (r : Restored) : (s.pushLoop w r).free = s.free := by
  unfold State.pushLoop; split <;> rfl

@[simp] theorem State.pushSts_data (s : State)  : (s.pushSts).data = s.data := by
  unfold State.pushSts; split <;> rfl

@[simp] theorem State.pushSts_dag (s : State)  : (s.pushSts).dag = s.dag := by
  unfold State.pushSts; split <;> rfl

@[simp] theorem State.pushSts_mmr (s : State)  : (s.pushSts).mmr = s.mmr := by
  unfold State.pushSts; split <;> rfl

@[simp] theorem State.pushSts_posted (s : State)  : (s.pushSts).posted = s.posted := by
  unfold State.pushSts; split <;> rfl

@[simp] theorem State.pushSts_mem (s : State)  : (s.pushSts).mem = s.mem := by
  unfold State.pushSts; split <;> rfl

@[simp] theorem State.pushSts_excl (s : State)  : (s.pushSts).excl = s.excl := by
  unfold State.pushSts; split <;> rfl

@[simp] theorem State.pushSts_bus (s : State)  : (s.pushSts).bus = s.bus := by
  unfold State.pushSts; split <;> rfl

@[simp] theorem State.pushSts_cache (s : State)  : (s.pushSts).cache = s.cache := by
  unfold State.pushSts; split <;> rfl

@[simp] theorem State.pushSts_bdry (s : State)  : (s.pushSts).bdry = s.bdry := by
  unfold State.pushSts; split <;> rfl

@[simp] theorem State.pushSts_free (s : State)  : (s.pushSts).free = s.free := by
  unfold State.pushSts; split <;> rfl

@[simp] theorem State.settlePcstkp_data (s : State) (w : Option (BitVec 5)) : (s.settlePcstkp w).data = s.data := by
  unfold State.settlePcstkp; (repeat' split) <;> rfl

@[simp] theorem State.settlePcstkp_dag (s : State) (w : Option (BitVec 5)) : (s.settlePcstkp w).dag = s.dag := by
  unfold State.settlePcstkp; (repeat' split) <;> rfl

@[simp] theorem State.settlePcstkp_sys (s : State) (w : Option (BitVec 5)) : (s.settlePcstkp w).sys = s.sys := by
  unfold State.settlePcstkp; (repeat' split) <;> rfl

@[simp] theorem State.settlePcstkp_mmr (s : State) (w : Option (BitVec 5)) : (s.settlePcstkp w).mmr = s.mmr := by
  unfold State.settlePcstkp; (repeat' split) <;> rfl

@[simp] theorem State.settlePcstkp_posted (s : State) (w : Option (BitVec 5)) : (s.settlePcstkp w).posted = s.posted := by
  unfold State.settlePcstkp; (repeat' split) <;> rfl

@[simp] theorem State.settlePcstkp_mem (s : State) (w : Option (BitVec 5)) : (s.settlePcstkp w).mem = s.mem := by
  unfold State.settlePcstkp; (repeat' split) <;> rfl

@[simp] theorem State.settlePcstkp_excl (s : State) (w : Option (BitVec 5)) : (s.settlePcstkp w).excl = s.excl := by
  unfold State.settlePcstkp; (repeat' split) <;> rfl

@[simp] theorem State.settlePcstkp_bus (s : State) (w : Option (BitVec 5)) : (s.settlePcstkp w).bus = s.bus := by
  unfold State.settlePcstkp; (repeat' split) <;> rfl

@[simp] theorem State.settlePcstkp_cache (s : State) (w : Option (BitVec 5)) : (s.settlePcstkp w).cache = s.cache := by
  unfold State.settlePcstkp; (repeat' split) <;> rfl

@[simp] theorem State.settlePcstkp_bdry (s : State) (w : Option (BitVec 5)) : (s.settlePcstkp w).bdry = s.bdry := by
  unfold State.settlePcstkp; (repeat' split) <;> rfl

@[simp] theorem State.settlePcstkp_free (s : State) (w : Option (BitVec 5)) : (s.settlePcstkp w).free = s.free := by
  unfold State.settlePcstkp; (repeat' split) <;> rfl

@[simp] theorem State.endService_data (s : State) (k : Nat) (l : Bool) : (s.endService k l).data = s.data := rfl

@[simp] theorem State.endService_dag (s : State) (k : Nat) (l : Bool) : (s.endService k l).dag = s.dag := rfl

@[simp] theorem State.endService_seq (s : State) (k : Nat) (l : Bool) : (s.endService k l).seq = s.seq := rfl

@[simp] theorem State.endService_mmr (s : State) (k : Nat) (l : Bool) : (s.endService k l).mmr = s.mmr := rfl

@[simp] theorem State.endService_posted (s : State) (k : Nat) (l : Bool) : (s.endService k l).posted = s.posted := rfl

@[simp] theorem State.endService_mem (s : State) (k : Nat) (l : Bool) : (s.endService k l).mem = s.mem := rfl

@[simp] theorem State.endService_excl (s : State) (k : Nat) (l : Bool) : (s.endService k l).excl = s.excl := rfl

@[simp] theorem State.endService_bus (s : State) (k : Nat) (l : Bool) : (s.endService k l).bus = s.bus := rfl

@[simp] theorem State.endService_cache (s : State) (k : Nat) (l : Bool) : (s.endService k l).cache = s.cache := rfl

@[simp] theorem State.endService_bdry (s : State) (k : Nat) (l : Bool) : (s.endService k l).bdry = s.bdry := rfl

@[simp] theorem State.endService_free (s : State) (k : Nat) (l : Bool) : (s.endService k l).free = s.free := rfl

@[simp] theorem State.atBranch_data (s : State) (db : Bool) : (s.atBranch db).data = s.data := by
  unfold State.atBranch; split <;> simp

@[simp] theorem State.atBranch_dag (s : State) (db : Bool) : (s.atBranch db).dag = s.dag := by
  unfold State.atBranch; split <;> simp

@[simp] theorem State.atBranch_mmr (s : State) (db : Bool) : (s.atBranch db).mmr = s.mmr := by
  unfold State.atBranch; split <;> simp

@[simp] theorem State.atBranch_posted (s : State) (db : Bool) : (s.atBranch db).posted = s.posted := by
  unfold State.atBranch; split <;> simp

@[simp] theorem State.atBranch_mem (s : State) (db : Bool) : (s.atBranch db).mem = s.mem := by
  unfold State.atBranch; split <;> simp

@[simp] theorem State.atBranch_excl (s : State) (db : Bool) : (s.atBranch db).excl = s.excl := by
  unfold State.atBranch; split <;> simp

@[simp] theorem State.atBranch_bus (s : State) (db : Bool) : (s.atBranch db).bus = s.bus := by
  unfold State.atBranch; split <;> simp

@[simp] theorem State.atBranch_cache (s : State) (db : Bool) : (s.atBranch db).cache = s.cache := by
  unfold State.atBranch; split <;> simp

@[simp] theorem State.atBranch_free (s : State) (db : Bool) : (s.atBranch db).free = s.free := by
  unfold State.atBranch; split <;> simp

@[simp] theorem State.passCalls_data (s0 s : State) : (s0.passCalls s).data = s.data := rfl
@[simp] theorem State.passCalls_dag (s0 s : State) : (s0.passCalls s).dag = s.dag := rfl
@[simp] theorem State.passCalls_sys (s0 s : State) : (s0.passCalls s).sys = s.sys := rfl
@[simp] theorem State.passCalls_mmr (s0 s : State) : (s0.passCalls s).mmr = s.mmr := rfl
@[simp] theorem State.passCalls_posted (s0 s : State) : (s0.passCalls s).posted = s.posted := rfl
@[simp] theorem State.passCalls_mem (s0 s : State) : (s0.passCalls s).mem = s.mem := rfl
@[simp] theorem State.passCalls_excl (s0 s : State) : (s0.passCalls s).excl = s.excl := rfl
@[simp] theorem State.passCalls_bus (s0 s : State) : (s0.passCalls s).bus = s.bus := rfl
@[simp] theorem State.passCalls_cache (s0 s : State) : (s0.passCalls s).cache = s.cache := rfl
@[simp] theorem State.passCalls_bdry (s0 s : State) : (s0.passCalls s).bdry = s.bdry := rfl
@[simp] theorem State.passCalls_free (s0 s : State) : (s0.passCalls s).free = s.free := rfl
@[simp] theorem State.passCalls_loops (s0 s : State) :
    { (s0.passCalls s).seq with loopStk := s.seq.loopStk } = s.seq := rfl

@[simp] theorem State.loseLoops_data (s : State)  : (s.loseLoops).data = s.data := by
  unfold State.loseLoops; split <;> rfl

@[simp] theorem State.loseLoops_dag (s : State)  : (s.loseLoops).dag = s.dag := by
  unfold State.loseLoops; split <;> rfl

@[simp] theorem State.loseLoops_sys (s : State)  : (s.loseLoops).sys = s.sys := by
  unfold State.loseLoops; split <;> rfl

@[simp] theorem State.loseLoops_mmr (s : State)  : (s.loseLoops).mmr = s.mmr := by
  unfold State.loseLoops; split <;> rfl

@[simp] theorem State.loseLoops_posted (s : State)  : (s.loseLoops).posted = s.posted := by
  unfold State.loseLoops; split <;> rfl

@[simp] theorem State.loseLoops_mem (s : State)  : (s.loseLoops).mem = s.mem := by
  unfold State.loseLoops; split <;> rfl

@[simp] theorem State.loseLoops_excl (s : State)  : (s.loseLoops).excl = s.excl := by
  unfold State.loseLoops; split <;> rfl

@[simp] theorem State.loseLoops_bus (s : State)  : (s.loseLoops).bus = s.bus := by
  unfold State.loseLoops; split <;> rfl

@[simp] theorem State.loseLoops_cache (s : State)  : (s.loseLoops).cache = s.cache := by
  unfold State.loseLoops; split <;> rfl

@[simp] theorem State.loseLoops_bdry (s : State)  : (s.loseLoops).bdry = s.bdry := by
  unfold State.loseLoops; split <;> rfl

@[simp] theorem State.loseLoops_free (s : State)  : (s.loseLoops).free = s.free := by
  unfold State.loseLoops; split <;> rfl

@[simp] theorem State.goto_data (s : State) (a : IAddr) (db : Bool) (k : BranchSort) : (s.goto a db k).data = s.data := by
  unfold State.goto; split <;> rfl

@[simp] theorem State.goto_dag (s : State) (a : IAddr) (db : Bool) (k : BranchSort) : (s.goto a db k).dag = s.dag := by
  unfold State.goto; split <;> rfl

@[simp] theorem State.goto_sys (s : State) (a : IAddr) (db : Bool) (k : BranchSort) : (s.goto a db k).sys = s.sys := by
  unfold State.goto; split <;> rfl

@[simp] theorem State.goto_mmr (s : State) (a : IAddr) (db : Bool) (k : BranchSort) : (s.goto a db k).mmr = s.mmr := by
  unfold State.goto; split <;> rfl

@[simp] theorem State.goto_posted (s : State) (a : IAddr) (db : Bool) (k : BranchSort) : (s.goto a db k).posted = s.posted := by
  unfold State.goto; split <;> rfl

@[simp] theorem State.goto_mem (s : State) (a : IAddr) (db : Bool) (k : BranchSort) : (s.goto a db k).mem = s.mem := by
  unfold State.goto; split <;> rfl

@[simp] theorem State.goto_excl (s : State) (a : IAddr) (db : Bool) (k : BranchSort) : (s.goto a db k).excl = s.excl := by
  unfold State.goto; split <;> rfl

@[simp] theorem State.goto_bus (s : State) (a : IAddr) (db : Bool) (k : BranchSort) : (s.goto a db k).bus = s.bus := by
  unfold State.goto; split <;> rfl

@[simp] theorem State.goto_cache (s : State) (a : IAddr) (db : Bool) (k : BranchSort) : (s.goto a db k).cache = s.cache := by
  unfold State.goto; split <;> rfl

@[simp] theorem State.goto_free (s : State) (a : IAddr) (db : Bool) (k : BranchSort) : (s.goto a db k).free = s.free := by
  unfold State.goto; split <;> rfl

@[simp] theorem State.goIdle_data (s : State)  : (s.goIdle).data = s.data := rfl

@[simp] theorem State.goIdle_dag (s : State)  : (s.goIdle).dag = s.dag := rfl

@[simp] theorem State.goIdle_sys (s : State)  : (s.goIdle).sys = s.sys := rfl

@[simp] theorem State.goIdle_mmr (s : State)  : (s.goIdle).mmr = s.mmr := rfl

@[simp] theorem State.goIdle_posted (s : State)  : (s.goIdle).posted = s.posted := rfl

@[simp] theorem State.goIdle_mem (s : State)  : (s.goIdle).mem = s.mem := rfl

@[simp] theorem State.goIdle_excl (s : State)  : (s.goIdle).excl = s.excl := rfl

@[simp] theorem State.goIdle_bus (s : State)  : (s.goIdle).bus = s.bus := rfl

@[simp] theorem State.goIdle_cache (s : State)  : (s.goIdle).cache = s.cache := rfl

@[simp] theorem State.goIdle_bdry (s : State)  : (s.goIdle).bdry = s.bdry := rfl

@[simp] theorem State.goIdle_free (s : State)  : (s.goIdle).free = s.free := rfl

@[simp] theorem State.loopCheck_data (s : State)  : (s.loopCheck).data = s.data := by
  unfold State.loopCheck; split <;> rfl

@[simp] theorem State.loopCheck_dag (s : State)  : (s.loopCheck).dag = s.dag := by
  unfold State.loopCheck; split <;> rfl

@[simp] theorem State.loopCheck_sys (s : State)  : (s.loopCheck).sys = s.sys := by
  unfold State.loopCheck; split <;> rfl

@[simp] theorem State.loopCheck_mmr (s : State)  : (s.loopCheck).mmr = s.mmr := by
  unfold State.loopCheck; split <;> rfl

@[simp] theorem State.loopCheck_posted (s : State)  : (s.loopCheck).posted = s.posted := by
  unfold State.loopCheck; split <;> rfl

@[simp] theorem State.loopCheck_mem (s : State)  : (s.loopCheck).mem = s.mem := by
  unfold State.loopCheck; split <;> rfl

@[simp] theorem State.loopCheck_excl (s : State)  : (s.loopCheck).excl = s.excl := by
  unfold State.loopCheck; split <;> rfl

@[simp] theorem State.loopCheck_bus (s : State)  : (s.loopCheck).bus = s.bus := by
  unfold State.loopCheck; split <;> rfl

@[simp] theorem State.loopCheck_cache (s : State)  : (s.loopCheck).cache = s.cache := by
  unfold State.loopCheck; split <;> rfl

@[simp] theorem State.loopCheck_bdry (s : State)  : (s.loopCheck).bdry = s.bdry := by
  unfold State.loopCheck; split <;> rfl

@[simp] theorem State.loopCheck_free (s : State)  : (s.loopCheck).free = s.free := by
  unfold State.loopCheck; split <;> rfl

@[simp] theorem State.begin_data (s : State) (len : Nat) : (s.begin len).data = s.data := by
  unfold State.begin; simp

@[simp] theorem State.begin_dag (s : State) (len : Nat) : (s.begin len).dag = s.dag := by
  unfold State.begin; simp

@[simp] theorem State.begin_sys (s : State) (len : Nat) : (s.begin len).sys = s.sys := by
  unfold State.begin; simp

@[simp] theorem State.begin_mmr (s : State) (len : Nat) : (s.begin len).mmr = s.mmr := by
  unfold State.begin; simp

@[simp] theorem State.begin_posted (s : State) (len : Nat) : (s.begin len).posted = s.posted := by
  unfold State.begin; simp

@[simp] theorem State.begin_mem (s : State) (len : Nat) : (s.begin len).mem = s.mem := by
  unfold State.begin; simp

@[simp] theorem State.begin_excl (s : State) (len : Nat) : (s.begin len).excl = s.excl := by
  unfold State.begin; simp

@[simp] theorem State.begin_bus (s : State) (len : Nat) : (s.begin len).bus = s.bus := by
  unfold State.begin; simp

@[simp] theorem State.begin_cache (s : State) (len : Nat) : (s.begin len).cache = s.cache := by
  unfold State.begin; simp

@[simp] theorem State.begin_free (s : State) (len : Nat) : (s.begin len).free = s.free := by
  unfold State.begin; simp

/-! ### Moves -/

@[simp] theorem State.applyStore_data (s : State) (t : Stored) : (s.applyStore t).data = s.data := by
  unfold State.applyStore; split <;> rfl

@[simp] theorem State.applyStore_dag (s : State) (t : Stored) : (s.applyStore t).dag = s.dag := by
  unfold State.applyStore; split <;> rfl

@[simp] theorem State.applyStore_seq (s : State) (t : Stored) : (s.applyStore t).seq = s.seq := by
  unfold State.applyStore; split <;> rfl

@[simp] theorem State.applyStore_sys (s : State) (t : Stored) : (s.applyStore t).sys = s.sys := by
  unfold State.applyStore; split <;> rfl

@[simp] theorem State.applyStore_mmr (s : State) (t : Stored) : (s.applyStore t).mmr = s.mmr := by
  unfold State.applyStore; split <;> rfl

@[simp] theorem State.applyStore_posted (s : State) (t : Stored) : (s.applyStore t).posted = s.posted := by
  unfold State.applyStore; split <;> rfl

@[simp] theorem State.applyStore_bdry (s : State) (t : Stored) : (s.applyStore t).bdry = s.bdry := by
  unfold State.applyStore; split <;> rfl

@[simp] theorem State.applyStore_free (s : State) (t : Stored) : (s.applyStore t).free = s.free := by
  unfold State.applyStore; split <;> rfl

@[simp] theorem State.applyIndex_data (s : State) (w : IndexWrite) : (s.applyIndex w).data = s.data := by
  unfold State.applyIndex; (repeat' split) <;> simp

@[simp] theorem State.applyIndex_seq (s : State) (w : IndexWrite) : (s.applyIndex w).seq = s.seq := by
  unfold State.applyIndex; (repeat' split) <;> simp

@[simp] theorem State.applyIndex_mmr (s : State) (w : IndexWrite) : (s.applyIndex w).mmr = s.mmr := by
  unfold State.applyIndex; (repeat' split) <;> simp

@[simp] theorem State.applyIndex_posted (s : State) (w : IndexWrite) : (s.applyIndex w).posted = s.posted := by
  unfold State.applyIndex; (repeat' split) <;> simp

@[simp] theorem State.applyIndex_mem (s : State) (w : IndexWrite) : (s.applyIndex w).mem = s.mem := by
  unfold State.applyIndex; (repeat' split) <;> simp

@[simp] theorem State.applyIndex_excl (s : State) (w : IndexWrite) : (s.applyIndex w).excl = s.excl := by
  unfold State.applyIndex; (repeat' split) <;> simp

@[simp] theorem State.applyIndex_bus (s : State) (w : IndexWrite) : (s.applyIndex w).bus = s.bus := by
  unfold State.applyIndex; (repeat' split) <;> simp

@[simp] theorem State.applyIndex_cache (s : State) (w : IndexWrite) : (s.applyIndex w).cache = s.cache := by
  unfold State.applyIndex; (repeat' split) <;> simp

@[simp] theorem State.applyIndex_bdry (s : State) (w : IndexWrite) : (s.applyIndex w).bdry = s.bdry := by
  unfold State.applyIndex; (repeat' split) <;> simp

@[simp] theorem State.applyIndex_free (s : State) (w : IndexWrite) : (s.applyIndex w).free = s.free := by
  unfold State.applyIndex; (repeat' split) <;> simp

@[simp] theorem State.applyUpdate_data (s : State) (w : Option IndexWrite) : (s.applyUpdate w).data = s.data := by
  unfold State.applyUpdate; split <;> simp

@[simp] theorem State.applyUpdate_seq (s : State) (w : Option IndexWrite) : (s.applyUpdate w).seq = s.seq := by
  unfold State.applyUpdate; split <;> simp

@[simp] theorem State.applyUpdate_mmr (s : State) (w : Option IndexWrite) : (s.applyUpdate w).mmr = s.mmr := by
  unfold State.applyUpdate; split <;> simp

@[simp] theorem State.applyUpdate_posted (s : State) (w : Option IndexWrite) : (s.applyUpdate w).posted = s.posted := by
  unfold State.applyUpdate; split <;> simp

@[simp] theorem State.applyUpdate_mem (s : State) (w : Option IndexWrite) : (s.applyUpdate w).mem = s.mem := by
  unfold State.applyUpdate; split <;> simp

@[simp] theorem State.applyUpdate_excl (s : State) (w : Option IndexWrite) : (s.applyUpdate w).excl = s.excl := by
  unfold State.applyUpdate; split <;> simp

@[simp] theorem State.applyUpdate_bus (s : State) (w : Option IndexWrite) : (s.applyUpdate w).bus = s.bus := by
  unfold State.applyUpdate; split <;> simp

@[simp] theorem State.applyUpdate_cache (s : State) (w : Option IndexWrite) : (s.applyUpdate w).cache = s.cache := by
  unfold State.applyUpdate; split <;> simp

@[simp] theorem State.applyUpdate_bdry (s : State) (w : Option IndexWrite) : (s.applyUpdate w).bdry = s.bdry := by
  unfold State.applyUpdate; split <;> simp

@[simp] theorem State.applyUpdate_free (s : State) (w : Option IndexWrite) : (s.applyUpdate w).free = s.free := by
  unfold State.applyUpdate; split <;> simp

@[simp] theorem State.applyAz_data (s : State) (p : Bool × Bool) : (s.applyAz p).data = s.data := by
  unfold State.applyAz; split <;> rfl

@[simp] theorem State.applyAz_dag (s : State) (p : Bool × Bool) : (s.applyAz p).dag = s.dag := by
  unfold State.applyAz; split <;> rfl

@[simp] theorem State.applyAz_seq (s : State) (p : Bool × Bool) : (s.applyAz p).seq = s.seq := by
  unfold State.applyAz; split <;> rfl

@[simp] theorem State.applyAz_mmr (s : State) (p : Bool × Bool) : (s.applyAz p).mmr = s.mmr := by
  unfold State.applyAz; split <;> rfl

@[simp] theorem State.applyAz_posted (s : State) (p : Bool × Bool) : (s.applyAz p).posted = s.posted := by
  unfold State.applyAz; split <;> rfl

@[simp] theorem State.applyAz_mem (s : State) (p : Bool × Bool) : (s.applyAz p).mem = s.mem := by
  unfold State.applyAz; split <;> rfl

@[simp] theorem State.applyAz_excl (s : State) (p : Bool × Bool) : (s.applyAz p).excl = s.excl := by
  unfold State.applyAz; split <;> rfl

@[simp] theorem State.applyAz_bus (s : State) (p : Bool × Bool) : (s.applyAz p).bus = s.bus := by
  unfold State.applyAz; split <;> rfl

@[simp] theorem State.applyAz_cache (s : State) (p : Bool × Bool) : (s.applyAz p).cache = s.cache := by
  unfold State.applyAz; split <;> rfl

@[simp] theorem State.applyAz_bdry (s : State) (p : Bool × Bool) : (s.applyAz p).bdry = s.bdry := by
  unfold State.applyAz; split <;> rfl

@[simp] theorem State.applyAz_free (s : State) (p : Bool × Bool) : (s.applyAz p).free = s.free := by
  unfold State.applyAz; split <;> rfl

@[simp] theorem State.applyLatches_data (s : State) (f : Fx) : (s.applyLatches f).data = s.data := by
  unfold State.applyLatches; (repeat' split) <;> simp

@[simp] theorem State.applyLatches_dag (s : State) (f : Fx) : (s.applyLatches f).dag = s.dag := by
  unfold State.applyLatches; (repeat' split) <;> simp

@[simp] theorem State.applyLatches_seq (s : State) (f : Fx) : (s.applyLatches f).seq = s.seq := by
  unfold State.applyLatches; (repeat' split) <;> simp

@[simp] theorem State.applyLatches_mmr (s : State) (f : Fx) : (s.applyLatches f).mmr = s.mmr := by
  unfold State.applyLatches; (repeat' split) <;> simp

@[simp] theorem State.applyLatches_posted (s : State) (f : Fx) : (s.applyLatches f).posted = s.posted := by
  unfold State.applyLatches; (repeat' split) <;> simp

@[simp] theorem State.applyLatches_mem (s : State) (f : Fx) : (s.applyLatches f).mem = s.mem := by
  unfold State.applyLatches; (repeat' split) <;> simp

@[simp] theorem State.applyLatches_excl (s : State) (f : Fx) : (s.applyLatches f).excl = s.excl := by
  unfold State.applyLatches; (repeat' split) <;> simp

@[simp] theorem State.applyLatches_bus (s : State) (f : Fx) : (s.applyLatches f).bus = s.bus := by
  unfold State.applyLatches; (repeat' split) <;> simp

@[simp] theorem State.applyLatches_cache (s : State) (f : Fx) : (s.applyLatches f).cache = s.cache := by
  unfold State.applyLatches; (repeat' split) <;> simp

@[simp] theorem State.applyLatches_bdry (s : State) (f : Fx) : (s.applyLatches f).bdry = s.bdry := by
  unfold State.applyLatches; (repeat' split) <;> simp

@[simp] theorem State.applyLatches_free (s : State) (f : Fx) : (s.applyLatches f).free = s.free := by
  unfold State.applyLatches; (repeat' split) <;> simp

/-! ### Memory-mapped registers, stack words, fetches -/

@[simp] theorem State.setMmrs_data (s : State) (g : Mmr → Mmr) : (s.setMmrs g).data = s.data := rfl

@[simp] theorem State.setMmrs_dag (s : State) (g : Mmr → Mmr) : (s.setMmrs g).dag = s.dag := rfl

@[simp] theorem State.setMmrs_seq (s : State) (g : Mmr → Mmr) : (s.setMmrs g).seq = s.seq := rfl

@[simp] theorem State.setMmrs_sys (s : State) (g : Mmr → Mmr) : (s.setMmrs g).sys = s.sys := rfl

@[simp] theorem State.setMmrs_mem (s : State) (g : Mmr → Mmr) : (s.setMmrs g).mem = s.mem := rfl

@[simp] theorem State.setMmrs_excl (s : State) (g : Mmr → Mmr) : (s.setMmrs g).excl = s.excl := rfl

@[simp] theorem State.setMmrs_bus (s : State) (g : Mmr → Mmr) : (s.setMmrs g).bus = s.bus := rfl

@[simp] theorem State.setMmrs_cache (s : State) (g : Mmr → Mmr) : (s.setMmrs g).cache = s.cache := rfl

@[simp] theorem State.setMmrs_bdry (s : State) (g : Mmr → Mmr) : (s.setMmrs g).bdry = s.bdry := rfl

@[simp] theorem State.setMmrs_free (s : State) (g : Mmr → Mmr) : (s.setMmrs g).free = s.free := rfl

@[simp] theorem State.flushCache_data (s : State) (b : Bool) : (s.flushCache b).data = s.data := by
  unfold State.flushCache; split <;> rfl

@[simp] theorem State.flushCache_dag (s : State) (b : Bool) : (s.flushCache b).dag = s.dag := by
  unfold State.flushCache; split <;> rfl

@[simp] theorem State.flushCache_seq (s : State) (b : Bool) : (s.flushCache b).seq = s.seq := by
  unfold State.flushCache; split <;> rfl

@[simp] theorem State.flushCache_sys (s : State) (b : Bool) : (s.flushCache b).sys = s.sys := by
  unfold State.flushCache; split <;> rfl

@[simp] theorem State.flushCache_mmr (s : State) (b : Bool) : (s.flushCache b).mmr = s.mmr := by
  unfold State.flushCache; split <;> rfl

@[simp] theorem State.flushCache_posted (s : State) (b : Bool) : (s.flushCache b).posted = s.posted := by
  unfold State.flushCache; split <;> rfl

@[simp] theorem State.flushCache_excl (s : State) (b : Bool) : (s.flushCache b).excl = s.excl := by
  unfold State.flushCache; split <;> rfl

@[simp] theorem State.flushCache_bus (s : State) (b : Bool) : (s.flushCache b).bus = s.bus := by
  unfold State.flushCache; split <;> rfl

@[simp] theorem State.flushCache_cache (s : State) (b : Bool) : (s.flushCache b).cache = s.cache := by
  unfold State.flushCache; split <;> rfl

@[simp] theorem State.flushCache_bdry (s : State) (b : Bool) : (s.flushCache b).bdry = s.bdry := by
  unfold State.flushCache; split <;> rfl

@[simp] theorem State.flushCache_free (s : State) (b : Bool) : (s.flushCache b).free = s.free := by
  unfold State.flushCache; split <;> rfl

@[simp] theorem State.markXor_data (s : State) (r : SysReg) : (s.markXor r).data = s.data := by
  unfold State.markXor; split <;> rfl

@[simp] theorem State.markXor_dag (s : State) (r : SysReg) : (s.markXor r).dag = s.dag := by
  unfold State.markXor; split <;> rfl

@[simp] theorem State.markXor_seq (s : State) (r : SysReg) : (s.markXor r).seq = s.seq := by
  unfold State.markXor; split <;> rfl

@[simp] theorem State.markXor_sys (s : State) (r : SysReg) : (s.markXor r).sys = s.sys := by
  unfold State.markXor; split <;> rfl

@[simp] theorem State.markXor_mmr (s : State) (r : SysReg) : (s.markXor r).mmr = s.mmr := by
  unfold State.markXor; split <;> rfl

@[simp] theorem State.markXor_posted (s : State) (r : SysReg) : (s.markXor r).posted = s.posted := by
  unfold State.markXor; split <;> rfl

@[simp] theorem State.markXor_mem (s : State) (r : SysReg) : (s.markXor r).mem = s.mem := by
  unfold State.markXor; split <;> rfl

@[simp] theorem State.markXor_excl (s : State) (r : SysReg) : (s.markXor r).excl = s.excl := by
  unfold State.markXor; split <;> rfl

@[simp] theorem State.markXor_bus (s : State) (r : SysReg) : (s.markXor r).bus = s.bus := by
  unfold State.markXor; split <;> rfl

@[simp] theorem State.markXor_cache (s : State) (r : SysReg) : (s.markXor r).cache = s.cache := by
  unfold State.markXor; split <;> rfl

@[simp] theorem State.markXor_free (s : State) (r : SysReg) : (s.markXor r).free = s.free := by
  unfold State.markXor; split <;> rfl

/-! ### The outside -/

@[simp] theorem State.secRaise_data (s : State) (v : Word) : (s.secRaise v).data = s.data := by
  unfold State.secRaise; (repeat' split) <;> simp

@[simp] theorem State.secRaise_dag (s : State) (v : Word) : (s.secRaise v).dag = s.dag := by
  unfold State.secRaise; (repeat' split) <;> simp

@[simp] theorem State.secRaise_seq (s : State) (v : Word) : (s.secRaise v).seq = s.seq := by
  unfold State.secRaise; (repeat' split) <;> simp

@[simp] theorem State.secRaise_mem (s : State) (v : Word) : (s.secRaise v).mem = s.mem := by
  unfold State.secRaise; (repeat' split) <;> simp

@[simp] theorem State.secRaise_excl (s : State) (v : Word) : (s.secRaise v).excl = s.excl := by
  unfold State.secRaise; (repeat' split) <;> simp

@[simp] theorem State.secRaise_bus (s : State) (v : Word) : (s.secRaise v).bus = s.bus := by
  unfold State.secRaise; (repeat' split) <;> simp

@[simp] theorem State.secRaise_cache (s : State) (v : Word) : (s.secRaise v).cache = s.cache := by
  unfold State.secRaise; (repeat' split) <;> simp

@[simp] theorem State.secRaise_bdry (s : State) (v : Word) : (s.secRaise v).bdry = s.bdry := by
  unfold State.secRaise; (repeat' split) <;> simp

@[simp] theorem State.secRaise_free (s : State) (v : Word) : (s.secRaise v).free = s.free := by
  unfold State.secRaise; (repeat' split) <;> simp

@[simp] theorem State.accelerator_data (s : State) (iir : Bool) : (s.accelerator iir).data = s.data := by
  simp only [State.accelerator]; simp

@[simp] theorem State.accelerator_dag (s : State) (iir : Bool) : (s.accelerator iir).dag = s.dag := by
  simp only [State.accelerator]; simp

@[simp] theorem State.accelerator_seq (s : State) (iir : Bool) : (s.accelerator iir).seq = s.seq := by
  simp only [State.accelerator]; simp

@[simp] theorem State.accelerator_mmr (s : State) (iir : Bool) : (s.accelerator iir).mmr = s.mmr := by
  simp only [State.accelerator]; simp

@[simp] theorem State.accelerator_posted (s : State) (iir : Bool) : (s.accelerator iir).posted = s.posted := by
  simp only [State.accelerator]; simp

@[simp] theorem State.accelerator_mem (s : State) (iir : Bool) : (s.accelerator iir).mem = s.mem := by
  simp only [State.accelerator]; simp

@[simp] theorem State.accelerator_cache (s : State) (iir : Bool) : (s.accelerator iir).cache = s.cache := by
  simp only [State.accelerator]; simp

@[simp] theorem State.accelerator_excl (s : State) (iir : Bool) : (s.accelerator iir).excl = s.excl := by
  simp only [State.accelerator]; simp

@[simp] theorem State.accelerator_bus (s : State) (iir : Bool) : (s.accelerator iir).bus = s.bus := by
  simp only [State.accelerator]; simp

@[simp] theorem State.accelerator_bdry (s : State) (iir : Bool) : (s.accelerator iir).bdry = s.bdry := by
  simp only [State.accelerator]; simp

@[simp] theorem State.accelerator_free (s : State) (iir : Bool) : (s.accelerator iir).free = s.free := by
  simp only [State.accelerator]; simp

@[simp] theorem State.setPins_data (s : State) (v : BitVec 4) : (s.setPins v).data = s.data := rfl

@[simp] theorem State.setPins_dag (s : State) (v : BitVec 4) : (s.setPins v).dag = s.dag := rfl

@[simp] theorem State.setPins_seq (s : State) (v : BitVec 4) : (s.setPins v).seq = s.seq := rfl

@[simp] theorem State.setPins_mmr (s : State) (v : BitVec 4) : (s.setPins v).mmr = s.mmr := rfl

@[simp] theorem State.setPins_posted (s : State) (v : BitVec 4) : (s.setPins v).posted = s.posted := rfl

@[simp] theorem State.setPins_mem (s : State) (v : BitVec 4) : (s.setPins v).mem = s.mem := rfl

@[simp] theorem State.setPins_excl (s : State) (v : BitVec 4) : (s.setPins v).excl = s.excl := rfl

@[simp] theorem State.setPins_bus (s : State) (v : BitVec 4) : (s.setPins v).bus = s.bus := rfl

@[simp] theorem State.setPins_cache (s : State) (v : BitVec 4) : (s.setPins v).cache = s.cache := rfl

@[simp] theorem State.setPins_bdry (s : State) (v : BitVec 4) : (s.setPins v).bdry = s.bdry := rfl

@[simp] theorem State.setPins_free (s : State) (v : BitVec 4) : (s.setPins v).free = s.free := rfl

@[simp] theorem State.agentWrite_data (s : State) (p n v : Nat) : (s.agentWrite p n v).data = s.data := rfl

@[simp] theorem State.agentWrite_dag (s : State) (p n v : Nat) : (s.agentWrite p n v).dag = s.dag := rfl

@[simp] theorem State.agentWrite_seq (s : State) (p n v : Nat) : (s.agentWrite p n v).seq = s.seq := rfl

@[simp] theorem State.agentWrite_sys (s : State) (p n v : Nat) : (s.agentWrite p n v).sys = s.sys := rfl

@[simp] theorem State.agentWrite_mmr (s : State) (p n v : Nat) : (s.agentWrite p n v).mmr = s.mmr := rfl

@[simp] theorem State.agentWrite_posted (s : State) (p n v : Nat) : (s.agentWrite p n v).posted = s.posted := rfl

@[simp] theorem State.agentWrite_bus (s : State) (p n v : Nat) : (s.agentWrite p n v).bus = s.bus := rfl

@[simp] theorem State.agentWrite_cache (s : State) (p n v : Nat) : (s.agentWrite p n v).cache = s.cache := rfl

@[simp] theorem State.agentWrite_bdry (s : State) (p n v : Nat) : (s.agentWrite p n v).bdry = s.bdry := rfl

@[simp] theorem State.agentWrite_free (s : State) (p n v : Nat) : (s.agentWrite p n v).free = s.free := rfl

@[simp] theorem State.parityError_data (s : State) (l : List ParityPath) : (s.parityError l).data = s.data := by
  simp only [State.parityError]; split <;> simp

@[simp] theorem State.parityError_dag (s : State) (l : List ParityPath) : (s.parityError l).dag = s.dag := by
  simp only [State.parityError]; split <;> simp

@[simp] theorem State.parityError_seq (s : State) (l : List ParityPath) : (s.parityError l).seq = s.seq := by
  simp only [State.parityError]; split <;> simp

@[simp] theorem State.parityError_mem (s : State) (l : List ParityPath) : (s.parityError l).mem = s.mem := by
  simp only [State.parityError]; split <;> simp

@[simp] theorem State.parityError_excl (s : State) (l : List ParityPath) : (s.parityError l).excl = s.excl := by
  simp only [State.parityError]; split <;> simp

@[simp] theorem State.parityError_bus (s : State) (l : List ParityPath) : (s.parityError l).bus = s.bus := by
  simp only [State.parityError]; split <;> simp

@[simp] theorem State.parityError_cache (s : State) (l : List ParityPath) : (s.parityError l).cache = s.cache := by
  simp only [State.parityError]; split <;> simp

@[simp] theorem State.parityError_bdry (s : State) (l : List ParityPath) : (s.parityError l).bdry = s.bdry := by
  simp only [State.parityError]; split <;> simp

@[simp] theorem State.parityError_free (s : State) (l : List ParityPath) : (s.parityError l).free = s.free := by
  simp only [State.parityError]; split <;> simp

/-! ### Boundaries -/

@[simp] theorem State.arithLevels_data (s : State)  : (s.arithLevels).data = s.data := by
  unfold State.arithLevels; (repeat' split) <;> simp

@[simp] theorem State.arithLevels_dag (s : State)  : (s.arithLevels).dag = s.dag := by
  unfold State.arithLevels; (repeat' split) <;> simp

@[simp] theorem State.arithLevels_seq (s : State)  : (s.arithLevels).seq = s.seq := by
  unfold State.arithLevels; (repeat' split) <;> simp

@[simp] theorem State.arithLevels_mmr (s : State)  : (s.arithLevels).mmr = s.mmr := by
  unfold State.arithLevels; (repeat' split) <;> simp

@[simp] theorem State.arithLevels_posted (s : State)  : (s.arithLevels).posted = s.posted := by
  unfold State.arithLevels; (repeat' split) <;> simp

@[simp] theorem State.arithLevels_mem (s : State)  : (s.arithLevels).mem = s.mem := by
  unfold State.arithLevels; (repeat' split) <;> simp

@[simp] theorem State.arithLevels_excl (s : State)  : (s.arithLevels).excl = s.excl := by
  unfold State.arithLevels; (repeat' split) <;> simp

@[simp] theorem State.arithLevels_bus (s : State)  : (s.arithLevels).bus = s.bus := by
  unfold State.arithLevels; (repeat' split) <;> simp

@[simp] theorem State.arithLevels_cache (s : State)  : (s.arithLevels).cache = s.cache := by
  unfold State.arithLevels; (repeat' split) <;> simp

@[simp] theorem State.arithLevels_bdry (s : State)  : (s.arithLevels).bdry = s.bdry := by
  unfold State.arithLevels; (repeat' split) <;> simp

@[simp] theorem State.arithLevels_free (s : State)  : (s.arithLevels).free = s.free := by
  unfold State.arithLevels; (repeat' split) <;> simp

end Sys2Proof.Machine
end

