-- ==== Sys2Proof/Laws/Compute.lean ====
section
/-! SUPPORT. Laws of the data registers and of computations: what one computation writes and what it leaves alone. -/

namespace Sys2Proof.Machine

open Sys2Proof

/-! ### Register files -/

@[simp] theorem rget_rset_self {α : Type} (v : Vector α 16) (n : RegNo) (x : α) : rget (rset v n x) n = x := by
  simp [rget, rset]

theorem rget_rset_other {α : Type} (v : Vector α 16) {n k : RegNo} (x : α) (h : k ≠ n) : rget (rset v n x) k = rget v k := by
  have : n.toNat ≠ k.toNat := fun e => h (BitVec.eq_of_toNat_eq e).symm
  simp [rget, rset, Vector.getElem_set_ne, this]

theorem rget_rset {α : Type} (v : Vector α 16) (n k : RegNo) (x : α) : rget (rset v n x) k = if k = n then x else rget v k := by
  split
  · subst k; simp
  · rw [rget_rset_other _ _ ‹_›]

/-! ### Modes -/

theorem mode_congr {s t : State} (h : t.sys.mode1Act = s.sys.mode1Act) (b : ModeBit) : t.mode b = s.mode b := by
  simp [State.mode, h]

theorem simd_congr {s t : State} (h : t.sys.mode1Act = s.sys.mode1Act) : t.simd = s.simd := mode_congr h .peyen

theorem altData_congr {s t : State} (h : t.sys.mode1Act = s.sys.mode1Act) (n : RegNo) : t.altData n = s.altData n := by
  simp [State.altData, mode_congr h]

theorem altDag_congr {s t : State} (h : t.sys.mode1Act = s.sys.mode1Act) (n : RegNo) : t.altDag n = s.altDag n := by
  simp [State.altDag, mode_congr h]

theorem dreg_congr {s t : State} (hm : t.sys.mode1Act = s.sys.mode1Act) (hd : t.data = s.data) (y : Bool) (n : RegNo) :
    t.dreg y n = s.dreg y n := by
  simp [State.dreg, altData_congr hm, hd]

theorem hiddenDreg_congr {s t : State} (hm : t.sys.mode1Act = s.sys.mode1Act) (hd : t.data = s.data) (y : Bool) (n : RegNo) :
    t.hiddenDreg y n = s.hiddenDreg y n := by
  simp [State.hiddenDreg, altData_congr hm, hd]

/-! ### One data register -/

@[simp] theorem State.setDreg_altData (s : State) (y : Bool) (n : RegNo) (v : Reg40) (k : RegNo) :
    (s.setDreg y n v).altData k = s.altData k := altData_congr (by simp) k

/-- A data register after a write of one: its element and number decide. -/
theorem State.dreg_setDreg (s : State) (y z : Bool) (n k : RegNo) (v : Reg40) :
    (s.setDreg y n v).dreg z k = if z = y ∧ k = n then v else s.dreg z k := by
  unfold State.dreg
  rw [State.setDreg_altData]
  unfold State.setDreg
  by_cases h : k = n
  · subst h
    cases y <;> cases z <;> by_cases h1 : s.altData k = true <;> simp [h1]
  · cases y <;> cases z <;> by_cases h1 : s.altData k = true <;> by_cases h2 : s.altData n = true <;>
      simp [h, h1, h2, rget_rset_other]

@[simp] theorem State.dreg_setDreg_self (s : State) (y : Bool) (n : RegNo) (v : Reg40) : (s.setDreg y n v).dreg y n = v := by
  simp [State.dreg_setDreg]

/-- The set that is not selected keeps its registers. -/
@[simp] theorem State.hiddenDreg_setDreg (s : State) (y z : Bool) (n k : RegNo) (v : Reg40) :
    (s.setDreg y n v).hiddenDreg z k = s.hiddenDreg z k := by
  unfold State.hiddenDreg
  rw [State.setDreg_altData]
  unfold State.setDreg
  by_cases h : k = n
  · subst h
    cases y <;> cases z <;> by_cases h1 : s.altData k = true <;> simp [h1]
  · cases y <;> cases z <;> by_cases h1 : s.altData k = true <;> by_cases h2 : s.altData n = true <;>
      simp [h, h1, h2, rget_rset_other]

@[simp] theorem State.setDreg_px (s : State) (y : Bool) (n : RegNo) (v : Reg40) : (s.setDreg y n v).data.px = s.data.px := by
  unfold State.setDreg; (repeat' split) <;> rfl

@[simp] theorem State.setDreg_bff (s : State) (y : Bool) (n : RegNo) (v : Reg40) : (s.setDreg y n v).data.bff = s.data.bff := by
  unfold State.setDreg; (repeat' split) <;> rfl

@[simp] theorem State.setDreg_bffwrp (s : State) (y : Bool) (n : RegNo) (v : Reg40) :
    (s.setDreg y n v).data.bffwrp = s.data.bffwrp := by
  unfold State.setDreg; (repeat' split) <;> rfl

@[simp] theorem State.setDreg_mrPhys (s : State) (y : Bool) (n : RegNo) (v : Reg40) (z bg : Bool) :
    (s.setDreg y n v).data.mrPhys z bg = s.data.mrPhys z bg := by
  unfold State.setDreg Data.mrPhys; cases z <;> cases bg <;> (repeat' split) <;> rfl

/-! ### The results of a computation -/

/-- What every register write keeps, the results of a computation keep. -/
theorem writeUnits_keeps {P : State → Prop} {y : Bool} (h : ∀ t n v, P t → P (t.setDreg y n v)) {s : State} (hs : P s)
    (busy : List UReg) (us : List (List (RegNo × Reg40))) : P (us.foldl (State.writeUnit y) (s, busy)).1 := by
  have one : ∀ (u : List (RegNo × Reg40)) (t : State), P t → P (u.foldl (fun t q => t.setDreg y q.1 q.2) t) := by
    intro u
    induction u with
    | nil => exact fun _ h => h
    | cons q u ih => exact fun t ht => ih _ (h t q.1 q.2 ht)
  induction us generalizing s busy with
  | nil => exact hs
  | cons u us ih =>
    simp only [List.foldl_cons, State.writeUnit]
    split
    · exact ih hs _
    · exact ih (one u s hs) _

/-- A register that no unit names keeps its value. -/
theorem writeUnits_other {y z : Bool} {k : RegNo} (s : State) (busy : List UReg) (us : List (List (RegNo × Reg40)))
    (h : z ≠ y ∨ ∀ u ∈ us, ∀ q ∈ u, q.1 ≠ k) : (us.foldl (State.writeUnit y) (s, busy)).1.dreg z k = s.dreg z k := by
  have one : ∀ (u : List (RegNo × Reg40)) (t : State), (z ≠ y ∨ ∀ q ∈ u, q.1 ≠ k) →
      (u.foldl (fun t q => t.setDreg y q.1 q.2) t).dreg z k = t.dreg z k := by
    intro u
    induction u with
    | nil => exact fun _ _ => rfl
    | cons q u ih =>
      intro t hu
      have hq : ¬ (z = y ∧ k = q.1) := by
        rcases hu with hu | hu
        · exact fun e => hu e.1
        · exact fun e => hu q (by simp) e.2.symm
      rw [List.foldl_cons, ih _ (hu.imp id fun f q' hq' => f q' (by simp [hq'])), State.dreg_setDreg, if_neg hq]
  induction us generalizing s busy with
  | nil => rfl
  | cons u us ih =>
    have ht : z ≠ y ∨ ∀ u ∈ us, ∀ q ∈ u, q.1 ≠ k := h.imp id fun f v hv => f v (by simp [hv])
    simp only [List.foldl_cons, State.writeUnit]
    split
    · exact ih _ _ ht
    · rw [ih _ _ ht, one u s (h.imp id fun f q hq => f u (by simp) q hq)]

/-! ### One element -/

theorem applyPe_seq (s : State) (y : Bool) (busy : List UReg) (o : PeOut) : (s.applyPe y busy o).seq = s.seq := by
  simp only [State.applyPe, State.applyFifo_seq, State.applyMr_seq, State.applyFlags_seq]
  exact writeUnits_keeps (P := fun t => t.seq = s.seq) (by simp +contextual) rfl busy o.units

theorem applyPe_dag (s : State) (y : Bool) (busy : List UReg) (o : PeOut) : (s.applyPe y busy o).dag = s.dag := by
  simp only [State.applyPe, State.applyFifo_dag, State.applyMr_dag, State.applyFlags_dag]
  exact writeUnits_keeps (P := fun t => t.dag = s.dag) (by simp +contextual) rfl busy o.units

theorem applyPe_mmr (s : State) (y : Bool) (busy : List UReg) (o : PeOut) : (s.applyPe y busy o).mmr = s.mmr := by
  simp only [State.applyPe, State.applyFifo_mmr, State.applyMr_mmr, State.applyFlags_mmr]
  exact writeUnits_keeps (P := fun t => t.mmr = s.mmr) (by simp +contextual) rfl busy o.units

theorem applyPe_cache (s : State) (y : Bool) (busy : List UReg) (o : PeOut) : (s.applyPe y busy o).cache = s.cache := by
  simp only [State.applyPe, State.applyFifo_cache, State.applyMr_cache, State.applyFlags_cache]
  exact writeUnits_keeps (P := fun t => t.cache = s.cache) (by simp +contextual) rfl busy o.units

theorem applyPe_bus (s : State) (y : Bool) (busy : List UReg) (o : PeOut) : (s.applyPe y busy o).bus = s.bus := by
  simp only [State.applyPe, State.applyFifo_bus, State.applyMr_bus, State.applyFlags_bus]
  exact writeUnits_keeps (P := fun t => t.bus = s.bus) (by simp +contextual) rfl busy o.units

theorem applyPe_posted (s : State) (y : Bool) (busy : List UReg) (o : PeOut) : (s.applyPe y busy o).posted = s.posted := by
  simp only [State.applyPe, State.applyFifo_posted, State.applyMr_posted, State.applyFlags_posted]
  exact writeUnits_keeps (P := fun t => t.posted = s.posted) (by simp +contextual) rfl busy o.units

theorem applyPe_mem (s : State) (y : Bool) (busy : List UReg) (o : PeOut) : (s.applyPe y busy o).mem = s.mem := by
  simp only [State.applyPe, State.applyFifo_mem, State.applyMr_mem, State.applyFlags_mem]
  exact writeUnits_keeps (P := fun t => t.mem = s.mem) (by simp +contextual) rfl busy o.units

theorem applyPe_excl (s : State) (y : Bool) (busy : List UReg) (o : PeOut) : (s.applyPe y busy o).excl = s.excl := by
  simp only [State.applyPe, State.applyFifo_excl, State.applyMr_excl, State.applyFlags_excl]
  exact writeUnits_keeps (P := fun t => t.excl = s.excl) (by simp +contextual) rfl busy o.units

theorem applyPe_bdry (s : State) (y : Bool) (busy : List UReg) (o : PeOut) : (s.applyPe y busy o).bdry = s.bdry := by
  simp only [State.applyPe, State.applyFifo_bdry, State.applyMr_bdry, State.applyFlags_bdry]
  exact writeUnits_keeps (P := fun t => t.bdry = s.bdry) (by simp +contextual) rfl busy o.units

theorem applyPe_free (s : State) (y : Bool) (busy : List UReg) (o : PeOut) : (s.applyPe y busy o).free = s.free := by
  simp only [State.applyPe, State.applyFifo_free, State.applyMr_free, State.applyFlags_free]
  exact writeUnits_keeps (P := fun t => t.free = s.free) (by simp +contextual) rfl busy o.units

/-- The system registers of a computation: the arithmetic status of the element, nothing else. -/
theorem applyPe_sys (s : State) (y : Bool) (busy : List UReg) (o : PeOut) :
    (s.applyPe y busy o).sys =
      if y then { s.sys with astaty := o.astat s.sys.astaty, stkyy := o.sticky.apply s.sys.stkyy }
      else { s.sys with astatx := o.astat s.sys.astatx, stkyx := o.sticky.apply s.sys.stkyx } := by
  simp only [State.applyPe, State.applyFifo_sys, State.applyMr_sys]
  have h : (o.units.foldl (State.writeUnit y) (s, busy)).1.sys = s.sys :=
    writeUnits_keeps (P := fun t => t.sys = s.sys) (by simp +contextual) rfl busy o.units
  cases y <;> simp [State.applyFlags, h]

@[simp] theorem applyPe_mode1Act (s : State) (y : Bool) (busy : List UReg) (o : PeOut) :
    (s.applyPe y busy o).sys.mode1Act = s.sys.mode1Act := by
  rw [applyPe_sys]; cases y <;> rfl

theorem applyPe_astat (s : State) (y z : Bool) (busy : List UReg) (o : PeOut) :
    (s.applyPe y busy o).astat z = if z = y then o.astat (s.astat z) else s.astat z := by
  unfold State.astat
  rw [applyPe_sys]; cases y <;> cases z <;> rfl

theorem applyPe_stky (s : State) (y z : Bool) (busy : List UReg) (o : PeOut) :
    (s.applyPe y busy o).stky z = if z = y then o.sticky.apply (s.stky z) else s.stky z := by
  unfold State.stky
  rw [applyPe_sys]; cases y <;> cases z <;> rfl

/-- The multiplier result registers after a computation. -/
theorem applyPe_mrPhys (s : State) (y : Bool) (busy : List UReg) (o : PeOut) (z bg : Bool) :
    (s.applyPe y busy o).data.mrPhys z bg =
      match o.mr with
      | none => s.data.mrPhys z bg
      | some (b, v) => if z = y ∧ bg = b then v else s.data.mrPhys z bg := by
  have h : (o.units.foldl (State.writeUnit y) (s, busy)).1.data.mrPhys z bg = s.data.mrPhys z bg :=
    writeUnits_keeps (P := fun t => t.data.mrPhys z bg = s.data.mrPhys z bg) (by simp +contextual) rfl busy o.units
  have hf : ∀ t : State, (t.applyFifo o).data.mrPhys z bg = t.data.mrPhys z bg := by
    intro t; unfold State.applyFifo Data.mrPhys; cases z <;> cases bg <;> (repeat' split) <;> rfl
  rw [State.applyPe, hf]
  unfold State.applyMr
  cases o.mr with
  | none => simpa using h
  | some p =>
    obtain ⟨b, v⟩ := p
    simp only [State.applyFlags_data]
    cases y <;> cases b <;> cases z <;> cases bg <;> simpa [Data.setMrPhys, Data.mrPhys] using h

/-- The bit FIFO after a computation. -/
theorem applyPe_fifo (s : State) (y : Bool) (busy : List UReg) (o : PeOut) :
    ((s.applyPe y busy o).data.bff, (s.applyPe y busy o).data.bffwrp) = o.fifo.getD (s.data.bff, s.data.bffwrp) := by
  have h1 : (o.units.foldl (State.writeUnit y) (s, busy)).1.data.bff = s.data.bff :=
    writeUnits_keeps (P := fun t => t.data.bff = s.data.bff) (by simp +contextual) rfl busy o.units
  have h2 : (o.units.foldl (State.writeUnit y) (s, busy)).1.data.bffwrp = s.data.bffwrp :=
    writeUnits_keeps (P := fun t => t.data.bffwrp = s.data.bffwrp) (by simp +contextual) rfl busy o.units
  have hm : ∀ t : State, (t.applyMr y o).data.bff = t.data.bff ∧ (t.applyMr y o).data.bffwrp = t.data.bffwrp := by
    intro t; unfold State.applyMr; split
    · exact ⟨rfl, rfl⟩
    · unfold Data.setMrPhys; split <;> exact ⟨rfl, rfl⟩
  unfold State.applyPe State.applyFifo
  cases o.fifo with
  | none => simp [hm, h1, h2]
  | some p => rfl

theorem applyPe_px (s : State) (y : Bool) (busy : List UReg) (o : PeOut) : (s.applyPe y busy o).data.px = s.data.px := by
  have h1 : (o.units.foldl (State.writeUnit y) (s, busy)).1.data.px = s.data.px :=
    writeUnits_keeps (P := fun t => t.data.px = s.data.px) (by simp +contextual) rfl busy o.units
  have hm : ∀ t : State, (t.applyMr y o).data.px = t.data.px := by
    intro t; unfold State.applyMr; split
    · rfl
    · unfold Data.setMrPhys; split <;> rfl
  unfold State.applyPe State.applyFifo
  cases o.fifo with
  | none => simp [hm, h1]
  | some p => simp [hm, h1]

/-- The data registers after a computation are those after its results. -/
theorem applyPe_dreg (s : State) (y : Bool) (busy : List UReg) (o : PeOut) (z : Bool) (k : RegNo) :
    (s.applyPe y busy o).dreg z k = (o.units.foldl (State.writeUnit y) (s, busy)).1.dreg z k := by
  have hs : (o.units.foldl (State.writeUnit y) (s, busy)).1.sys = s.sys :=
    writeUnits_keeps (P := fun t => t.sys = s.sys) (by simp +contextual) rfl busy o.units
  have key : ∀ t t' : State, t'.sys.mode1Act = t.sys.mode1Act → t'.data.r = t.data.r → t'.data.rAlt = t.data.rAlt →
      t'.data.s = t.data.s → t'.data.sAlt = t.data.sAlt → t'.dreg z k = t.dreg z k := by
    intro t t' hm h1 h2 h3 h4
    simp [State.dreg, altData_congr hm, h1, h2, h3, h4]
  apply key
  · rw [applyPe_mode1Act, hs]
  all_goals
    unfold State.applyPe State.applyFifo State.applyMr State.applyFlags Data.setMrPhys
    (repeat' split) <;> rfl

theorem applyPe_hiddenDreg (s : State) (y : Bool) (busy : List UReg) (o : PeOut) (z : Bool) (k : RegNo) :
    (s.applyPe y busy o).hiddenDreg z k = s.hiddenDreg z k := by
  have hs : (o.units.foldl (State.writeUnit y) (s, busy)).1.sys = s.sys :=
    writeUnits_keeps (P := fun t => t.sys = s.sys) (by simp +contextual) rfl busy o.units
  have hh : (o.units.foldl (State.writeUnit y) (s, busy)).1.hiddenDreg z k = s.hiddenDreg z k :=
    writeUnits_keeps (P := fun t => t.hiddenDreg z k = s.hiddenDreg z k) (by simp +contextual) rfl busy o.units
  have key : ∀ t t' : State, t'.sys.mode1Act = t.sys.mode1Act → t'.data.r = t.data.r → t'.data.rAlt = t.data.rAlt →
      t'.data.s = t.data.s → t'.data.sAlt = t.data.sAlt → t'.hiddenDreg z k = t.hiddenDreg z k := by
    intro t t' hm h1 h2 h3 h4
    simp [State.hiddenDreg, altData_congr hm, h1, h2, h3, h4]
  rw [← hh]
  apply key
  · rw [applyPe_mode1Act, hs]
  all_goals
    unfold State.applyPe State.applyFifo State.applyMr State.applyFlags Data.setMrPhys
    (repeat' split) <;> rfl

/-- One result to a register that no load takes. -/
theorem applyPe_single {s : State} {y : Bool} {busy : List UReg} {o : PeOut} {n : RegNo} {v : Reg40}
    (ho : o.units = [[(n, v)]]) (hb : peReg y n ∉ busy) : (s.applyPe y busy o).dreg y n = v := by
  rw [applyPe_dreg, ho]
  simp [State.writeUnit, hb]

/-! ### A computation alone -/

/-- A computation alone, spelled out: PEx first, PEy in SIMD mode. -/
theorem runAlone_eq (s : State) (f : Bool → PeOut) :
    s.runAlone f = if s.simd then (s.applyPe false [] (f false)).applyPe true [] (f true) else s.applyPe false [] (f false) := by
  unfold State.runAlone State.runPe
  cases s.simd <;> simp

theorem runAlone_mode1Act (s : State) (f : Bool → PeOut) : (s.runAlone f).sys.mode1Act = s.sys.mode1Act := by
  rw [runAlone_eq]; split <;> simp

theorem runAlone_astat (s : State) (f : Bool → PeOut) (y : Bool) :
    (s.runAlone f).astat y = if s.runs y then (f y).astat (s.astat y) else s.astat y := by
  rw [runAlone_eq]; cases h : s.simd <;> cases y <;> simp [applyPe_astat, State.runs, h]

theorem runAlone_stky (s : State) (f : Bool → PeOut) (y : Bool) :
    (s.runAlone f).stky y = if s.runs y then (f y).sticky.apply (s.stky y) else s.stky y := by
  rw [runAlone_eq]; cases h : s.simd <;> cases y <;> simp [applyPe_stky, State.runs, h]

theorem runAlone_mrPhys (s : State) (f : Bool → PeOut) (z bg : Bool) :
    (s.runAlone f).data.mrPhys z bg =
      if s.runs z then
        (match (f z).mr with
        | none => s.data.mrPhys z bg
        | some (b, v) => if bg = b then v else s.data.mrPhys z bg)
      else s.data.mrPhys z bg := by
  rw [runAlone_eq]
  cases h : s.simd <;> cases z <;> cases h1 : (f false).mr <;> cases h2 : (f true).mr <;>
    simp [State.runs, h, applyPe_mrPhys, h1, h2]

/-- One result to register `n` on the executing elements. -/
theorem runAlone_single {s : State} {f : Bool → PeOut} {n : RegNo} {v : Bool → Reg40}
    (ho : ∀ y, (f y).units = [[(n, v y)]]) {y : Bool} (hy : s.runs y = true) : (s.runAlone f).dreg y n = v y := by
  rw [runAlone_eq]
  cases y with
  | true =>
    have h : s.simd = true := by simpa [State.runs] using hy
    simp only [h, if_true]
    exact applyPe_single (ho true) (by simp)
  | false =>
    split
    · rw [applyPe_dreg, writeUnits_other _ _ _ (.inl (by simp))]
      exact applyPe_single (ho false) (by simp)
    · exact applyPe_single (ho false) (by simp)

theorem runAlone_dreg_other {s : State} {f : Bool → PeOut} {y : Bool} {k : RegNo}
    (h : s.runs y = false ∨ ∀ u ∈ (f y).units, ∀ q ∈ u, q.1 ≠ k) : (s.runAlone f).dreg y k = s.dreg y k := by
  rw [runAlone_eq]
  cases y with
  | true =>
    cases hs : s.simd with
    | true =>
      simp only [State.runs, hs, Bool.not_true, Bool.or_true, reduceCtorEq, false_or, if_true] at h ⊢
      rw [applyPe_dreg, writeUnits_other _ _ _ (.inr h), applyPe_dreg, writeUnits_other _ _ _ (.inl (by simp))]
    | false =>
      simp only [if_false, Bool.false_eq_true]
      rw [applyPe_dreg, writeUnits_other _ _ _ (.inl (by simp))]
  | false =>
    have h' : ∀ u ∈ (f false).units, ∀ q ∈ u, q.1 ≠ k := by simpa [State.runs] using h
    have h1 : (s.applyPe false [] (f false)).dreg false k = s.dreg false k := by
      rw [applyPe_dreg, writeUnits_other _ _ _ (.inr h')]
    split
    · rw [applyPe_dreg, writeUnits_other _ _ _ (.inl (by simp)), h1]
    · exact h1

/-- What a computation alone leaves outside the data registers and the arithmetic status. -/
theorem runAlone_outside (s : State) (f : Bool → PeOut) : SameOutside s (s.runAlone f) := by
  have hm : (s.runAlone f).mem = s.mem := by
    rw [runAlone_eq]; split <;> simp [applyPe_mem]
  rw [runAlone_eq] at hm ⊢
  constructor
  · split <;> simp [applyPe_dag]
  · split <;> simp [applyPe_seq]
  · unfold SameSys; split <;> simp [applyPe_sys]
  · split <;> simp [applyPe_mmr]
  · split <;> simp [applyPe_cache]
  · split <;> simp [applyPe_bus]
  · split <;> simp [applyPe_posted]
  · intro p; rw [hm]
  · exact hm
  · split <;> simp [applyPe_excl]
  · split <;> simp [applyPe_bdry]
  · split <;> simp [applyPe_free]
  · split <;> simp [applyPe_px]

theorem runAlone_hidden (s : State) (f : Bool → PeOut) (y : Bool) (n : RegNo) :
    (s.runAlone f).hiddenDreg y n = s.hiddenDreg y n := by
  rw [runAlone_eq]; split <;> simp [applyPe_hiddenDreg]

theorem runAlone_sameMr {s : State} {f : Bool → PeOut} (h : ∀ y, (f y).mr = none) : SameMr s (s.runAlone f) := by
  intro y bg; rw [runAlone_mrPhys, h y]; simp

theorem runAlone_sameFifo {s : State} {f : Bool → PeOut} (h : ∀ y, (f y).fifo = none) : SameFifo s (s.runAlone f) := by
  have one : ∀ (t : State) (y : Bool), (t.applyPe y [] (f y)).data.bff = t.data.bff ∧ (t.applyPe y [] (f y)).data.bffwrp = t.data.bffwrp := by
    intro t y
    have := applyPe_fifo t y [] (f y)
    rw [h y] at this
    simpa using this
  unfold SameFifo
  rw [runAlone_eq]
  split
  · rw [(one _ true).1, (one _ true).2]; exact one s false
  · exact one s false

/-- The frame of a computation alone, from what its element parts may write. -/
theorem runAlone_frame {s : State} {f : Bool → PeOut} {regs : List RegNo} {flags sticky : Word}
    (hr : ∀ y, ∀ u ∈ (f y).units, ∀ q ∈ u, q.1 ∈ regs)
    (hf : ∀ y a, (f y).astat a &&& ~~~flags = a &&& ~~~flags)
    (hs : ∀ y a, (f y).sticky.apply a &&& ~~~sticky = a &&& ~~~sticky) :
    ComputeFrame s (s.runAlone f) regs flags sticky where
  outside := runAlone_outside s f
  dregs y n h := runAlone_dreg_other (h.imp id fun hn u hu q hq e => hn (e ▸ hr y u hu q hq))
  hidden := runAlone_hidden s f
  astat y := by rw [runAlone_astat]; split <;> simp [hf]
  astatIdle y h := by rw [runAlone_astat, h]; rfl
  stky y := by rw [runAlone_stky]; split <;> simp [hs]
  stkyIdle y h := by rw [runAlone_stky, h]; rfl
  stkyKeeps y := by
    rw [runAlone_stky]
    split
    · simp only [Sticky.apply]; ext i hi; simp +contextual
    · simp

end Sys2Proof.Machine
end

