-- ==== Sys2Proof/Laws/Encoding.lean ====
section
/-! SUPPORT. Fields placed in a word and read back, for the round trip of decoder and encoder. -/

namespace Sys2Proof

/-- A bit of a placed field. -/
theorem getLsbD_place {k} (n lo i: Nat) (f : BitVec k) :
   (place n lo f).getLsbD i = (decide (i < n) && !decide (i < lo) && (decide (i - lo < n) && f.getLsbD (i-lo))) := by
  simp [place, BitVec.getLsbD_shiftLeft, BitVec.getLsbD_setWidth]

/-- The field read where it was placed. -/
theorem extract_place {k} (n lo : Nat) (f : BitVec k) (h : lo + k ≤ n) :
   (place n lo f).extractLsb' lo k = f := by
  apply BitVec.eq_of_getLsbD_eq; intro i hi
  rw [BitVec.getLsbD_extractLsb', getLsbD_place]
  have h1 : lo + i < n := by omega
  have h2 : ¬ lo + i < lo := by omega
  have h3 : i < n := by omega
  have h4 : lo + i - lo = i := by omega
  simp [h1, h2, h3, h4, hi]

/-- A part of a placed field. -/
theorem extract_place_sub {k} (n lo a len : Nat) (f : BitVec k) (h1 : lo ≤ a)  (h : a + len ≤ n) :
   (place n lo f).extractLsb' a len = f.extractLsb' (a-lo) len := by
  apply BitVec.eq_of_getLsbD_eq; intro i hi
  rw [BitVec.getLsbD_extractLsb', getLsbD_place, BitVec.getLsbD_extractLsb']
  have e : a + i - lo = a - lo + i := by omega
  have h2 : a + i < n := by omega
  have h3 : ¬ a + i < lo := by omega
  have h4 : a - lo + i < n := by omega
  simp [e, h2, h3, h4, hi]

/-- Below a placed field there is nothing. -/
theorem extract_place_low {k} (n lo a len : Nat) (f : BitVec k) (h1 : a + len ≤ lo)  :
   (place n lo f).extractLsb' a len = 0#len := by
  apply BitVec.eq_of_getLsbD_eq; intro i hi
  rw [BitVec.getLsbD_extractLsb', getLsbD_place]
  simp; omega

/-- Above a placed field there is nothing. -/
theorem extract_place_high {k} (n lo a len : Nat) (f : BitVec k) (h1 : lo + k ≤ a)  :
   (place n lo f).extractLsb' a len = 0#len := by
  apply BitVec.eq_of_getLsbD_eq; intro i hi
  rw [BitVec.getLsbD_extractLsb', getLsbD_place, BitVec.getLsbD_of_ge f _ (by omega)]
  simp

/-- One bit inside a placed field. -/
theorem bit_place_in {k} (n lo i : Nat) (f : BitVec k) (h : lo ≤ i) (h2 : i < n) : (place n lo f).getLsbD i = f.getLsbD (i - lo) := by
  rw [getLsbD_place]
  have h3 : ¬ i < lo := by omega
  have h4 : i - lo < n := by omega
  simp [h2, h3, h4]

/-- One bit below it. -/
theorem bit_place_low {k} (n lo i : Nat) (f : BitVec k) (h : i < lo) : (place n lo f).getLsbD i = false := by
  rw [getLsbD_place]; simp [h]

/-- One bit above it. -/
theorem bit_place_high {k} (n lo i : Nat) (f : BitVec k) (h : lo + k ≤ i) : (place n lo f).getLsbD i = false := by
  rw [getLsbD_place, BitVec.getLsbD_of_ge f _ (by omega)]; simp

/-- Condition codes decode to their conditions. -/
@[simp] theorem condOf_code (c : Cond) : condOf c.code = c := by cases c <;> rfl

/-- Register codes decode to their registers. -/
@[simp] theorem uregOf_code (u : UReg) : uregOf u.code = .ok u := by
  cases u with
  | sys r => cases r <;> rfl
  | r n | i n | m n | l n | b n | s n => revert n; decide
  | _ => rfl

/-- Reading a field of a word put together. -/
theorem extract_or {w} (x y : BitVec w) (a n : Nat) : (x ||| y).extractLsb' a n = x.extractLsb' a n ||| y.extractLsb' a n := BitVec.extractLsb'_or

/-- A one-bit field. -/
theorem boolBit_get (b : Bool) : (boolBit b).getLsbD 0 = b := by cases b <;> rfl

end Sys2Proof
end

