-- ==== Sys2Proof/Laws/Flags.lean ====
section
/-! SUPPORT. Laws of the flag updates: each bit after an update, and the bits an update leaves alone. -/

namespace Sys2Proof.Machine

open Sys2Proof

theorem flagBit_getLsbD (i k : Nat) (b : Bool) (h : i < 32) : (flagBit i b).getLsbD k = (b && decide (k = i)) := by
  unfold flagBit
  cases b
  · simp
  · by_cases hk : k < 32 <;> by_cases e : k = i <;> simp [BitVec.getLsbD_shiftLeft, hk, e] <;> omega

theorem putBit_getLsbD (x : Word) (i k : Nat) (b : Bool) (h : i < 32) :
    (putBit x i b).getLsbD k = if k = i then b else x.getLsbD k := by
  unfold putBit
  rw [BitVec.getLsbD_or, flagBit_getLsbD _ _ _ h]
  by_cases hk : k < 32 <;> by_cases e : k = i <;> simp [BitVec.getLsbD_shiftLeft, hk, e] <;> grind

/-- ORing bits outside `m` into a word is not seen under `m`. -/
theorem or_and_of_and_eq_zero {w : Nat} {a c m : BitVec w} (h : c &&& m = 0#w) : (a ||| c) &&& m = a &&& m := by
  rw [BitVec.and_comm, BitVec.and_or_distrib_left, BitVec.and_comm m c, h, BitVec.or_zero, BitVec.and_comm]

/-! ### ALU -/

/-- The seven flags after an ALU operation. -/
theorem AluFlags.apply_bits (f : AluFlags) (a : Word) :
    (f.apply a).getLsbD 0 = f.az ∧ (f.apply a).getLsbD 1 = f.av ∧ (f.apply a).getLsbD 2 = f.an ∧
      (f.apply a).getLsbD 3 = f.ac ∧ (f.apply a).getLsbD 4 = f.as ∧ (f.apply a).getLsbD 5 = f.ai ∧
      (f.apply a).getLsbD 10 = f.af := by
  simp [AluFlags.apply, flagBit_getLsbD, -BitVec.getLsbD_eq_getElem]

/-- An ALU operation writes the ALU flags only. -/
theorem AluFlags.apply_frame (f : AluFlags) (a : Word) : f.apply a &&& ~~~aluFlagMask = a &&& ~~~aluFlagMask := by
  have h : ∀ (i : Nat) (b : Bool), (1#32 <<< i) &&& ~~~aluFlagMask = 0#32 → flagBit i b &&& ~~~aluFlagMask = 0#32 := by
    intro i b hi; cases b <;> simp_all [flagBit]
  simp only [AluFlags.apply]
  iterate 7 rw [or_and_of_and_eq_zero (h _ _ (by decide))]
  rw [BitVec.and_assoc]; rfl

/-- The ALU flags of `f`, as the word under the mask. -/
theorem AluFlags.apply_mask (f : AluFlags) (a : Word) : f.apply a &&& aluFlagMask = f.apply 0#32 := by
  obtain ⟨x0, x1, x2, x3, x4, x5, x6⟩ := f
  have h0 : (a &&& ~~~aluFlagMask) &&& aluFlagMask = 0#32 := by
    rw [BitVec.and_assoc, show ~~~aluFlagMask &&& aluFlagMask = 0#32 from rfl, BitVec.and_zero]
  change ((((((((a &&& ~~~aluFlagMask) ||| _) ||| _) ||| _) ||| _) ||| _) ||| _) ||| _) &&& aluFlagMask = _
  rw [BitVec.and_comm]
  simp only [BitVec.and_or_distrib_left]
  rw [BitVec.and_comm, h0]
  cases x0 <;> cases x1 <;> cases x2 <;> cases x3 <;> cases x4 <;> cases x5 <;> cases x6 <;> rfl

/-! ### Compares -/

/-- CACC after a compare (R132, R735). -/
theorem pushCacc_getLsbD (g : Bool) (a : Word) (k : Nat) :
    (pushCacc g a).getLsbD k =
      if k = 31 then g else if 24 ≤ k ∧ k < 31 then a.getLsbD (k + 1) else a.getLsbD k && decide (k < 24) := by
  unfold pushCacc
  rw [BitVec.getLsbD_or, BitVec.getLsbD_or, BitVec.getLsbD_and, BitVec.getLsbD_and, BitVec.getLsbD_ushiftRight,
    flagBit_getLsbD _ _ _ (by omega), Nat.add_comm 1 k]
  by_cases hk : k < 32
  · have : ∀ j : Fin 32, (0x00FFFFFF#32).getLsbD j = decide (j.val < 24) ∧
        (0x7F000000#32).getLsbD j = decide (24 ≤ j.val ∧ j.val < 31) := by decide
    obtain ⟨h1, h2⟩ := this ⟨k, hk⟩
    simp only at h1 h2
    rw [h1, h2]
    by_cases h31 : k = 31
    · subst h31; simp
    · by_cases h24 : k < 24
      · simp [h31, h24, show ¬ 24 ≤ k by omega]
      · simp [h31, h24, show 24 ≤ k by omega, show k < 31 by omega]
  · simp [BitVec.getLsbD_of_ge, show 32 ≤ k by omega, show ¬ k < 24 by omega, show ¬ k < 31 by omega, show k ≠ 31 by omega]

/-! ### Multiplier and shifter -/

/-- The four flags after a multiplier operation. -/
theorem MulFlags.apply_bits (f : MulFlags) (a : Word) :
    (f.apply a).getLsbD 6 = f.mn ∧ (f.apply a).getLsbD 7 = f.mv ∧ (f.apply a).getLsbD 8 = f.mu ∧
      (f.apply a).getLsbD 9 = f.mi := by
  simp [MulFlags.apply, flagBit_getLsbD, -BitVec.getLsbD_eq_getElem]

/-- A multiplier operation writes the multiplier flags only. -/
theorem MulFlags.apply_frame (f : MulFlags) (a : Word) : f.apply a &&& ~~~mulFlagMask = a &&& ~~~mulFlagMask := by
  have h : ∀ (i : Nat) (b : Bool), (1#32 <<< i) &&& ~~~mulFlagMask = 0#32 → flagBit i b &&& ~~~mulFlagMask = 0#32 := by
    intro i b hi; cases b <;> simp_all [flagBit]
  simp only [MulFlags.apply]
  iterate 4 rw [or_and_of_and_eq_zero (h _ _ (by decide))]
  rw [BitVec.and_assoc]; rfl

/-- The three flags after a shifter operation. -/
theorem ShFlags.apply_bits (f : ShFlags) (a : Word) :
    (f.apply a).getLsbD 11 = f.sv ∧ (f.apply a).getLsbD 12 = f.sz ∧ (f.apply a).getLsbD 13 = f.ss := by
  simp [ShFlags.apply, flagBit_getLsbD, -BitVec.getLsbD_eq_getElem]

/-- A shifter operation writes the shifter flags only. -/
theorem ShFlags.apply_frame (f : ShFlags) (a : Word) : f.apply a &&& ~~~shFlagMask = a &&& ~~~shFlagMask := by
  have h : ∀ (i : Nat) (b : Bool), (1#32 <<< i) &&& ~~~shFlagMask = 0#32 → flagBit i b &&& ~~~shFlagMask = 0#32 := by
    intro i b hi; cases b <;> simp_all [flagBit]
  simp only [ShFlags.apply]
  iterate 3 rw [or_and_of_and_eq_zero (h _ _ (by decide))]
  rw [BitVec.and_assoc]; rfl

/-! ### Sticky bits -/

/-- The sticky bits of an operation are ORed in. -/
theorem Sticky.apply_eq (f : Sticky) (a : Word) : f.apply a = a ||| f.apply 0#32 := by
  simp only [Sticky.apply, BitVec.zero_or, BitVec.or_assoc]

/-- Sticky bits outside a mask, seen from the mask's complement. -/
theorem Sticky.apply_frame (f : Sticky) (m a : Word) (h : f.apply 0#32 &&& ~~~m = 0#32) :
    f.apply a &&& ~~~m = a &&& ~~~m := by
  rw [Sticky.apply_eq, or_and_of_and_eq_zero h]

/-! ### The 32-bit field -/

@[simp] theorem hi32_reg40 (v : Word) : hi32 (reg40 v) = v := by
  unfold hi32 reg40
  ext i hi
  rw [BitVec.getElem_extractLsb', BitVec.getLsbD_append]
  simp [show ¬ 8 + i < 8 by omega, hi]

theorem fx_of_dreg {t : State} {y : Bool} {n : RegNo} {v : Word} (h : t.dreg y n = reg40 v) : t.fx y n = v := by
  rw [State.fx, h, hi32_reg40]

end Sys2Proof.Machine
end

