-- ==== Sys2Proof/Laws/Fixed.lean ====
section
/-! SUPPORT. Laws of the 32-bit adder (R726, R727) and of results written to one register. -/

namespace Sys2Proof.Machine

open Sys2Proof

/-- Overflow of the adder is the exact signed sum leaving the 32-bit range (R726). -/
theorem add3_v (a b : Word) (c : Bool) :
    (add3 a b c).v = decide (a.toInt + b.toInt + (c.toNat : Int) < -2 ^ 31 ∨ 2 ^ 31 - 1 < a.toInt + b.toInt + (c.toNat : Int)) := by
  have ha := a.isLt
  have hb := b.isLt
  have hc : c.toNat ≤ 1 := by cases c <;> simp
  simp only [add3, BitVec.msb_eq_decide, BitVec.toInt_eq_toNat_cond, BitVec.toNat_ofNat]
  rw [Bool.eq_iff_iff]
  simp only [Bool.and_eq_true, beq_iff_eq, bne_iff_ne, ne_eq, decide_eq_true_eq, decide_eq_decide]
  split <;> split <;> omega

/-- The raw sum is the exact signed sum, wrapped (R726). -/
theorem add3_r (a b : Word) (c : Bool) : (add3 a b c).r.toInt = (a.toInt + b.toInt + (c.toNat : Int)).bmod (2 ^ 32) := by
  have ha := a.isLt
  have hb := b.isLt
  have hc : c.toNat ≤ 1 := by cases c <;> simp
  simp only [add3, BitVec.toInt_eq_toNat_cond, BitVec.toNat_ofNat, Int.bmod_def]
  omega

/-- The saturated or wrapped sum (R727). -/
theorem add3_out (a b : Word) (c sat : Bool) :
    ((add3 a b c).out sat).toInt =
      if (add3 a b c).v && sat then (if 0 < a.toInt + b.toInt + (c.toNat : Int) then 2 ^ 31 - 1 else -2 ^ 31)
      else (a.toInt + b.toInt + (c.toNat : Int)).bmod (2 ^ 32) := by
  unfold Sum.out
  by_cases h : ((add3 a b c).v && sat) = true
  · rw [if_pos h, if_pos h]
    have hv : (add3 a b c).v = true := by simp_all
    rw [add3_v, decide_eq_true_eq] at hv
    have hm : (add3 a b c).r.msb = decide (0 < a.toInt + b.toInt + (c.toNat : Int)) := by
      rw [BitVec.msb_eq_toInt, add3_r]
      have ha := BitVec.toInt_lt (x := a)
      have hb := BitVec.toInt_lt (x := b)
      have ha' := BitVec.le_toInt (x := a)
      have hb' := BitVec.le_toInt (x := b)
      have hc : c.toNat ≤ 1 := by cases c <;> simp
      rw [decide_eq_decide]
      simp only [Int.bmod_def]
      omega
    rw [hm]
    by_cases hp : 0 < a.toInt + b.toInt + (c.toNat : Int) <;> simp only [hp, decide_true, decide_false, if_true, if_false] <;> decide
  · rw [if_neg h, if_neg h, add3_r]

/-! ### One result to one register -/

/-- An ALU operation alone, with one result: its register, its flags, its sticky bits, and nothing else. -/
theorem runAlone_alu (s : State) (n : RegNo) (r : Bool → AluRes) (sticky : Word)
    (hs : ∀ y, (r y).sticky.apply 0#32 &&& ~~~sticky = 0#32) :
    let t := s.runAlone fun y => (r y).to n
    ComputeFrame s t [n] aluFlagMask sticky ∧ SameMr s t ∧ SameFifo s t ∧
      ∀ y, s.runs y = true →
        t.dreg y n = (r y).value ∧
        AluFlagsAre t y (r y).flags.az (r y).flags.av (r y).flags.an (r y).flags.ac (r y).flags.as (r y).flags.ai (r y).flags.af ∧
        t.stky y = (r y).sticky.apply (s.stky y) := by
  refine ⟨runAlone_frame ?_ ?_ ?_, runAlone_sameMr fun _ => rfl, runAlone_sameFifo fun _ => rfl, fun y hy => ⟨?_, ?_, ?_⟩⟩
  · intro y u hu q hq
    simp only [AluRes.to, List.mem_singleton] at hu
    subst hu
    simp only [List.mem_singleton] at hq
    simp [hq]
  · exact fun y a => AluFlags.apply_frame _ a
  · exact fun y a => Sticky.apply_frame _ _ a (hs y)
  · exact runAlone_single (v := fun y => (r y).value) (fun _ => rfl) hy
  · unfold AluFlagsAre State.flagOf
    rw [runAlone_astat, if_pos hy]
    exact AluFlags.apply_bits _ _
  · rw [runAlone_stky, if_pos hy]
    rfl

/-- A shifter operation alone, with one result. -/
theorem runAlone_shift (s : State) (n : RegNo) (r : Bool → ShRes) :
    let t := s.runAlone fun y => (r y).to n
    ComputeFrame s t [n] shFlagMask 0#32 ∧ SameMr s t ∧ SameFifo s t ∧
      ∀ y, s.runs y = true →
        t.dreg y n = reg40 (r y).value ∧ ShFlagsAre t y (r y).flags.sv (r y).flags.sz (r y).flags.ss := by
  refine ⟨runAlone_frame ?_ ?_ ?_, runAlone_sameMr fun _ => rfl, runAlone_sameFifo fun _ => rfl, fun y hy => ⟨?_, ?_⟩⟩
  · intro y u hu q hq
    simp only [ShRes.to, List.mem_singleton] at hu
    subst hu
    simp only [List.mem_singleton] at hq
    simp [hq]
  · exact fun y a => ShFlags.apply_frame _ a
  · exact fun y a => Sticky.apply_frame _ _ a (by simp [ShRes.to, Sticky.apply, flagBit])
  · exact runAlone_single (v := fun y => reg40 (r y).value) (fun _ => rfl) hy
  · unfold ShFlagsAre State.flagOf
    rw [runAlone_astat, if_pos hy]
    exact ShFlags.apply_bits _ _

end Sys2Proof.Machine
end

