-- ==== Sys2Proof/Laws/Memory.lean ====
section
/-! SUPPORT. Laws of memory: what a read gives after a write, and that every memory operation keeps the canonical form. -/

namespace Sys2Proof.Machine

open Sys2Proof Config

/-! ### Lists of cells -/

theorem lookupCell_eraseCell_self (p : Nat) (l : List Host.Cell) : lookupCell p (eraseCell p l) = none := by
  induction l with
  | nil => rfl
  | cons c t ih =>
    obtain ⟨a, w⟩ := c
    simp only [eraseCell]
    split
    · exact ih
    · simp [lookupCell, *]

theorem lookupCell_eraseCell_other {p q : Nat} (h : q ≠ p) (l : List Host.Cell) :
    lookupCell q (eraseCell p l) = lookupCell q l := by
  induction l with
  | nil => rfl
  | cons c t ih =>
    obtain ⟨a, w⟩ := c
    simp only [eraseCell, lookupCell]
    split
    · subst a
      rw [ih, if_neg (Ne.symm h)]
    · simp [lookupCell, ih]

theorem lookupCell_insertCell_self (p : Nat) (v : Byte) (l : List Host.Cell) (h : lookupCell p l = none) :
    lookupCell p (insertCell p v l) = some v := by
  induction l with
  | nil => simp [insertCell, lookupCell]
  | cons c t ih =>
    obtain ⟨a, w⟩ := c
    simp only [lookupCell] at h
    split at h
    · cases h
    · simp only [insertCell]
      split
      · simp [lookupCell]
      · simp [lookupCell, ih h, *]

theorem lookupCell_insertCell_other {p q : Nat} (h : q ≠ p) (v : Byte) (l : List Host.Cell) :
    lookupCell q (insertCell p v l) = lookupCell q l := by
  induction l with
  | nil => simp [insertCell, lookupCell, Ne.symm h]
  | cons c t ih =>
    obtain ⟨a, w⟩ := c
    simp only [insertCell]
    split
    · simp [lookupCell, Ne.symm h]
    · simp [lookupCell, ih]

/-- A higher lower bound still holds of a list without the lower addresses. -/
theorem wfCells_mono {fill : Nat → Byte} {lo lo' : Nat} {l : List Host.Cell} (h : wfCells fill lo' l = true) (hl : lo ≤ lo') :
    wfCells fill lo l = true := by
  cases l with
  | nil => rfl
  | cons c t =>
    obtain ⟨a, w⟩ := c
    simp only [wfCells, Bool.and_eq_true, decide_eq_true_eq] at h ⊢
    exact ⟨⟨by omega, h.1.2⟩, h.2⟩

theorem eraseCell_wfCells {fill : Nat → Byte} (p : Nat) {lo : Nat} {l : List Host.Cell} (h : wfCells fill lo l = true) :
    wfCells fill lo (eraseCell p l) = true := by
  induction l generalizing lo with
  | nil => rfl
  | cons c t ih =>
    obtain ⟨a, w⟩ := c
    simp only [wfCells, Bool.and_eq_true, decide_eq_true_eq] at h
    simp only [eraseCell]
    split
    · exact wfCells_mono (ih h.2) (by omega)
    · simp only [wfCells, Bool.and_eq_true, decide_eq_true_eq]
      exact ⟨h.1, ih h.2⟩

theorem insertCell_wfCells {fill : Nat → Byte} {p : Nat} {v : Byte} (hv : v ≠ fill p) {lo : Nat} (hp : lo ≤ p)
    {l : List Host.Cell} (h : wfCells fill lo l = true) (hn : lookupCell p l = none) :
    wfCells fill lo (insertCell p v l) = true := by
  induction l generalizing lo with
  | nil => simp [insertCell, wfCells, hv, hp]
  | cons c t ih =>
    obtain ⟨a, w⟩ := c
    simp only [wfCells, Bool.and_eq_true, decide_eq_true_eq] at h
    simp only [lookupCell] at hn
    split at hn
    · cases hn
    · simp only [insertCell]
      split <;> simp only [wfCells, Bool.and_eq_true, decide_eq_true_eq]
      · exact ⟨⟨hp, hv⟩, ⟨by omega, h.1.2⟩, h.2⟩
      · exact ⟨h.1, ih (by omega) h.2 hn⟩

theorem wfCells_filter {fill fill' : Nat → Byte} {keep : Host.Cell → Bool} (hk : ∀ c, keep c = true → fill c.1 = fill' c.1)
    {lo : Nat} {l : List Host.Cell} (h : wfCells fill lo l = true) : wfCells fill' lo (l.filter keep) = true := by
  induction l generalizing lo with
  | nil => rfl
  | cons c t ih =>
    obtain ⟨a, w⟩ := c
    simp only [wfCells, Bool.and_eq_true, decide_eq_true_eq] at h
    simp only [List.filter]
    split
    · rename_i hc
      simp only [wfCells, Bool.and_eq_true, decide_eq_true_eq]
      exact ⟨⟨h.1.1, hk _ hc ▸ h.1.2⟩, ih h.2⟩
    · exact wfCells_mono (ih h.2) (by omega)

/-! ### One byte -/

@[simp] theorem Memory.write_lost (m : Memory) (p : Nat) (v : Byte) : (m.write p v).lost = m.lost := rfl
@[simp] theorem Memory.write_power (m : Memory) (p : Nat) (v : Byte) : (m.write p v).power = m.power := rfl
@[simp] theorem Memory.write_fill (m : Memory) (p : Nat) (v : Byte) : (m.write p v).fill = m.fill := rfl

/-- A read after a write to the same address gives the value written. -/
@[simp] theorem Memory.read_write_self (m : Memory) (p : Nat) (v : Byte) : (m.write p v).read p = v := by
  simp only [Memory.read, Memory.write_fill]
  simp only [Memory.write]
  split
  · rename_i h
    simp [lookupCell_eraseCell_self, h]
  · simp [lookupCell_insertCell_self, lookupCell_eraseCell_self]

/-- A write leaves every other address alone. -/
theorem Memory.read_write_other (m : Memory) {p q : Nat} (v : Byte) (h : q ≠ p) : (m.write p v).read q = m.read q := by
  simp only [Memory.read, Memory.write_fill]
  simp only [Memory.write]
  split
  · rw [lookupCell_eraseCell_other h]
  · rw [lookupCell_insertCell_other h, lookupCell_eraseCell_other h]

/-- A write keeps the canonical form. -/
theorem Memory.write_wf {m : Memory} (h : m.wf = true) (p : Nat) (v : Byte) : (m.write p v).wf = true := by
  simp only [Memory.wf, Memory.write_fill] at h ⊢
  simp only [Memory.write]
  split
  · exact eraseCell_wfCells p h
  · rename_i hv
    exact insertCell_wfCells hv (Nat.zero_le p) (eraseCell_wfCells p h) (lookupCell_eraseCell_self p m.cells)

/-! ### Several bytes -/

@[simp] theorem Memory.writeLE_lost (m : Memory) (p v n : Nat) : (m.writeLE p v n).lost = m.lost := by
  induction n generalizing m p v with
  | zero => rfl
  | succ n ih => simp [Memory.writeLE, ih]

@[simp] theorem Memory.writeLE_power (m : Memory) (p v n : Nat) : (m.writeLE p v n).power = m.power := by
  induction n generalizing m p v with
  | zero => rfl
  | succ n ih => simp [Memory.writeLE, ih]

/-- A store of `n` bytes leaves every byte outside them alone. -/
theorem Memory.read_writeLE_other (m : Memory) {p q n : Nat} (v : Nat) (h : q < p ∨ p + n ≤ q) :
    (m.writeLE p v n).read q = m.read q := by
  induction n generalizing m p v with
  | zero => rfl
  | succ n ih =>
    simp only [Memory.writeLE]
    rw [ih _ _ (by omega), Memory.read_write_other _ _ (by omega)]

/-- A read depends only on the bytes it reads. -/
theorem Memory.readLE_congr {m m' : Memory} {p n : Nat} (h : ∀ q, p ≤ q → q < p + n → m.read q = m'.read q) :
    m.readLE p n = m'.readLE p n := by
  induction n generalizing p with
  | zero => rfl
  | succ n ih =>
    simp only [Memory.readLE]
    rw [h p (by omega) (by omega), ih fun q h1 h2 => h q (by omega) (by omega)]

/-- A read of `n` bytes after a store of them gives the value stored, modulo its width (R257). -/
theorem Memory.readLE_writeLE (m : Memory) (p v n : Nat) : (m.writeLE p v n).readLE p n = v % 256 ^ n := by
  induction n generalizing m p v with
  | zero => simp [Memory.readLE, Nat.mod_one]
  | succ n ih =>
    simp only [Memory.readLE, Memory.writeLE]
    rw [ih, Memory.read_writeLE_other _ _ (by omega), Memory.read_write_self, BitVec.toNat_ofNat,
      show (256 : Nat) ^ (n + 1) = 256 * 256 ^ n from pow_succ' 256 n]
    exact (Nat.mod_mul (x := v) (a := 256) (b := 256 ^ n)).symm

/-- A read of bytes that a store does not touch. -/
theorem Memory.readLE_writeLE_other (m : Memory) {p q k n : Nat} (v : Nat) (h : q + k ≤ p ∨ p + n ≤ q) :
    (m.writeLE p v n).readLE q k = m.readLE q k :=
  Memory.readLE_congr fun a _ _ => Memory.read_writeLE_other m v (by omega)

/-- A store keeps the canonical form. -/
theorem Memory.writeLE_wf {m : Memory} (h : m.wf = true) (p v n : Nat) : (m.writeLE p v n).wf = true := by
  induction n generalizing m p v with
  | zero => exact h
  | succ n ih => exact ih (Memory.write_wf h p _) _ _

theorem Memory.readLE_lt (m : Memory) (p n : Nat) : m.readLE p n < 256 ^ n := by
  induction n generalizing p with
  | zero => simp [Memory.readLE]
  | succ n ih =>
    have h1 := ih (p + 1)
    have h2 := (m.read p).isLt
    simp only [Memory.readLE, Nat.pow_succ]
    omega

/-! ### Power -/

@[simp] theorem Memory.passPower_read (m : Memory) (n p : Nat) : (m.passPower n).read p = m.read p := rfl
@[simp] theorem Memory.passPower_wf (m : Memory) (n : Nat) : (m.passPower n).wf = m.wf := rfl

@[simp] theorem touch_read (s : State) (m : Memory) (t : Target) (p : Nat) : (s.touch m t).read p = m.read p := by
  cases t with
  | l1 b => unfold State.touch; dsimp only; split <;> rfl
  | _ => rfl

@[simp] theorem touch_wf (s : State) (m : Memory) (t : Target) : (s.touch m t).wf = m.wf := by
  cases t with
  | l1 b => unfold State.touch; dsimp only; split <;> rfl
  | _ => rfl

/-- A new power state of the blocks changes no byte. -/
@[simp] theorem Memory.setPower_wf (m : Memory) (v : Vector BlockPower 4) : ({ m with power := v } : Memory).wf = m.wf := rfl

theorem Memory.fill_lose (m : Memory) (b : Fin 4) (k p : Nat) (h : blockOf p ≠ some b) : (m.lose b k).fill p = m.fill p := by
  simp only [Memory.fill, Memory.lose]
  cases hp : blockOf p with
  | none => rfl
  | some c =>
    have : (b : Nat) ≠ (c : Nat) := fun hc => h (by rw [hp, Fin.ext hc])
    simp [Vector.getElem_set_ne, this]

/-- The loss of a block keeps the canonical form. -/
theorem Memory.lose_wf {m : Memory} (h : m.wf = true) (b : Fin 4) (k : Nat) : (m.lose b k).wf = true := by
  refine wfCells_filter (fun c hc => ?_) h
  exact (Memory.fill_lose m b k c.1 (by simpa using hc)).symm

/-! ### Notes on stores into code: no byte changes -/

@[simp] theorem Memory.note_read (m : Memory) (p n q : Nat) : (m.note p n).read q = m.read q := rfl
@[simp] theorem Memory.note_wf (m : Memory) (p n : Nat) : (m.note p n).wf = m.wf := rfl
@[simp] theorem Memory.sync_read (m : Memory) (q : Nat) : m.sync.read q = m.read q := rfl
@[simp] theorem Memory.sync_wf (m : Memory) : m.sync.wf = m.wf := rfl
@[simp] theorem Memory.flushCode_read (m : Memory) (q : Nat) : m.flushCode.read q = m.read q := rfl
@[simp] theorem Memory.flushCode_wf (m : Memory) : m.flushCode.wf = m.wf := rfl
@[simp] theorem Memory.refetch_read (m : Memory) (q : Nat) : m.refetch.read q = m.read q := rfl
@[simp] theorem Memory.refetch_wf (m : Memory) : m.refetch.wf = m.wf := rfl

/-! ### Reads of cache lines -/

/-- Where no byte reads as zero, memory is read as it is. -/
theorem Memory.readSome_none (m : Memory) {z : Nat → Bool} {p n : Nat} (h : ∀ q, p ≤ q → q < p + n → z q = false) :
    m.readSome z p n = m.readLE p n := by
  induction n generalizing p with
  | zero => rfl
  | succ n ih =>
    simp only [Memory.readSome, Memory.readLE]
    rw [h p (by omega) (by omega), ih fun q h1 h2 => h q (by omega) (by omega)]
    simp

/-- With no store under way the registers govern as they are. -/
theorem State.gov_of_posted_nil {s : State} (h : s.posted = []) : s.gov = s.mmr := by
  simp [State.gov, State.governs, h]

/-- A field on which the stores under way agree with the registers governs as it is. -/
theorem State.governs_of_agree {α : Type} [DecidableEq α] {s : State} {f : Mmr → α}
    (h : ∀ p ∈ s.posted, f p.was = f s.mmr) : s.governs f = f s.mmr := by
  simp only [State.governs]
  rw [if_pos (List.all_eq_true.mpr fun p hp => decide_eq_true (h p hp))]

/-- The machine after reset has canonical memory. -/
theorem reset_mem_wf : State.reset.mem.wf = true := rfl

end Sys2Proof.Machine
end

