-- ==== Sys2Proof/Laws/Moves.lean ====
section
/-! SUPPORT. Data moves: where an address leads, what one ordinary 32-bit transfer is, what putting a move into the state
leaves alone. -/

namespace Sys2Proof.Machine

open Sys2Proof

/-! ### Addresses -/

/-- A located address lies in a populated region, outside the core memory-mapped registers. -/
theorem locate_some {a : Nat} {l : Loc} (h : locate a = some l) :
    Config.inCmmrRange a = false ∧ l.region ∈ Config.regions ∧ a = l.region.base + l.off ∧ l.off < l.region.count := by
  unfold locate at h
  split at h
  · exact absurd h (by simp)
  · rename_i hc
    simp only [Option.map_eq_some_iff] at h
    obtain ⟨r, hr, rfl⟩ := h
    have h1 := List.mem_of_find?_eq_some hr
    have h2 := List.find?_some hr
    simp only [decide_eq_true_eq] at h2
    exact ⟨by simpa using hc, h1, by simp; omega, by simp; omega⟩

theorem spaceOf_locate {a : Word} {l : Loc} (h : locate a.toNat = some l) : spaceOf a = some l.region.space := by
  simp [spaceOf, h]

/-- An element inside its region, outside the storage of a cache, where the window of R372 and the ranges let it be. -/
theorem element_ok {s : State} {ea : Word} {r : Config.Region} {off : Nat} {w : Width} {p : Nat}
    (hp : p = physOf r off w (s.imdw r)) (hb : p + w.bytes ≤ r.phys + r.bytes)
    (hc : s.inCache p = false ∧ s.inCache (p + w.bytes - 1) = false)
    (hw : s.seq.cacheHold = 0 ∨ isL1 r.target = true) (hr : s.rangeStop r.target = false) :
    s.element ea r off w = .ok ⟨r, p, w⟩ := by
  unfold State.element
  subst hp
  simp only [hc.1, hc.2, hr]
  rw [if_neg (by omega), if_neg (by simp), if_neg (by rcases hw with h | h <;> simp [h])]
  rfl

/-- The element of an ordinary 32-bit access in normal-word space. -/
theorem element_word {s : State} {ea : Word} {l : Loc} {a p : Nat} (h : locate a = some l) (hs : l.region.space = .nw)
    (hp : p = physOf l.region l.off .w32 false) (hi : s.imdw l.region = false) (hc : PlainBytes s l.region p 4) :
    s.element ea l.region l.off .w32 = .ok ⟨l.region, p, .w32⟩ := by
  obtain ⟨-, -, -, ho⟩ := locate_some h
  refine element_ok (by rw [hp, hi]) ?_ hc.noCache hc.window hc.ranges
  simp [hp, physOf, placeIn, nwPlace, hs, Width.bytes, Config.Region.bytes, Config.Space.unit]
  omega

theorem boundary_word (ex pair : Bool) : boundary .nw .w32 ex pair = 1 := rfl

/-! ### One move as effects -/

/-- A move whose address resolves to memory. -/
theorem moveFx_ok {s : State} {m : Move} {ea : Word} {l : Loc} {upd : Option IndexWrite} {z : Size} {il cy : Bool} {f : Fx}
    (hr : s.resolve m = .ok ⟨ea, z, il, upd⟩) (hl : locate ea.toNat = some l)
    (hf : s.memoryFx m ⟨ea, z, il, upd⟩ l true cy = .ok f) :
    s.moveFx m true cy =
      .ok { f with update := upd, iladi := il, hits := if f.performed then s.dataHits m.pm m.store ea else 0#3 } := by
  unfold State.moveFx
  simp only [hr]
  simp [(locate_some hl).1, hl, hf]

/-- Outside the crossbar a move is as it stands. -/
theorem Move.at_memory (m : Move) {t : Config.Target} (h : isSystem t = false) : m.at t = m := by simp [Move.at, h]

theorem Move.sizeAt_memory (m : Move) {t : Config.Target} (z : Size) (h : isSystem t = false) : m.sizeAt t z = z := by
  simp [Move.sizeAt, h]

/-- An ordinary 32-bit transfer in SISD mode is the one transfer. -/
theorem memoryFx_word {s : State} {m : Move} {ea : Word} {l : Loc} {p : Nat} {upd : Option IndexWrite} {cy : Bool}
    (hl : locate ea.toNat = some l) (hs : l.region.space = .nw)
    (hp : p = physOf l.region l.off .w32 false) (hi : s.imdw l.region = false) (hc : PlainBytes s l.region p 4)
    (hx : m.what ≠ .reg .px) (he : m.ex = false) (hb : s.isBroadcast m = false) (hq : s.simd = false) :
    s.memoryFx m ⟨ea, .none, false, upd⟩ l true cy =
      .ok (s.transfer m m.what ⟨l.region, p, .w32⟩ (s.signed .nw .none) false m.slot) := by
  have hw : m.what.width .none .nw false = .w32 := by
    cases hm : m.what <;> simp_all [Mover.width]
  have hsm : (l.region.target == Config.Target.smmr) = false := by
    have := hc.memory
    cases ht : l.region.target <;> simp_all [isSystem]
  unfold State.memoryFx
  simp only [Move.at_memory m hc.memory, Move.sizeAt_memory m _ hc.memory, hs, hi, hw]
  have hrow : s.row m .w32 false = .single := by simp [State.row, hb, hq]
  simp only [hrow, boundary_word, Nat.mod_one, Nat.sub_zero, element_word hl hs hp hi hc, he, hsm, explicitGate, State.gated,
    State.exclAllowed, State.rowFx]
  cases m.what <;> simp [State.transfer, State.storeFx, State.loadFx, he] <;> split <;> rfl

/-- An access to a block that works leaves its power state. -/
theorem touch_awake {s : State} {r : Config.Region} (m : Memory) (h : s.blockReads r = true) : s.touch m r.target = m := by
  unfold State.blockReads at h
  unfold State.touch
  cases ht : r.target with
  | l1 b =>
    simp only [ht] at h
    have : s.powerOf b ≠ .asleep := by intro hq; rw [hq] at h; exact absurd h (by decide)
    simp [this]
  | _ => rfl

/-! ### Cache lines (R358 to R364, R378) -/

/-- The line of a byte is in the return-zero range with the byte. -/
theorem zeroLine_line (s : State) (r : Config.Region) (d : Bool) (p : Nat) : s.zeroLine r d (lineOf p) = s.zeroLine r d p := by
  have h1 : lineOf (lineOf p) = lineOf p := by unfold lineOf; omega
  have h2 : lineOf p / 0x10000000 = p / 0x10000000 := by unfold lineOf; omega
  simp only [State.zeroLine, h1, h2]

/-- A byte that cannot read as zero lies in no line of the return-zero range, and in none that a data cache holds with zeros. -/
theorem mayZero_false {s : State} {r : Config.Region} {p : Nat} (h : s.mayZero r p = false) :
    s.zeroLine r true p = false ∧ ∀ x ∈ s.cache.lines, x.unit ≠ .i → x.line = lineOf p → x.zeros = 0#64 := by
  simp only [State.mayZero, Bool.or_eq_false_iff, List.any_eq_false] at h
  refine ⟨h.1, fun x hx hu hl => ?_⟩
  have := h.2 x hx
  simp [hu, hl] at this
  exact this

/-- The use of a line is a hit, a miss that fills a way, or a miss that leaves the cache as it is (R360, R361, R363). -/
theorem useLine_cases (s : State) (c : CacheNotes) (x : LineUse) :
    (∃ y, c.held x.unit.asked x.line = some y ∧ s.useLine c x = { c with lines := y :: c.lines.filter fun z => z != y }) ∨
    c.held x.unit.asked x.line = none ∧ ((s.useLine c x = c ∧ (x.fills = false ∨ s.wayFor c x.unit x.line = none)) ∨
      x.fills = true ∧ ∃ w, s.wayFor c x.unit x.line = some w ∧ s.useLine c x = { c with
        lines := { unit := x.unit, line := x.line, way := w, zeros := if x.zero then BitVec.allOnes 64 else 0#64 } ::
          c.lines.filter fun z => !(z.unit == x.unit && z.way == w &&
            x.unit.setOf s.gov.l1cCfg z.line == x.unit.setOf s.gov.l1cCfg x.line) }) := by
  unfold State.useLine
  cases hh : c.held x.unit.asked x.line with
  | some y => exact .inl ⟨y, rfl, rfl⟩
  | none =>
    refine .inr ⟨rfl, ?_⟩
    cases hw : s.wayFor c x.unit x.line with
    | none => exact .inl ⟨rfl, .inr rfl⟩
    | some w =>
      cases hf : x.fills with
      | false => exact .inl ⟨by simp, .inl rfl⟩
      | true => exact .inr ⟨rfl, w, rfl, by simp⟩

/-- A line whose uses bring no zeros into it stays free of zeros in the data caches. -/
theorem useLines_zeros {s : State} {q : Nat → Prop} {l : List LineUse} {c : CacheNotes} (hl : ∀ x ∈ l, x.zero = false)
    (hc : ∀ y ∈ c.lines, y.unit ≠ .i → q y.line → y.zeros = 0#64) :
    ∀ y ∈ (s.useLines l c).lines, y.unit ≠ .i → q y.line → y.zeros = 0#64 := by
  induction l generalizing c with
  | nil => exact hc
  | cons x l ih =>
    refine ih (fun y hy => hl y (by simp [hy])) ?_
    have hx := hl x (by simp)
    intro y hy
    rcases useLine_cases s c x with ⟨z, hz, e⟩ | ⟨-, ⟨e, -⟩ | ⟨-, w, -, e⟩⟩ <;> rw [e] at hy
    · rcases List.mem_cons.mp hy with rfl | hy
      · exact hc _ (List.mem_of_find?_eq_some hz)
      · exact hc y (List.mem_of_mem_filter hy)
    · exact hc y hy
    · rcases List.mem_cons.mp hy with rfl | hy
      · simp [hx]
      · exact hc y (List.mem_of_mem_filter hy)

/-- No bytes of a line to clear. -/
theorem Memory.clear_none (m : Memory) (line : Nat) : m.clear line 0#64 = m := by
  simp [Memory.clear]

theorem Memory.clear_wf {m : Memory} (h : m.wf = true) (line : Nat) (mask : BitVec 64) : (m.clear line mask).wf = true := by
  unfold Memory.clear
  generalize List.range 64 = l
  induction l generalizing m with
  | nil => exact h
  | cons k l ih =>
    refine ih ?_
    show (if mask.getLsbD k = true then m.write (line + k) 0#8 else m).wf = true
    split
    · exact Memory.write_wf h _ _
    · exact h

theorem zerosOut_wf {s : State} {m : Memory} (h : m.wf = true) (c : CacheNotes) (l : List LineUse) :
    (s.zerosOut c l m).wf = true := by
  unfold State.zerosOut
  induction l generalizing m with
  | nil => exact h
  | cons x l ih =>
    refine ih ?_
    unfold State.zeroOut
    split
    · split
      · exact h
      · exact Memory.clear_wf h _ _
    · exact h

/-- The uses of a move's element in L1: none. -/
theorem elementUses_l1 (s : State) (m : Move) {e : Element} (h : isL1 e.region.target = true) : s.elementUses m e = [] := by
  unfold State.elementUses State.usesOf isExternal
  cases ht : e.region.target <;> simp_all [isL1]

/-- A store to plain bytes takes no zeros out of a cache. -/
theorem zerosOut_plain {s : State} {m : Move} {e : Element} {p n : Nat} (h : PlainBytes s e.region p n) (hp : e.phys = p)
    (hn : e.width.bytes = n) :
    s.zerosOut (s.useLines (s.elementUses m e) s.cache) (s.elementUses m e) s.mem = s.mem := by
  obtain ⟨z1, c1⟩ := mayZero_false h.noZero.1
  obtain ⟨z2, c2⟩ := mayZero_false h.noZero.2
  have hu : ∀ x ∈ s.elementUses m e, x.zero = false ∧ x.unit ≠ .i ∧ (x.line = lineOf p ∨ x.line = lineOf (p + n - 1)) := by
    intro x hx
    simp only [State.elementUses, State.usesOf, hp, hn] at hx
    have hd : dataCache m.pm ≠ .i := by unfold dataCache; split <;> simp
    split at hx
    · simp only [List.map_cons, List.map_nil, List.mem_cons, List.not_mem_nil, or_false] at hx
      have hb : (dataCache m.pm != CacheUnit.i) = true := by simpa using hd
      rcases hx with rfl | rfl
      · exact ⟨by simp [hb, z1], hd, .inl rfl⟩
      · exact ⟨by simp [hb, z2], hd, .inr rfl⟩
    · exact absurd hx (by simp)
  have hc := useLines_zeros (s := s) (q := fun line => line = lineOf p ∨ line = lineOf (p + n - 1)) (c := s.cache)
    (fun x hx => (hu x hx).1) (fun y hy hi ho => ho.elim (c1 y hy hi) (c2 y hy hi))
  have hm : ∀ (l : List LineUse) (c : CacheNotes) (mem : Memory),
      (∀ x ∈ l, x.unit ≠ .i ∧ (x.line = lineOf p ∨ x.line = lineOf (p + n - 1))) →
      (∀ y ∈ c.lines, y.unit ≠ .i → (y.line = lineOf p ∨ y.line = lineOf (p + n - 1)) → y.zeros = 0#64) →
      s.zerosOut c l mem = mem := by
    intro l c mem hl hz
    unfold State.zerosOut
    induction l with
    | nil => rfl
    | cons x l ih =>
      obtain ⟨hi, ho⟩ := hl x (by simp)
      rw [List.foldl]
      have : s.zeroOut c mem x = mem := by
        unfold State.zeroOut
        split
        · rename_i y hy
          have h1 := List.mem_of_find?_eq_some hy
          have h2 := List.find?_some hy
          simp only [Bool.and_eq_true, beq_iff_eq] at h2
          have hne : y.unit ≠ .i := by
            intro e'
            rw [e'] at h2
            cases hx : x.unit <;> simp_all [CacheUnit.asked]
          rw [hz y h1 hne (by rw [h2.2]; exact ho), Memory.clear_none]
          simp
        · rfl
      rw [this]
      exact ih fun z hz' => hl z (by simp [hz'])
  exact hm _ _ _ (fun x hx => (hu x hx).2) hc

/-- A store to plain bytes. -/
theorem applyStore_plain {s : State} {m : Move} {t : Stored} {p n : Nat} (h : PlainBytes s t.elem.region p n)
    (hp : t.elem.phys = p) (hn : t.elem.width.bytes = n) (hu : t.uses = s.elementUses m t.elem) :
    s.applyStore t =
      { s with mem := (s.mem.writeLE p t.value n).note p n
               cache := s.noteBytes t.uses p n (s.useLines t.uses s.cache), excl := dropMonitor s.excl p n } := by
  unfold State.applyStore
  simp [hu, zerosOut_plain h hp hn, hp, hn, h.memory, h.writes]

/-- A store to plain bytes of L1 leaves the caches alone. -/
theorem applyStore_l1 {s : State} {m : Move} {t : Stored} {p n : Nat} (h : PlainBytes s t.elem.region p n)
    (hp : t.elem.phys = p) (hn : t.elem.width.bytes = n) (hu : t.uses = s.elementUses m t.elem)
    (hl : isL1 t.elem.region.target = true) : (s.applyStore t).cache = s.cache := by
  rw [applyStore_plain h hp hn hu, hu, elementUses_l1 s m hl]
  simp [State.noteBytes, State.useLines]

/-- A load from plain bytes brings what memory holds (R257). -/
theorem readElement_plain {s : State} (m : Move) {e : Element} {p n : Nat} (slot : Nat) (h : PlainBytes s e.region p n)
    (hp : e.phys = p) (hn : e.width.bytes = n) : s.readElement m e slot = s.mem.readLE p n := by
  unfold State.readElement
  simp [hp, hn, h.memory, h.reads, h.noZero.1, h.noZero.2]

/-! ### Arithmetic of addresses -/

/-- Post-modify and pre-modify of an index register outside byte space, exact and modulo 2^32. -/
theorem ofInt_add (x md : Word) : BitVec.ofInt 32 ((x.toNat : Int) + md.toInt) = x + md := by
  have h1 : BitVec.ofInt 32 (x.toNat : Int) = x := by simp
  have h2 : BitVec.ofInt 32 md.toInt = md := by simp
  calc BitVec.ofInt 32 ((x.toNat : Int) + md.toInt) = BitVec.ofInt 32 (x.toNat : Int) + BitVec.ofInt 32 md.toInt := BitVec.ofInt_add _ _
    _ = x + md := by rw [h1, h2]

/-! ### Putting a move into the state -/

theorem writeVal_w32 (s : State) (u : UReg) (v : Word) : s.writeVal u (.w32 v) = s.writeU u v := by
  cases u <;> rfl

@[simp] theorem State.applyRegs_mem (s : State) (l : List (UReg × RegVal)) : (s.applyRegs l).mem = s.mem := by
  unfold State.applyRegs
  induction l generalizing s with
  | nil => rfl
  | cons p t ih => simp [List.foldl, ih]

/-- A store keeps the canonical form of memory. -/
theorem applyStore_wf {s : State} (h : s.mem.wf = true) (t : Stored) : (s.applyStore t).mem.wf = true := by
  unfold State.applyStore
  simp only
  split
  · exact h
  · dsimp only
    split
    · exact Memory.writeLE_wf (zerosOut_wf h _ _) _ _ _
    · exact h

theorem setShutdown_wf {s : State} (h : s.mem.wf = true) (a b : Word) : (s.setShutdown a b).mem.wf = true := by
  have hf : ∀ (l : List (Fin 4)) (m : Memory), m.wf = true →
      (l.foldl (fun m b' => if shutBlocks a b b' && !shutBlocks s.mmr.sysctl s.mmr.pwrL1Sd b' then m.lose b' (s.slot 24) else m)
        m).wf = true := by
    intro l
    induction l with
    | nil => intro m hm; exact hm
    | cons x t ih =>
      intro m hm
      refine ih _ ?_
      show (if _ then _ else _ : Memory).wf = true
      split
      · exact Memory.lose_wf hm _ _
      · exact hm
  exact hf _ _ h

/-- A store to a core memory-mapped register keeps the canonical form of memory. -/
theorem writeMmr_wf {s : State} (h : s.mem.wf = true) (r : CoreMmr) (v : Word) : (s.writeMmr r v).mem.wf = true := by
  unfold State.writeMmr
  show (s.storeMmr r v).mem.wf = true
  unfold State.storeMmr
  cases r <;> simp only <;> (try exact h)
  case sysctl =>
    unfold State.writeSysctl
    simp only
    split <;> exact setShutdown_wf h _ _
  case gperrStat =>
    unfold State.writeGperr
    simp only
    repeat' split
    all_goals exact h
  case pwrL1Sd => exact setShutdown_wf h _ _
  all_goals (split <;> exact h)

/-- A move put into the state keeps the canonical form of memory. -/
theorem applyMemory_wf {s : State} (h : s.mem.wf = true) (f : Fx) : (s.applyMemory f).mem.wf = true := by
  have hst : ∀ (l : List Stored) (t : State), t.mem.wf = true → (l.foldl State.applyStore t).mem.wf = true := by
    intro l
    induction l with
    | nil => intro t ht; exact ht
    | cons x l ih => intro t ht; exact ih _ (applyStore_wf ht x)
  have hto : ∀ (u : State) (l : List Config.Target) (m : Memory), m.wf = true → (l.foldl u.touch m).wf = true := by
    intro u l
    induction l with
    | nil => intro m hm; exact hm
    | cons x l ih => intro m hm; exact ih _ (by rw [touch_wf]; exact hm)
  have haz : ∀ (l : List (Bool × Bool)) (t : State), (l.foldl State.applyAz t).mem = t.mem := by
    intro l
    induction l with
    | nil => intro t; rfl
    | cons x l ih => intro t; rw [List.foldl, ih]; unfold State.applyAz; split <;> rfl
  unfold State.applyMemory
  simp only [haz]
  split
  · exact hto _ _ _ (hst _ _ h)
  · exact writeMmr_wf (by exact hto _ _ _ (hst _ _ h)) _ _

theorem applyFx_wf {s : State} (h : s.mem.wf = true) (f : Fx) : (s.applyFx f).mem.wf = true := by
  unfold State.applyFx
  exact applyMemory_wf (by simpa using h) _

/-- The two moves of a Type 1 instruction are moves of their own, or, where both miss a line, moves through to the memory
(R362). -/
theorem dualFx_ok {s : State} {dm pm : Move} {f g : Fx} (h : s.dualFx dm pm = .ok (f, g)) :
    (s.moveFx dm true true = .ok f ∧ s.moveFx pm true true = .ok g) ∨
    ∃ l, s.moveFx { dm with through := l } true true = .ok f ∧ s.moveFx { pm with through := l } true true = .ok g := by
  unfold State.dualFx at h
  split at h
  · exact absurd h (by simp)
  · exact absurd h (by simp)
  · rename_i a b ha hb
    split at h
    · simp only [Except.ok.injEq, Prod.mk.injEq] at h
      exact .inl ⟨by rw [ha, h.1], by rw [hb, h.2]⟩
    · rename_i l _
      split at h
      · exact absurd h (by simp)
      · exact absurd h (by simp)
      · rename_i a' b' ha' hb'
        simp only [Except.ok.injEq, Prod.mk.injEq] at h
        exact .inr ⟨_, by rw [ha', h.1], by rw [hb', h.2]⟩

theorem applyDual_wf {s : State} (h : s.mem.wf = true) (f g : Fx) : (s.applyDual f g).mem.wf = true := by
  unfold State.applyDual
  exact applyMemory_wf (applyMemory_wf (by simpa using h) _) _

end Sys2Proof.Machine
end

