-- ==== Sys2Proof/Laws/Seeds.lean ====
section
/-! SUPPORT. The accuracy of the seed tables, whatever they hold (R810, R811, U57). -/

namespace Sys2Proof.Config

/-- RECIPS_ROM has the accuracy of R810. -/
theorem recipsRom_accurate (k : BitVec 7) : recipsAccurate k (recipsRom k) = true := by
  unfold recipsRom
  split
  · assumption
  · rename_i h
    clear h
    revert k
    decide +kernel

/-- RSQRTS_ROM has the accuracy of R811. -/
theorem rsqrtsRom_accurate (k : BitVec 7) : rsqrtsAccurate k (rsqrtsRom k) = true := by
  unfold rsqrtsRom
  split
  · assumption
  · rename_i h
    clear h
    revert k
    decide +kernel

end Sys2Proof.Config
end

