-- ==== Sys2Proof/Laws/Sequencer.lean ====
section
/-! SUPPORT. What the shared operations of the sequencer, the branch instructions and one step can do: one lemma each. -/

namespace Sys2Proof.Machine

open Sys2Proof

/-! ### One step -/

/-- A step that answers a next state takes an interrupt, idles, or fetches, executes and finishes one instruction. -/
theorem step_cases {s t : State} (h : step s = .next t) :
    (∃ k, s.accept = some k ∧ s.takeInterrupt k = .ok t) ∨
    (s.accept = none ∧ s.seq.idle = true ∧ t = s.closeStep s) ∨
    (s.accept = none ∧ s.seq.idle = false ∧ ∃ f u, s.fetch s.seq.pc = some f ∧ s.fetchStop = none ∧
      (s.begin f.len).execute f = .next u ∧ (s.begin f.len).finish ((s.begin f.len).afterFetch u f.bytes) f.len = .ok t) := by
  unfold step at h
  split at h
  · rename_i k hk
    refine .inl ⟨k, hk, ?_⟩
    revert h
    cases s.takeInterrupt k with
    | ok u => intro h; simpa [Res.outcome] using h
    | error e => cases e <;> intro h <;> simp [Res.outcome] at h
  · rename_i hk
    split at h
    · rename_i hi
      exact .inr (.inl ⟨hk, hi, by simpa using h.symm⟩)
    · rename_i hi
      refine .inr (.inr ⟨hk, by simpa using hi, ?_⟩)
      unfold State.runInstr at h
      split at h
      · exact absurd h (by simp)
      · exact absurd h (by simp)
      · rename_i f hf hst
        refine ⟨f, ?_⟩
        simp only at h
        split at h
        · rename_i u hu
          refine ⟨u, hf, hst, hu, ?_⟩
          revert h
          cases (s.begin f.len).finish ((s.begin f.len).afterFetch u f.bytes) f.len with
          | ok v => intro h; simpa [Res.outcome] using h
          | error e => cases e <;> intro h <;> simp [Res.outcome] at h
        · exact absurd h (by simp)
        · exact absurd h (by simp)

/-- An executed word is an instruction that completed or an undefined word. -/
theorem execute_cases {s u : State} {f : Fetched} (h : s.execute f = .next u) :
    (∃ i, f.decode = .ok i ∧ exec i s = .next u) ∨ u = s.illegal := by
  unfold State.execute at h
  split at h
  · rename_i i hi
    exact .inl ⟨i, hi, h⟩
  · exact absurd h (by simp)
  · exact absurd h (by simp)
  · exact .inr (by simpa using h.symm)

/-- An outcome is a next state exactly when the result is that state. -/
theorem outcome_next {r : Res State} {t : State} : r.outcome = .next t ↔ r = .ok t := by
  cases r with
  | ok u => simp [Res.outcome]
  | error e => cases e <;> simp [Res.outcome]

/-! ### Stacks -/

/-- A pop of the PC stack: the stack was not empty or had overflowed, and its top entry is gone. -/
theorem popPc_ok {s t : State} (h : s.popPc = .ok t) :
    (s.seq.pcStk ≠ [] ∨ s.seq.pcOv = true) ∧ t = { s with seq := s.seq.dropPc } := by
  unfold State.popPc at h
  split at h
  · exact absurd h (by simp [refuse])
  · rename_i hn
    refine ⟨?_, by simpa using h.symm⟩
    by_contra hc
    simp at hc
    exact hn (by simp [hc])

/-- A pop of the loop stacks. -/
theorem popLoop_ok {s t : State} (h : s.popLoop = .ok t) : s.seq.loopStk ≠ [] ∧ t = { s with seq := s.seq.dropLoop } := by
  unfold State.popLoop at h
  split at h
  · exact absurd h (by simp [refuse])
  · rename_i hn
    exact ⟨by simpa using hn, by simpa using h.symm⟩

/-- A pop of the status stack: the top entry goes back into MODE1, ASTATX and ASTATY. -/
theorem popSts_ok {s t : State} (h : s.popSts = .ok t) :
    ∃ e rest, s.seq.stsStk = e :: rest ∧
      t = ((({ s with seq := { s.seq with stsStk := rest, stsOv := false } }).writeSys .mode1 e.mode1).writeSys .astatx
        e.astatx).writeSys .astaty e.astaty := by
  unfold State.popSts at h
  split at h
  · exact absurd h (by simp [refuse])
  · rename_i e rest he
    exact ⟨e, rest, he, by simpa using h.symm⟩

/-- A push of the PC stack with room to spare adds the entry and raises nothing. -/
theorem pushPc_room {s : State} (w : Word) (h : s.seq.pcStk.length < 28) (ho : s.seq.pcOv = false) :
    s.pushPc w = { s with seq := { s.seq with pcStk := w :: s.seq.pcStk } } := by
  have h30 : ¬ 30 ≤ s.seq.pcStk.length := by omega
  have h29 : ¬ 29 ≤ s.seq.pcStk.length + 1 := by omega
  simp [State.pushPc, h30, Seq.pcstkp, ho, State.raiseIf, h29]

/-- A push of the loop stacks with room to spare. -/
theorem pushLoop_room {s : State} {c : Word} {above : List Word} (a : Word) (r : Restored) (h : s.seq.lcntrs = c :: above) :
    s.pushLoop a r = { s with seq := { s.seq with
      loopStk := { laddr := a, count := c, start := c, restored := r } :: s.seq.loopStk, lcntrs := above } } := by
  unfold State.pushLoop
  rw [h]
  split <;> simp_all

/-- A push of the status stack with room to spare saves MODE1 and the arithmetic status and clears MODE1 through MMASK. -/
theorem pushSts_room {s : State} (h : s.seq.stsStk.length < 15) :
    s.pushSts = { s with
      sys := { s.sys with mode1 := s.sys.mode1 &&& ~~~s.sys.mmask }
      seq := { s.seq with stsStk := { mode1 := s.sys.mode1, astatx := s.astatx, astaty := s.sys.astaty } :: s.seq.stsStk } } := by
  have h15 : ¬ 15 ≤ s.seq.stsStk.length := by omega
  simp [State.pushSts, h15]

/-! ### Branches -/

/-- What a branch instruction does, taken or not. -/
theorem atBranch_eq (s : State) (db : Bool) : s.atBranch db = { s with
    seq := { s.seq with noIrq := if db then 3 else s.seq.noIrq }
    sys := { s.sys with irptl := s.sys.irptl ||| (if s.seq.rinseq db then 0x100000#32 else 0#32) }
    bdry := { s.bdry with loopFree := s.bdry.loopFree || s.seq.rinseq db } } := by
  unfold State.atBranch State.raiseIf State.raise
  cases db <;> cases s.seq.rinseq _ <;> simp [Irq.num]

/-- A branch may be taken where no delayed branch is under way and no store to a branch target buffer register is near. -/
theorem branchAllowed_nil {s : State} (db : Bool) (sort : BranchSort) (h : s.seq.branches = []) (hb : s.seq.btbHold = 0) :
    s.branchAllowed db sort = .ok () := by
  simp [State.branchAllowed, h, hb]

/-- A taken branch stands outside delay slots, or is a delayed jump in the first slot of a delayed jump. -/
theorem branchAllowed_ok {s : State} {db : Bool} {sort : BranchSort} (h : s.branchAllowed db sort = .ok ()) :
    s.seq.btbHold = 0 ∧ (s.seq.branches = [] ∨
      ∃ b, s.seq.branches = [b] ∧ db = true ∧ sort.isJump = true ∧ b.sort.isJump = true ∧ b.slots = 2) := by
  unfold State.branchAllowed at h
  split at h
  · exact absurd h (by simp [refuse])
  · rename_i h0
    refine ⟨by simpa using h0, ?_⟩
    split at h
    · rename_i hb
      exact .inl hb
    · rename_i b hb
      refine .inr ⟨b, hb, ?_⟩
      unfold refuseIf at h
      split at h
      · exact absurd h (by simp [refuse])
      · rename_i hn
        simp at hn
        tauto
    · exact absurd h (by simp [refuse])

/-! ### The watch on a CALL of an inner loop (R590) -/

/-- With no CALL taken and no loop watched, the watch does nothing. -/
theorem passCalls_idle {s0 s : State} (hc : s.bdry.called = false) (h : ∀ e ∈ s.seq.loopStk, e.call = .none) :
    s0.passCalls s = s := by
  have hl : s.seq.loopStk.map s.watchCall = s.seq.loopStk := by
    rw [List.map_congr_left (g := id), List.map_id]
    intro e he
    simp [State.watchCall, h e he]
  simp [State.passCalls, hc, hl]

/-- A CALL starts the watch on no loop but arithmetic ones around an arithmetic one, so a counter loop keeps its mark. -/
theorem markCalls_counter {d : Nat} {off : LoopEntry → Bool} {b : Bool} {l : List LoopEntry} (h : ∀ e ∈ l, e.isArith = false) :
    markCalls d off b l = l := by
  induction l generalizing b with
  | nil => rfl
  | cons e t ih =>
    simp only [markCalls, h e (by simp), Bool.and_false, Bool.false_and, Bool.or_false, Bool.false_eq_true, if_false]
    rw [ih fun x hx => h x (by simp [hx])]

theorem markCalls_length (d : Nat) (off : LoopEntry → Bool) (b : Bool) (l : List LoopEntry) :
    (markCalls d off b l).length = l.length := by
  induction l generalizing b with
  | nil => rfl
  | cons e t ih => simp [markCalls, ih]

/-- The watch adds and removes no loop. -/
@[simp] theorem passCalls_length (s0 s : State) : (s0.passCalls s).seq.loopStk.length = s.seq.loopStk.length := by
  unfold State.passCalls
  simp only [List.length_map]
  split
  · exact markCalls_length _ _ _ _
  · rfl

/-- A taken call: the return address on the PC stack, then the transfer. -/
theorem takeCall_ok {s t : State} {a : IAddr} {db : Bool} (h : s.takeCall a db = .ok t) :
    s.branchAllowed db .call = .ok () ∧ t =
      ({ s with bdry := { s.bdry with called := true } }.pushPc (pcEntry (s.callReturn db) false)).goto a db .call := by
  unfold State.takeCall at h
  split at h
  · exact absurd h (by simp)
  · rename_i hb
    exact ⟨hb, by simpa using h.symm⟩

/-- A taken jump: the pops of (LA) or the interrupt clearing of (CI), then the transfer. -/
theorem takeJump_ok {s t : State} {a : IAddr} {db la ci : Bool} (h : s.takeJump a db la ci = .ok t) :
    s.branchAllowed db .jump = .ok () ∧ ∃ u,
      (if la then s.popPc.bind State.popLoop else if ci then s.clearInterrupt else .ok s) = .ok u ∧
      t = ({ u with bdry := { u.bdry with mode1Now := ci && !db } }).goto a db (if ci then .jumpCi else .jump) := by
  unfold State.takeJump at h
  split at h
  · exact absurd h (by simp)
  · rename_i hb
    refine ⟨hb, ?_⟩
    split at h
    · exact absurd h (by simp)
    · rename_i u hu
      exact ⟨u, hu, by simpa using h.symm⟩

/-- A taken return: the pop of the PC stack, for RTI the end of the service, then the transfer to the popped address. -/
theorem takeReturn_ok {s t : State} {rti db : Bool} (h : s.takeReturn rti db = .ok t) :
    s.branchAllowed db .ret = .ok () ∧ ∃ u v, s.popPc = .ok u ∧ (if rti then u.leaveIsr else .ok u) = .ok v ∧
      t = ({ v with bdry := { v.bdry with mode1Now := rti && !db } }).goto ((s.pcstk s.seq).truncate 24) db .ret := by
  unfold State.takeReturn at h
  split at h
  · exact absurd h (by simp)
  · rename_i hb
    refine ⟨hb, ?_⟩
    simp only at h
    split at h
    · exact absurd h (by simp)
    · rename_i u hu
      split at h
      · exact absurd h (by simp)
      · rename_i v hv
        exact ⟨u, v, hu, hv, by simpa using h.symm⟩

/-- The transfer of control. -/
theorem goto_eq (s : State) (a : IAddr) (db : Bool) (sort : BranchSort) : s.goto a db sort = { s with
    seq := { s.seq with
      npc := if db then s.seq.npc else a
      branches := if db then s.seq.branches ++ [{ target := a, slots := 3, sort := sort }] else s.seq.branches }
    bdry := { s.bdry with taken := true } } := by
  cases db <;> rfl

/-- A branch beside a computation: the computation, then the branch if it is taken. -/
theorem branchCompute_ok {s t : State} {cond : Cond} {db els : Bool} {c : Compute} {act : State → Res State}
    (h : s.branchCompute cond db els c act = .ok t) :
    ∃ u, s.compute c (els != s.cx cond) (els != s.cy cond) [] = .ok u ∧
      (if s.taken cond then act (u.atBranch db) else .ok (u.atBranch db)) = .ok t := by
  unfold State.branchCompute at h
  split at h
  · exact absurd h (by simp)
  · rename_i u hu
    exact ⟨u, hu, h⟩

/-! ### Interrupts and loops -/

/-- Entry of interrupt `k`: the settled stacks, the pushes, the masks and the vector. -/
theorem enter_ok {s t : State} {k : Nat} (h : s.enter k = .ok t) :
    ∃ base, s.ivtBase = .ok base ∧
      let ret := if k = 3 && s.sys.parity then (s.freeWord 90).truncate 24 else s.seq.pc
      let u := (((s.settlePcstkp s.seq.pcStkpDue).settlePcstkp s.seq.pcStkpNew).pushPc (pcEntry ret true)).pushSts
      let mode1 := if k = 15 && s.sys.mode2.getLsbD 0 then u.sys.mode1 ||| flagBit 30 true else u.sys.mode1
      let v := base + BitVec.ofNat 24 (4 * k)
      t = { u with
        seq := { u.seq with
          pc := v, npc := v, idle := false, vectorDue := true, pcStkpDue := none, pcStkpNew := none, branches := [], noIrq := 0 }
        sys := { u.sys with
          parity := u.sys.parity && k != 3, mode1 := mode1, mode1Act := mode1, condx := none, condy := none
          irptl := u.sys.irptl &&& ~~~(1#32 <<< k), imaskp := u.sys.imaskp ||| (1#32 <<< k) } } := by
  unfold State.enter at h
  split at h
  · exact absurd h (by simp)
  · rename_i base hb
    exact ⟨base, hb, by simpa using h.symm⟩

/-- The end of a service: the pop of the status stack, after the latch and mask bits of the interrupt in service are
cleared, if one is and it is not the self-nested SECI. -/
theorem leaveIsr_ok {s t : State} (h : s.leaveIsr = .ok t) :
    ∃ u, u.popSts = .ok t ∧
      (u = s ∨ ∃ k latch, lowestBit s.sys.imaskp = some k ∧
        (u = s.endService k latch ∨ (k = 12 ∧ u = { s.endService k latch with mmr := { s.mmr with brkstat := 0#32 } }))) := by
  unfold State.leaveIsr at h
  split at h
  · exact ⟨s, h, .inl rfl⟩
  · rename_i k hk
    split at h
    · exact ⟨s, h, .inl rfl⟩
    · simp only at h
      by_cases h12 : k = 12
      · rw [if_pos h12] at h
        exact ⟨_, h, .inr ⟨k, _, hk, .inr ⟨h12, rfl⟩⟩⟩
      · rw [if_neg h12] at h
        exact ⟨_, h, .inr ⟨k, _, hk, .inl rfl⟩⟩

/-- The start of a loop: outside delay slots and the nesting restrictions, its top on the PC stack, its address word on the
loop stacks. -/
theorem startLoop_ok {s t : State} {last : IAddr} {term : BitVec 5} {f1 : Bool} (h : s.startLoop last term f1 = .ok t) :
    s.seq.branches = [] ∧ s.seq.nestingAllowed last = true ∧ ∃ f1' : Bool,
      t = (s.pushPc (loopPcEntry s.seq.npc (loopType term f1'))).pushLoop (loopType term f1' ++ term ++ last) := by
  unfold State.startLoop at h
  split at h
  · exact absurd h (by simp)
  · exact absurd h (by simp)
  · rename_i h1 h2
    refine ⟨?_, ?_, _, by simpa using h.symm⟩
    · by_contra hb
      simp [refuseIf, hb, refuse] at h1
    · by_contra hb
      simp [refuseIf, hb, refuse] at h2

/-- The end of the innermost loop: back to its top with a new top entry, outside the window of R1138, or out of it with both
stacks popped. -/
theorem loopEnd_ok {s t : State} {e : LoopEntry} {rest : List LoopEntry} (hs : s.seq.loopStk = e :: rest) (h : s.loopEnd = .ok t) :
    ({ s with seq := s.seq.dropLoop } : State).popPc = .ok t ∨
    s.seq.btbHold = 0 ∧ ∃ e' : LoopEntry, e'.laddr = e.laddr ∧ e'.start = e.start ∧
      t = { s with seq := { s.seq with loopStk := e' :: rest, npc := (s.pcstk s.seq).truncate 24 } } := by
  unfold State.loopEnd at h
  rw [hs] at h
  simp only at h
  repeat' split at h
  all_goals first
    | exact .inl h
    | (rename_i hz
       refine .inr ⟨by_contra hz, _, ?_, ?_, (Except.ok.inj h).symm⟩ <;> rfl)
    | exact absurd h (by simp [refuse])

/-- After an instruction: no refused write, the loop end, then the core's reset or, unless a delayed branch takes effect in
the window of R1138, the passing of slots, latencies, calls, breakpoints and time. -/
theorem finish_ok {s0 s t : State} {len : Nat} (h : s0.finish s len = .ok t) :
    s.bdry.refused = none ∧ ∃ u, s0.closeLoop s len = .ok u ∧
      ((s0.seq.srst = 1 ∧ t = u.coreReset) ∨ (s0.seq.srst ≠ 1 ∧ (u.seq.redirects u.bdry.taken = false ∨ u.seq.btbHold = 0) ∧
        let v := (u.settlePcstkp u.seq.pcStkpDue).loseLoops
        let q := v.seq.passSlots
        let full := decide (fullLen s0.seq.pc ≤ len)
        t = s0.closeStep (s0.breakpoints (s0.passCalls (s0.passLatencies { v with
          seq := { q with
            pc := q.npc, pcStkpDue := none, noIrq := q.noIrq - 1, vectorDue := false, srst := q.srst - 1
            btbHold := windowLeft q.btbHold full, cacheHold := windowLeft q.cacheHold full }
          cache := { v.cache with near := windowLeft v.cache.near full }
          mem := if v.seq.redirects v.bdry.taken then v.mem.refetch else v.mem }))))) := by
  unfold State.finish at h
  split at h
  · exact absurd h (by simp [refuse])
  · exact absurd h (by simp)
  · rename_i u hr hu
    refine ⟨hr, u, hu, ?_⟩
    split at h
    · rename_i h1
      exact .inl ⟨h1, by simpa using h.symm⟩
    · rename_i h1
      split at h
      · exact absurd h (by simp [refuse])
      · rename_i h2
        refine .inr ⟨h1, ?_, by simpa using h.symm⟩
        simp at h2
        cases hd : u.seq.redirects u.bdry.taken with
        | false => exact .inl rfl
        | true => exact .inr (h2 hd)

/-- The loop work after an instruction: none away from the loop's end, the loop's end there. -/
theorem closeLoop_ok {s0 s t : State} {len : Nat} (h : s0.closeLoop s len = .ok t) :
    s0.compressedAtEnd len = false ∧ ((s0.atLoopEnd = false ∧ t = s) ∨
      (s0.atLoopEnd = true ∧ s.bdry.taken = false ∧ s0.seq.branches = [] ∧
        s.seq.loopStk.length = s0.seq.loopStk.length ∧ s.loopEnd = .ok t)) := by
  unfold State.closeLoop at h
  split at h
  · exact absurd h (by simp [refuse])
  · rename_i hc
    refine ⟨by simpa using hc, ?_⟩
    split at h
    · rename_i ha
      split at h
      · exact absurd h (by simp [refuse])
      · rename_i hn
        simp at hn
        exact .inr ⟨ha, hn.1.1, hn.1.2, hn.2, h⟩
    · rename_i ha
      exact .inl ⟨by simpa using ha, by simpa using h.symm⟩

end Sys2Proof.Machine
end

