-- ==== Sys2Proof/Tests/Slice0.lean ====
section
/-! SUPPORT. Tests: the words of every constructor decode to it, ill-formed terms are refused, vectors of
spec/95_test_vectors.md, and states that meet the hypotheses of the statements. -/

namespace Sys2Proof.Tests

open Sys2Proof Sys2Proof.Machine

set_option maxRecDepth 100000

/-! ### Helpers -/

/-- Every listed word decodes to its instruction. -/
noncomputable def decodesAll (l : List (Code × Instr)) : Bool := l.all fun p => decide (decodeCode p.1 = .ok p.2)

/-- One thing to set before a test. -/
inductive Prep
  | d (n v : Nat)
  | sy (n v : Nat)
  | u (r : UReg) (v : Nat)
  | mem (a v : Nat)
  | I (n v : Nat)
  | M (n v : Nat)
  | L (n v : Nat)
  | B (n v : Nat)
  | m1 (v : Nat)
  | mrf (v : Nat)
  | mrb (v : Nat)

/-- The state with the settings made: `d`, `sy` a data register of PEx, PEy; `I`, `M`, `L`, `B` an address register; `u` a
register written by its own rules; `mem` a normal word; `m1` MODE1 in force; `mrf`, `mrb` a multiplier result register. -/
def prepare (s : State) : List Prep → State
  | [] => s
  | .d n v :: t => prepare (s.setDreg false (BitVec.ofNat 4 n) (BitVec.ofNat 40 v)) t
  | .sy n v :: t => prepare (s.setDreg true (BitVec.ofNat 4 n) (BitVec.ofNat 40 v)) t
  | .u r v :: t => prepare (s.writeVal r (.w32 (BitVec.ofNat 32 v))) t
  | .mem a v :: t => prepare { s with mem := s.mem.writeLE (4 * a) v 4 } t
  | .I n v :: t => prepare (s.setI (BitVec.ofNat 4 n) (BitVec.ofNat 32 v)) t
  | .M n v :: t => prepare (s.setM (BitVec.ofNat 4 n) (BitVec.ofNat 32 v)) t
  | .L n v :: t => prepare (s.setL (BitVec.ofNat 4 n) (BitVec.ofNat 32 v)) t
  | .B n v :: t => prepare (s.setBOnly (BitVec.ofNat 4 n) (BitVec.ofNat 32 v)) t
  | .m1 v :: t => prepare { s with sys := { s.sys with mode1 := BitVec.ofNat 32 v, mode1Act := BitVec.ofNat 32 v } } t
  | .mrf v :: t => prepare { s with data := { s.data with mrf := BitVec.ofNat 80 v } } t
  | .mrb v :: t => prepare { s with data := { s.data with mrb := BitVec.ofNat 80 v } } t

/-- One step on the instruction word `w` at normal-word address 0x90100, from reset with settings, ends as `f` says. -/
noncomputable def runsTo (l : List Prep) (w : Nat) (f : State → Bool) : Bool :=
  match step (prepare { State.reset with mem := State.reset.mem.writeLE 0x240600 w 6,
                                         seq := { State.reset.seq with pc := 0x90100 } } l) with
  | .next t => f t
  | _ => false

/-- One step on the instruction word `w` is refused for the reason `r`. -/
noncomputable def refusedFor (l : List Prep) (w : Nat) (r : Refusal) : Bool :=
  match step (prepare { State.reset with mem := State.reset.mem.writeLE 0x240600 w 6,
                                         seq := { State.reset.seq with pc := 0x90100 } } l) with
  | .refused q => q == r
  | _ => false

/-- Data register of PEx, of PEy, index register, normal word of memory. -/
def R (s : State) (n : Nat) : Nat := (s.dreg false (BitVec.ofNat 4 n)).toNat
def Y (s : State) (n : Nat) : Nat := (s.dreg true (BitVec.ofNat 4 n)).toNat
def I (s : State) (n : Nat) : Nat := (s.ireg (BitVec.ofNat 4 n)).toNat
def rd (m : Memory) (a : Nat) : Nat := m.readLE (4 * a) 4

/-! ### The syntax check refuses ill-formed terms (one per check of WellFormed.lean) -/

theorem test_wf_rounding_integer : (Instr.mulRn ⟨true, true, false, true⟩ 1 2 3).wellFormed = false := by decide
theorem test_wf_rounding_in_compute :
    (Instr.computeDualMove (.mulRn .clear ⟨true, true, false, true⟩ 1 2 3) false 0 0 0 false 0 0 0).wellFormed = false := by decide
theorem test_wf_true_condition : (Instr.ifCompute .true_ (.fix2 .add 1 2 3)).wellFormed = false := by decide
theorem test_wf_true_shift : (Instr.ifShiftImm .true_ (.shift .rot 3 4 1)).wellFormed = false := by decide
theorem test_wf_same_dag_load : (Instr.loadUreg .eq .none true false 0 0 false (.i 3)).wellFormed = false := by decide
theorem test_wf_same_dag_store : (Instr.storeUreg .eq .none false true 0 0 false (.m 9)).wellFormed = false := by decide
theorem test_wf_signed_store : (Instr.storeUregSized .eq true false 0 0 (.r 1) .bwse false).wellFormed = false := by decide
theorem test_wf_full_word_sized : (Instr.loadDregImmSized .eq false 0 true 0 1 .none).wellFormed = false := by decide
theorem test_wf_signed_store_imm : (Instr.storeDregImmSized .eq false 0 true 0 1 .swse).wellFormed = false := by decide
theorem test_wf_direct_size : (Instr.moveDregDirect false 1 0 .none false).wellFormed = false := by decide
theorem test_wf_offset_store_dag : (Instr.storeUregOffset false 0 false (.b 2) 0).wellFormed = false := by decide
theorem test_wf_short_compute_alias : (Instr.shortCompute .add 1 2).wellFormed = false := by decide
theorem test_wf_visa_store_dag : (Instr.moveUregSized .eq false false true 0 0 (.l 1) .none).wellFormed = false := by decide
theorem test_wf_visa_long : (Instr.moveDregImmSized .eq false false 0 true 0 1 .lw).wellFormed = false := by decide
theorem test_wf_modify_flag_multi : (Instr.modify .eq (.readMr .mr0f 1) false 0 0 0 .sw).wellFormed = false := by decide
theorem test_wf_modify_imm_flag : (Instr.modifyImm false 0 0 1 .nw).wellFormed = false := by decide
theorem test_wf_visa_offset_dag : (Instr.moveUregOffset7 true true 0 false (.i 9) 0).wellFormed = false := by decide

/-! ### Every constructor decodes from a word of its encoding -/

/-- Types 1a to 7a (spec/40_group1.md): words with operands at positions the spec gives. -/
theorem test_decode_moves_1 : decodesAll [
    (.word48 0x30BB75000000#48, .computeDualMove .none true 0 2 13 true 5 6 10),
    (.word48 0x013600294490#48, .ifCompute .notFlag2 (.shift1 .funpack 4 9)),
    (.word48 0x5ED13FC7648A#48, .loadUreg .sz (.mfDbl true 3 2 ⟨1,0,1,1⟩) true true 7 3 false (.sys .ustat4)),
    (.word48 0x4C23B0103900#48, .storeUreg .ge (.satRn true false true 9) false true 6 0 false .faddr),
    (.word48 0x47FA35B20000#48, .loadUregSized .notTf false false 3 7 .px .bw true),
    (.word48 0x528FF5B00000#48, .storeUregSized .sv true true 1 2 .px .sw false),
    (.word48 0x6F2193416500#48, .loadDregImm .ne (.writeMr .mr2b 5) true 7 false 50 6),
    (.word48 0x6CAEBFC16500#48, .storeDregImm .notSv (.writeMr .mr2b 5) false 6 false 23 15),
    (.word48 0x62376DB20000#48, .loadDregImmSized .notFlag2 false 1 false 45 11 .sw),
    (.word48 0x67A9DBB20000#48, .storeDregImmSized .notAv true 3 false 59 7 .sw),
    (.word48 0x77EBB0103900#48, .moveUreg .notMv (.satRn true false true 9) .faddr (.sys .ustat4)),
    (.word48 0x79E405C16500#48, .swapDreg .gt (.writeMr .mr2b 5) 11 7),
    (.word48 0x83DE029F5A00#48, .shiftImmLoadDM .notLce (.setBffwrp 0x5a) 1 7 5),
    (.word48 0x8C74871F5A00#48, .shiftImmStoreDM .notFlag1 (.setBffwrp 0x5a) 6 1 14),
    (.word48 0x85BB3F16BD90#48, .shiftImmLoadPM .notTf (.bitext true 9 0x7bd) 2 6 14),
    (.word48 0x85DFEE1B6A34#48, .shiftImmStorePM .notLce (.fieldOp .orFdepSE 3 4 0x2a 0x35) 2 7 12)] = true := by decide

/-- Types 1a to 7a (spec/40_group1.md): words with operands at positions the spec gives. -/
theorem test_decode_moves_2 : decodesAll [
    (.word48 0x022C3816BD90#48, .ifShiftImm .notMs (.bitext true 9 0x7bd)),
    (.word48 0x04228DA94490#48, .modify .ge (.shift1 .funpack 4 9) false 2 5 1 .sw),
    (.word48 0x04E1A68BDF29#48, .convertAddr .ne (.flt2 .scalb 15 2 9) true 6 6 false true)] = true := by decide

/-- Types 8a to 13a (spec/41_group2.md): words with operands at positions the spec gives. -/
theorem test_decode_control : decodesAll [
    (.word48 0x063A01D0A7BD#48, .jumpDirect .notTf 13674429 .ci),
    (.word48 0x072E001B2D19#48, .jumpPcRel .notSv 1781017 .none),
    (.word48 0x06A404A7251A#48, .callDirect .gt 10954010 true),
    (.word48 0x0790049779AC#48, .callPcRel .sz 9927084 true),
    (.word48 0x082BFA294490#48, .jumpIndirect .notMv 7 7 .none true (.shift1 .funpack 4 9)),
    (.word48 0x090FA31326E9#48, .jumpPcRel6 .sv 52 .ci true (.dblMulFlt 3 7 9)),
    (.word48 0x08B9AE0BDF29#48, .callIndirect .notFlag3 5 6 true true (.flt2 .scalb 15 2 9)),
    (.word48 0x09965E001123#48, .callPcRel6 .flag2 11 true true (.fix2 .add 1 2 3)),
    (.word48 0xC1463F000000#48, .jumpIndirectElseLoad .ac 7 0 .none 0 5 14),
    (.word48 0xDDC0911AB456#48, .jumpIndirectElseStore .eq 2 2 (.mulRn (.add true) ⟨true,false,true,true⟩ 4 5 6) 6 7 2),
    (.word48 0xEA2E5B416500#48, .jumpPcRelElseLoad .notSv 11 (.writeMr .mr2b 5) 5 0 6),
    (.word48 0xF3E41047648A#48, .jumpPcRelElseStore .gt 2 (.mfDbl true 3 2 ⟨1,0,1,1⟩) 1 7 0),
    (.word48 0x0A00010BDF29#48, .rts .eq false true false (.flt2 .scalb 15 2 9)),
    (.word48 0x0B1E04103900#48, .rti .notLce true false (.satRn true false true 9)),
    (.word48 0x0C8D2FE20B4D#48, .doCounterImm 36143 6425421 true)] = true := by decide

/-- Types 14a to 25a (spec/42_group3.md, spec/43_group4.md): words with operands at positions the spec gives. -/
theorem test_decode_moves_and_system_1 : decodesAll [
    (.word48 0x0D680060B989#48, .doCounterUreg .lcntr 6338953 false),
    (.word48 0x0E3600CF906D#48, .doUntil .notFlag2 5214317 true),
    (.word48 0x10D9A92C0E6F#48, .loadUregDirect false true (.s 9) 2838236783),
    (.word48 0x118572A47403#48, .storeUregDirect false true (.r 5) 1923380227),
    (.word48 0x1BC095BFA813#48, .moveDregDirect true 8 2512365587 .sw false),
    (.word48 0xA2684307C68C#48, .loadUregOffset false 1 false .lcntr 1124583052),
    (.word48 0xABEBABA9E7B8#48, .storeUregOffset false 5 true .px 2880038840),
    (.word48 0x942021B7379F#48, .storeImm true 2 0 565655455),
    (.word48 0x0F6B2BB3B36F#48, .moveImm .px 733197167),
    (.word48 0x140A74115C86#48, .bitSet .irptl 1947294854),
    (.word48 0x142F3B4DBF2C#48, .bitClr .ustat4 994950956),
    (.word48 0x144FEA990E94#48, .bitTgl .ustat4 3935899284),
    (.word48 0x148FEF232A32#48, .bitTst .ustat4 4012059186),
    (.word48 0x14AAFE9934AD#48, .bitXor .irptl 4271453357),
    (.word48 0x16A971D7B14E#48, .modifyImm true 1 5 1909961038 .none),
    (.word48 0x16603A6B86A7#48, .bitrevImm false 0 4 980125351)] = true := by decide

/-- Types 14a to 25a (spec/42_group3.md, spec/43_group4.md): words with operands at positions the spec gives. -/
theorem test_decode_moves_and_system_2 : decodesAll [
    (.word48 0x178000000000#48, .pushLoop false false false),
    (.word48 0x174600000000#48, .popLoop false true true),
    (.word48 0x172800000000#48, .pushSts true false),
    (.word48 0x171200000000#48, .popSts false true),
    (.word48 0x170A00000000#48, .pushPcstk true),
    (.word48 0x170600000000#48, .popPcstk true),
    (.word48 0x170200000000#48, .flushCache ),
    (.word48 0x1701F0000000#48, .cacheOp true true true true true),
    (.word48 0x000000000000#48, .nop ),
    (.word48 0x008000000000#48, .idle ),
    (.word48 0x00C000000000#48, .emuidle ),
    (.word48 0x004000000000#48, .sync ),
    (.word48 0x180400C02659#48, .cjump 12592729),
    (.word48 0x1844003B4540#48, .cjumpPcRel 3884352),
    (.word48 0x1A0400000000#48, .rframe ),
    (.word16 0x0001#16, .nopShort )] = true := by decide

/-- Types 14a to 25a (spec/42_group3.md, spec/43_group4.md): words with operands at positions the spec gives. -/
theorem test_decode_moves_and_system_3 : decodesAll [
    (.word32 0x1A040000#32, .rframeShort )] = true := by decide

/-- VISA types (log 7): words with operands at positions the spec gives. -/
theorem test_decode_visa : decodesAll [
    (.word32 0x3210D43F#32, .dualMove true 1 0 8 false 3 2 8),
    (.word32 0x019326E9#32, .compute (.dblMulFlt 3 7 9)),
    (.word32 0x580C42BC#32, .moveUregSized .ms true false false 4 0 (.r 5) .sw),
    (.word16 0x917E#16, .moveDregShort true 14 0 5),
    (.word32 0x60733ABC#32, .moveDregImmSized .notFlag0 false false 0 true 39 5 .sw),
    (.word32 0x76AC3FBF#32, .moveUregShort .notMs (.sys .ustat4) .lcntr),
    (.word32 0x7A8006BF#32, .swapDregShort .eq 13 10),
    (.word32 0x045A0A3F#32, .modifyShort .tf true 0 2 1),
    (.word32 0x08B5583F#32, .branchShort .notFlag1 (.indirect 3 5) (.call false)),
    (.word16 0x0B82#16, .returnShort .lt (.rti false)),
    (.word32 0x94883050#32, .moveUregOffset7 false false 1 true (.r 5) 36),
    (.word32 0x94A4EF6D#32, .storeImm16 true 2 2 61293),
    (.word32 0x9B26381B#32, .moveImm16 (.s 9) 14363),
    (.word16 0x0081#16, .idleShort false)] = true := by decide

/-- R402, R672: the 48-bit RFRAME in VISA space, and the 32-bit one before another instruction. -/
theorem test_decode_rframe : decodeVisa 0x1A04 0 0 = .ok (.rframe, 3) ∧ decodeVisa 0x1A04 0 1 = .ok (.rframeShort, 2) := by decide

/-- Fixed-point ALU (spec/44_alu_fixed.md): words with operands at positions the spec gives. -/
theorem test_decode_fixed_1 : decodesAll [
    (.word48 0x013E00001319#48, .fixAdd 3 1 9),
    (.word48 0x013E0000256B#48, .fixSub 5 6 11),
    (.word48 0x013E0000572C#48, .fixAddCarry 7 2 12),
    (.word48 0x013E0000656E#48, .fixSubBorrow 5 6 14),
    (.word48 0x013E00009141#48, .fixAvg 1 4 1),
    (.word48 0x013E0000A011#48, .fixComp 1 1),
    (.word48 0x013E0000B09D#48, .fixCompU 9 13),
    (.word48 0x013E000255A0#48, .fixPlusCarry 5 10),
    (.word48 0x013E000266F0#48, .fixPlusCarryMinus1 6 15),
    (.word48 0x013E000293B0#48, .fixInc 3 11),
    (.word48 0x013E0002A100#48, .fixDec 1 0),
    (.word48 0x013E000229A0#48, .fixNeg 9 10),
    (.word48 0x013E000307C0#48, .fixAbs 7 12),
    (.word48 0x013E000210B0#48, .fixPass 0 11),
    (.word48 0x013E00040B74#48, .fixAnd 11 7 4),
    (.word48 0x013E000415F7#48, .fixOr 5 15 7)] = true := by decide

/-- Fixed-point ALU (spec/44_alu_fixed.md): words with operands at positions the spec gives. -/
theorem test_decode_fixed_2 : decodesAll [
    (.word48 0x013E000422C5#48, .fixXor 2 12 5),
    (.word48 0x013E00043470#48, .fixNot 4 7),
    (.word48 0x013E000618D7#48, .fixMin 8 13 7),
    (.word48 0x013E00062BFB#48, .fixMax 11 15 11),
    (.word48 0x013E00063C6E#48, .fixClip 12 6 14),
    (.word48 0x013E00074764#48, .fixAddSub 7 4 6 4)] = true := by decide

/-- Floating-point ALU (spec/45_alu_float.md): words with operands at positions the spec gives. -/
theorem test_decode_float_1 : decodesAll [
    (.word48 0x013E000817DA#48, .fltAdd 7 13 10),
    (.word48 0x013E00082463#48, .fltSub 4 6 3),
    (.word48 0x013E00091279#48, .fltAbsAdd 2 7 9),
    (.word48 0x013E00092486#48, .fltAbsSub 4 8 6),
    (.word48 0x013E00089BAB#48, .fltAvg 11 10 11),
    (.word48 0x013E0008A0E1#48, .fltComp 14 1),
    (.word48 0x013E000A29B0#48, .fltNeg 9 11),
    (.word48 0x013E000B0D90#48, .fltAbs 13 9),
    (.word48 0x013E000A1110#48, .fltPass 1 1),
    (.word48 0x013E000A5520#48, .fltRnd 5 2),
    (.word48 0x013E000BDF82#48, .fltScalb 15 8 2),
    (.word48 0x013E000ADC60#48, .fltMant 12 6),
    (.word48 0x013E000C1E10#48, .fltLogb 14 1),
    (.word48 0x013E000C9C10#48, .fltFix 12 1),
    (.word48 0x013E000D9EEA#48, .fltFixBy 14 14 10),
    (.word48 0x013E000CDFC0#48, .fltTrunc 15 12)] = true := by decide

/-- Floating-point ALU (spec/45_alu_float.md): words with operands at positions the spec gives. -/
theorem test_decode_float_2 : decodesAll [
    (.word48 0x013E000DDA02#48, .fltTruncBy 10 0 2),
    (.word48 0x013E000CAF40#48, .fltFloat 15 4),
    (.word48 0x013E000DA63B#48, .fltFloatBy 6 3 11),
    (.word48 0x013E000C4AE0#48, .fltRecips 10 14),
    (.word48 0x013E000C5A50#48, .fltRsqrts 10 5),
    (.word48 0x013E000E0728#48, .fltCopysign 7 2 8),
    (.word48 0x013E000E1412#48, .fltMin 4 1 2),
    (.word48 0x013E000E28FF#48, .fltMax 8 15 15),
    (.word48 0x013E000E3FC6#48, .fltClip 15 12 6),
    (.word48 0x013E0001EB20#48, .fltFromDbl 11 1),
    (.word48 0x013E000FBBE6#48, .fltAddSub 11 11 14 6),
    (.word48 0x013E001300E7#48, .fltMul 0 14 7)] = true := by decide

/-- 64-bit floating-point ALU (spec/46_alu_float64.md): words with operands at positions the spec gives. -/
theorem test_decode_double : decodesAll [
    (.word48 0x013E00011048#48, .dblAdd 0 2 4),
    (.word48 0x013E000122A8#48, .dblSub 1 5 4),
    (.word48 0x013E00013042#48, .dblComp 2 1),
    (.word48 0x013E00014E20#48, .dblNeg 7 1),
    (.word48 0x013E000156E0#48, .dblAbs 3 7),
    (.word48 0x013E00016A20#48, .dblPass 5 1),
    (.word48 0x013E000176C0#48, .dblFix 6 6),
    (.word48 0x013E00018F4C#48, .dblFixBy 15 2 12),
    (.word48 0x013E00019C80#48, .dblTrunc 12 4),
    (.word48 0x013E0001AB27#48, .dblTruncBy 11 1 7),
    (.word48 0x013E0001B6B0#48, .dblFloat 3 11),
    (.word48 0x013E0001C0C9#48, .dblFloatBy 0 12 9),
    (.word48 0x013E0001D6E0#48, .dblFromFlt 3 14),
    (.word48 0x013E0001F680#48, .dblScalb 3 4 0)] = true := by decide

/-- Multiplier (spec/47_multiplier.md): words with operands at positions the spec gives. -/
theorem test_decode_multiply_1 : decodesAll [
    (.word48 0x013E00178A75#48, .mulRn ⟨true,true,true,false⟩ 10 7 5),
    (.word48 0x013E0017C05B#48, .mulMrf ⟨true,true,true,false⟩ 5 11),
    (.word48 0x013E0017E0EA#48, .mulMrb ⟨true,true,true,false⟩ 14 10),
    (.word48 0x013E001A9CDD#48, .macAddRnMrf ⟨true,false,true,true⟩ 12 13 13),
    (.word48 0x013E001BA389#48, .macAddRnMrb ⟨true,true,true,false⟩ 3 8 9),
    (.word48 0x013E001AD06D#48, .macAddMrf ⟨true,false,true,true⟩ 6 13),
    (.word48 0x013E001BE06F#48, .macAddMrb ⟨true,true,true,false⟩ 6 15),
    (.word48 0x013E001F8E05#48, .macSubRnMrf ⟨true,true,true,false⟩ 14 0 5),
    (.word48 0x013E001D28BE#48, .macSubRnMrb ⟨false,true,false,false⟩ 8 11 14),
    (.word48 0x013E001D40A2#48, .macSubMrf ⟨false,true,false,false⟩ 10 2),
    (.word48 0x013E001EF006#48, .macSubMrb ⟨true,false,true,true⟩ 0 6),
    (.word48 0x013E00119B00#48, .rndRnMrf true 11),
    (.word48 0x013E0011AE00#48, .rndRnMrb false 14),
    (.word48 0x013E0011D000#48, .rndMrf true),
    (.word48 0x013E0011F000#48, .rndMrb true),
    (.word48 0x013E00101400#48, .satRnMrf false true 4)] = true := by decide

/-- Multiplier (spec/47_multiplier.md): words with operands at positions the spec gives. -/
theorem test_decode_multiply_2 : decodesAll [
    (.word48 0x013E0010AC00#48, .satRnMrb true false 12),
    (.word48 0x013E0010D000#48, .satMrf true true),
    (.word48 0x013E00106000#48, .satMrb false false),
    (.word48 0x013E00114000#48, .clrMrf ),
    (.word48 0x013E00116000#48, .clrMrb ),
    (.word48 0x013E00400400#48, .readMr0f 4),
    (.word48 0x013E00410800#48, .writeMr0f 8),
    (.word48 0x013E00401900#48, .readMr1f 9),
    (.word48 0x013E00411200#48, .writeMr1f 2),
    (.word48 0x013E00402700#48, .readMr2f 7),
    (.word48 0x013E00412B00#48, .writeMr2f 11),
    (.word48 0x013E00404300#48, .readMr0b 3),
    (.word48 0x013E00414F00#48, .writeMr0b 15),
    (.word48 0x013E00405F00#48, .readMr1b 15),
    (.word48 0x013E00415C00#48, .writeMr1b 12),
    (.word48 0x013E00406100#48, .readMr2b 1)] = true := by decide

/-- Multiplier (spec/47_multiplier.md): words with operands at positions the spec gives. -/
theorem test_decode_multiply_3 : decodesAll [
    (.word48 0x013E00416500#48, .writeMr2b 5),
    (.word48 0x013E001318CA#48, .dblMul 4 6 5),
    (.word48 0x013E00132A0C#48, .dblMulFlt 5 0 12),
    (.word48 0x013E0013387E#48, .dblMulFlt2 4 7 14)] = true := by decide

/-- Shifter (spec/48_shifter.md): words with operands at positions the spec gives. -/
theorem test_decode_shift_1 : decodesAll [
    (.word48 0x013E00200AE5#48, .lshift 10 14 5),
    (.word48 0x013E00220870#48, .orLshift 8 7 0),
    (.word48 0x013E00204C52#48, .ashift 12 5 2),
    (.word48 0x013E00224CF6#48, .orAshift 12 15 6),
    (.word48 0x013E00208CDD#48, .rot 12 13 13),
    (.word48 0x013E002C0276#48, .bset 2 7 6),
    (.word48 0x013E002C4420#48, .bclr 4 2 0),
    (.word48 0x013E002C8F05#48, .btgl 15 0 5),
    (.word48 0x013E002CC069#48, .btst 6 9),
    (.word48 0x013E00244DA4#48, .fdep 13 10 4),
    (.word48 0x013E00264B8B#48, .orFdep 11 8 11),
    (.word48 0x013E0024CD54#48, .fdepSE 13 5 4),
    (.word48 0x013E0026C4AA#48, .orFdepSE 4 10 10),
    (.word48 0x013E0024018A#48, .fext 1 8 10),
    (.word48 0x013E00248DD2#48, .fextSE 13 13 2),
    (.word48 0x013E00280400#48, .exp 4 0)] = true := by decide

/-- Shifter (spec/48_shifter.md): words with operands at positions the spec gives. -/
theorem test_decode_shift_2 : decodesAll [
    (.word48 0x013E002843F0#48, .expEx 3 15),
    (.word48 0x013E00288780#48, .leftz 7 8),
    (.word48 0x013E0028C380#48, .lefto 3 8),
    (.word48 0x013E00290400#48, .fpack 4 0),
    (.word48 0x013E00294F10#48, .funpack 15 1),
    (.word48 0x013E0027401A#48, .bitdep 1 10),
    (.word48 0x013E002506D0#48, .bitext 6 13),
    (.word48 0x013E00258550#48, .bitextNU 5 5),
    (.word48 0x013E0027C700#48, .setBffwrp 7),
    (.word48 0x013E00270200#48, .getBffwrp 2)] = true := by decide

/-- Immediate shifts (R448): words with operands at positions the spec gives. -/
theorem test_decode_shift_immediate_1 : decodesAll [
    (.word48 0x023E0000E074#48, .lshiftImm 7 4 224),
    (.word48 0x023E00089DF1#48, .orLshiftImm 15 1 157),
    (.word48 0x023E0001F0CC#48, .ashiftImm 12 12 240),
    (.word48 0x023E0009A04A#48, .orAshiftImm 4 10 160),
    (.word48 0x023E00020DB2#48, .rotImm 11 2 13),
    (.word48 0x023E0030ACF7#48, .bsetImm 15 7 172),
    (.word48 0x023E00317748#48, .bclrImm 4 8 119),
    (.word48 0x023E0032D908#48, .btglImm 0 8 217),
    (.word48 0x023E00333407#48, .btstImm 7 52),
    (.word48 0x023E3811887A#48, .fdepImm 7 10 8 30),
    (.word48 0x023E201904E4#48, .orFdepImm 14 4 4 16),
    (.word48 0x023E6013BC5A#48, .fdepSEImm 5 10 60 50),
    (.word48 0x023E701BB568#48, .orFdepSEImm 6 8 53 58),
    (.word48 0x023E40106636#48, .fextImm 3 6 38 33),
    (.word48 0x023E081268C8#48, .fextSEImm 12 8 40 5),
    (.word48 0x023E601D990D#48, .bitdepImm 13 3225)] = true := by decide

/-- Immediate shifts (R448): words with operands at positions the spec gives. -/
theorem test_decode_shift_immediate_2 : decodesAll [
    (.word48 0x023E18146B50#48, .bitextImm 5 875),
    (.word48 0x023E28165A10#48, .bitextNUImm 1 1370),
    (.word48 0x023E001F2E00#48, .setBffwrpImm 46)] = true := by decide

/-- Multifunction computations (spec/49_multifunction.md): words with operands at positions the spec gives. -/
theorem test_decode_multifunction_1 : decodesAll [
    (.word48 0x013E004477D7#48, .mfMulAdd 7 7 ⟨3,1,1,3⟩),
    (.word48 0x013E00452E9E#48, .mfMulSub 2 14 ⟨2,1,3,2⟩),
    (.word48 0x013E00463E50#48, .mfMulAvg 3 14 ⟨1,1,0,0⟩),
    (.word48 0x013E00480E13#48, .mfMacAddMrfAdd 14 ⟨0,1,0,3⟩),
    (.word48 0x013E00490AD1#48, .mfMacAddMrfSub 10 ⟨3,1,0,1⟩),
    (.word48 0x013E004A02C1#48, .mfMacAddMrfAvg 2 ⟨3,0,0,1⟩),
    (.word48 0x013E004CC897#48, .mfMacAddRmAdd 12 8 ⟨2,1,1,3⟩),
    (.word48 0x013E004DDB5E#48, .mfMacAddRmSub 13 11 ⟨1,1,3,2⟩),
    (.word48 0x013E004EE9AA#48, .mfMacAddRmAvg 14 9 ⟨2,2,2,2⟩),
    (.word48 0x013E00500F67#48, .mfMacSubMrfAdd 15 ⟨1,2,1,3⟩),
    (.word48 0x013E00510BEE#48, .mfMacSubMrfSub 11 ⟨3,2,3,2⟩),
    (.word48 0x013E00520CF9#48, .mfMacSubMrfAvg 12 ⟨3,3,2,1⟩),
    (.word48 0x013E005489A1#48, .mfMacSubRmAdd 8 9 ⟨2,2,0,1⟩),
    (.word48 0x013E00554647#48, .mfMacSubRmSub 4 6 ⟨1,0,1,3⟩),
    (.word48 0x013E0056E553#48, .mfMacSubRmAvg 14 5 ⟨1,1,0,3⟩),
    (.word48 0x013E0058E274#48, .mfFltAdd 14 2 ⟨1,3,1,0⟩)] = true := by decide

/-- Multifunction computations (spec/49_multifunction.md): words with operands at positions the spec gives. -/
theorem test_decode_multifunction_2 : decodesAll [
    (.word48 0x013E0059F011#48, .mfFltSub 15 0 ⟨0,1,0,1⟩),
    (.word48 0x013E005A1EFB#48, .mfFltFloatBy 1 14 ⟨3,3,2,3⟩),
    (.word48 0x013E005BA624#48, .mfFltFixBy 10 6 ⟨0,2,1,0⟩),
    (.word48 0x013E005CDD99#48, .mfFltAvg 13 13 ⟨2,1,2,1⟩),
    (.word48 0x013E005D7AC5#48, .mfFltAbs 7 10 ⟨3,0,1,1⟩),
    (.word48 0x013E005E3E4C#48, .mfFltMax 3 14 ⟨1,0,3,0⟩),
    (.word48 0x013E005FC351#48, .mfFltMin 12 3 ⟨1,1,0,1⟩),
    (.word48 0x013E00615442#48, .mfFixAddSub 5 4 1 ⟨1,0,0,2⟩),
    (.word48 0x013E00793B1D#48, .mfFltAddSub 3 11 9 ⟨0,1,3,1⟩),
    (.word48 0x013E0043AC88#48, .mfDblAdd 5 6 ⟨1,0,1,0⟩),
    (.word48 0x013E00472C02#48, .mfDblSub 1 6 ⟨0,0,0,1⟩)] = true := by decide

/-- Type 2c short computes (R447): words with operands at positions the spec gives. -/
theorem test_decode_short : decodesAll [
    (.word16 0xC042#16, .shortAdd 4 2),
    (.word16 0xC158#16, .shortSub 5 8),
    (.word16 0xC29D#16, .shortPass 9 13),
    (.word16 0xC315#16, .shortComp 1 5),
    (.word16 0xC4AC#16, .shortNot 10 12),
    (.word16 0xC5B9#16, .shortInc 11 9),
    (.word16 0xC6F6#16, .shortDec 15 6),
    (.word16 0xC73F#16, .shortMul 3 15),
    (.word16 0xC806#16, .shortFltAdd 0 6),
    (.word16 0xC9C7#16, .shortFltSub 12 7),
    (.word16 0xCA79#16, .shortFloat 7 9),
    (.word16 0xCBD5#16, .shortFltComp 13 5),
    (.word16 0xCC8D#16, .shortAnd 8 13),
    (.word16 0xCD99#16, .shortOr 9 9),
    (.word16 0xCE19#16, .shortXor 1 9),
    (.word16 0xCF88#16, .shortFltMul 8 8)] = true := by decide
/-! ### Words that no instruction has -/

theorem test_decode_no_type : decode 0x030000000000#48 = .error .noType := by decide
theorem test_decode_spare_bits : decode 0x000000000001#48 = .error .spareBits := by decide
theorem test_decode_odd_pair : decode 0x013E00011124#48 = .error .oddPair := by decide
theorem test_decode_stack_mix : decode 0x174000000000#48 ≠ .ok .nop := by decide

/-! ### Vectors of spec/95_test_vectors.md, one step each -/

theorem test_loadUreg_1 : runsTo [.m1 0x01000000, .B 2 0xB8010, .L 2 4, .I 2 0xB8013, .M 3 2, .mem 0xB8013 7] 0x54FE02800000
    (fun t => R t 5 == 0x700 && I t 2 == 0xB8011 && t.sys.irptl == 0) = true := by decide
theorem test_storeUreg_1 : runsTo [.m1 0x01000000, .B 7 0, .L 7 0xFFFF, .I 7 0xB8200, .M 7 1] 0x5FFE82800000
    (fun t => I t 7 == 0xA8202) = true := by decide
theorem test_loadDregImm_1 : runsTo [.I 4 0xB8012, .mem 0xB8010 0x33] 0x683FF3000000
    (fun t => R t 6 == 0x3300 && I t 4 == 0xB8012) = true := by decide
theorem test_storeDregImm_1 : runsTo [.I 4 0xB8012, .d 6 0x3300] 0x68FE2B000000
    (fun t => rd t.mem 0xB8012 == 0x33 && I t 4 == 0xB8017) = true := by decide
theorem test_moveUreg_1 : runsTo [.m1 0x200000, .d 2 0x500, .sy 2 0x600, .u (.sys .astaty) 1] 0x700104800000
    (fun t => R t 9 == 0 && Y t 9 == 0x600) = true := by decide
theorem test_callDirect_1 : runsTo [] 0x06BE00090210
    (fun t => t.seq.pc == 0x90210 && t.pcstk t.seq == 0x01090101 && t.stkyx == 0x05000000) = true := by decide
theorem test_jumpPcRel_1 : runsTo [] 0x073E00FFFFFD
    (fun t => t.seq.pc == 0x900FD) = true := by decide
theorem test_jumpIndirect_1 : runsTo [.I 8 0x90400, .M 9 0x10, .u (.sys .astatx) 1] 0x080008000000
    (fun t => t.seq.pc == 0x90410 && I t 8 == 0x90400) = true := by decide
theorem test_callIndirect_1 : runsTo [.I 10 0x90100, .M 11 5, .d 1 0x100, .d 2 0x200, .u (.sys .astatx) 4] 0x08829A001012
    (fun t => t.seq.pc == 0x90105 && R t 0 == 0 && t.pcstk t.seq == 0x01090101) = true := by decide
theorem test_rts_1 : runsTo [.u (.sys .astatx) 1, .d 3 0x200] 0x0A200202A330
    (fun t => R t 3 == 0x100) = true := by decide
theorem test_doCounterImm_1 : runsTo [] 0x0C0064000020
    (fun t => t.seq.curlcntr == 100 && t.seq.laddr.truncate 24 == 0x90120#24 && t.stkyx == 0x01000000) = true := by decide
theorem test_doCounterUreg_1 : runsTo [.d 12 0x200] 0x0D0C00000010
    (fun t => t.seq.curlcntr == 2) = true := by decide
theorem test_loadUregDirect_1 : runsTo [.mem 0x98000 0x11111111, .mem 0x98001 0x22222222] 0x10EB00098000
    (fun t => t.data.px == 0x2222222211111111#64) = true := by decide
theorem test_storeUregDirect_1 : runsTo [.m1 0x1000] 0x1372000B8010
    (fun t => rd t.mem 0xB8010 == 0x1000) = true := by decide
theorem test_storeUregOffset_1 : runsTo [.I 5 0xB8000, .u .tcount 0x123] 0xAB6F00000018
    (fun t => rd t.mem 0xB8018 == 0x123 && I t 5 == 0xB8000) = true := by decide
theorem test_loadUregOffset_1 : runsTo [.I 13 0xB8100, .mem 0xB8110 0xCAFEF00D] 0xBA7000000010
    (fun t => t.sys.ustat1 == 0xCAFEF00D) = true := by decide
theorem test_storeImm_1 : runsTo [.I 4 0xB8000, .M 0 1] 0x980000004B68
    (fun t => rd t.mem 0xB8000 == 0x4B68 && I t 4 == 0xB8001) = true := by decide
/-- R626, D32: in long-word space the constant is the low word, the high one is 0. -/
theorem test_storeImm_2 : runsTo [.I 4 0x60000, .M 0 0, .mem 0xC0001 7] 0x980000004B68
    (fun t => rd t.mem 0xC0000 == 0x4B68 && rd t.mem 0xC0001 == 0) = true := by decide
theorem test_moveImm_1 : runsTo [] 0x0F47000B8200
    (fun t => I t 7 == 0xB8200) = true := by decide
theorem test_bitSet_1 : runsTo [.m1 0x1000] 0x140201000000
    (fun t => t.sys.mode1 == 0x01001000) = true := by decide
theorem test_bitClr_1 : runsTo [.m1 0x01001000] 0x142201000000
    (fun t => t.sys.mode1 == 0x00001000) = true := by decide
theorem test_bitTst_1 : runsTo [.m1 0x200000, .u (.sys .ustat1) 0x80000000] 0x148080000000
    (fun t => t.astatx == 0x40000 && t.sys.astaty == 0) = true := by decide
theorem test_bitXor_1 : runsTo [.u (.sys .ustat1) 0xAAAA5554] 0x14A0AAAA5555
    (fun t => t.astatx == 0) = true := by decide
theorem test_pushSts_1 : runsTo [.m1 0x01202821, .u (.sys .mmask) 0x202001, .u (.sys .astatx) 5] 0x172000000000
    (fun t => t.sys.mode1 == 0x01000820 && t.mode1stk == 0x01202821 && t.stkyx == 0x04400000) = true := by decide
theorem test_cjump_1 : runsTo [.I 6 0xB8300, .I 7 0xB82F0] 0x180400090500
    (fun t => R t 2 == 0x0B830000 && I t 6 == 0xB82F0) = true := by decide
theorem test_rframe_1 : runsTo [.I 6 0xB82F0, .mem 0xB82F0 0xB8300] 0x1A0400000000
    (fun t => I t 7 == 0xB82F0 && I t 6 == 0xB8300) = true := by decide
theorem test_fixAdd_1 : runsTo [.m1 8192, .d 1 0x7FFFFFFF00, .d 2 0x100] 0x13E00001012
    (fun t => R t 0 == 0x7FFFFFFF00 && t.astatx == 2 && t.sys.stkyx == 4) = true := by decide
theorem test_fixSub_1 : runsTo [.m1 8192, .d 1 0x8000000000, .d 2 0x100] 0x13E00002012
    (fun t => R t 0 == 0x8000000000 && t.astatx == 14 && t.sys.stkyx == 4) = true := by decide
theorem test_fixAddCarry_1 : runsTo [.d 1 0x100, .d 2 0x100, .u (.sys .astatx) 0] 0x13E00005012
    (fun t => R t 0 == 0x200 && t.astatx == 0 && t.sys.stkyx == 0) = true := by decide
theorem test_fixSubBorrow_1 : runsTo [.d 1 0x0, .d 2 0x0, .u (.sys .astatx) 0] 0x13E00006012
    (fun t => R t 0 == 0xFFFFFFFF00 && t.astatx == 4 && t.sys.stkyx == 0) = true := by decide
theorem test_fixPlusCarry_1 : runsTo [.m1 8192, .d 1 0x7FFFFFFF00, .u (.sys .astatx) 8] 0x13E00025012
    (fun t => R t 0 == 0x7FFFFFFF00 && t.astatx == 2 && t.sys.stkyx == 4) = true := by decide
theorem test_fixPlusCarryMinus1_1 : runsTo [.m1 8192, .d 1 0x8000000000, .u (.sys .astatx) 0] 0x13E00026012
    (fun t => R t 0 == 0x8000000000 && t.astatx == 14 && t.sys.stkyx == 4) = true := by decide
theorem test_fixInc_1 : runsTo [.m1 8192, .d 1 0x7FFFFFFF00] 0x13E00029012
    (fun t => R t 0 == 0x7FFFFFFF00 && t.astatx == 2 && t.sys.stkyx == 4) = true := by decide
theorem test_fixDec_1 : runsTo [.m1 8192, .d 1 0x8000000000] 0x13E0002A012
    (fun t => R t 0 == 0x8000000000 && t.astatx == 14 && t.sys.stkyx == 4) = true := by decide
theorem test_fixNeg_1 : runsTo [.m1 8192, .d 1 0x8000000000] 0x13E00022012
    (fun t => R t 0 == 0x7FFFFFFF00 && t.astatx == 2 && t.sys.stkyx == 4) = true := by decide
theorem test_fixAvg_1 : runsTo [.m1 32768, .d 1 0x100, .d 2 0x200] 0x13E00009012
    (fun t => R t 0 == 0x100 && t.astatx == 0 && t.sys.stkyx == 0) = true := by decide
theorem test_fixComp_1 : runsTo [.d 1 0x400, .d 2 0x400] 0x13E0000A012
    (fun t => t.astatx == 0x1) = true := by decide
theorem test_fixCompU_1 : runsTo [.d 1 0x100, .d 2 0xFFFFFFFF00] 0x13E0000B012
    (fun t => t.astatx == 0x4) = true := by decide
theorem test_fixAbs_1 : runsTo [.m1 8192, .d 1 0x8000000000] 0x13E00030012
    (fun t => R t 0 == 0x7FFFFFFF00 && t.astatx == 18 && t.sys.stkyx == 4) = true := by decide
theorem test_fixPass_1 : runsTo [.d 1 0x1234567800] 0x13E00021012
    (fun t => R t 0 == 0x1234567800 && t.astatx == 0 && t.sys.stkyx == 0) = true := by decide
theorem test_fixAnd_1 : runsTo [.d 1 0xF0F0F0F000, .d 2 0xF0F0F0F00] 0x13E00040012
    (fun t => R t 0 == 0x0 && t.astatx == 1 && t.sys.stkyx == 0) = true := by decide
theorem test_fixOr_1 : runsTo [.d 1 0xF0F0F0F000, .d 2 0xF0F0F0F00] 0x13E00041012
    (fun t => R t 0 == 0xFFFFFFFF00 && t.astatx == 4 && t.sys.stkyx == 0) = true := by decide
theorem test_fixXor_1 : runsTo [.d 1 0xFFFFFFFF00, .d 2 0xFFFFFFFF00] 0x13E00042012
    (fun t => R t 0 == 0x0 && t.astatx == 1 && t.sys.stkyx == 0) = true := by decide
theorem test_fixNot_1 : runsTo [.d 1 0x0] 0x13E00043012
    (fun t => R t 0 == 0xFFFFFFFF00 && t.astatx == 4 && t.sys.stkyx == 0) = true := by decide
theorem test_fixMin_1 : runsTo [.d 1 0xFFFFFFFF00, .d 2 0x100] 0x13E00061012
    (fun t => R t 0 == 0xFFFFFFFF00 && t.astatx == 4 && t.sys.stkyx == 0) = true := by decide
theorem test_fixMax_1 : runsTo [.d 1 0x8000000000, .d 2 0x7FFFFFFF00] 0x13E00062012
    (fun t => R t 0 == 0x7FFFFFFF00 && t.astatx == 0 && t.sys.stkyx == 0) = true := by decide
theorem test_fixClip_1 : runsTo [.d 1 0x500, .d 2 0x0] 0x13E00063012
    (fun t => R t 0 == 0x0 && t.astatx == 1 && t.sys.stkyx == 0) = true := by decide
theorem test_fltAdd_1 : runsTo [.m1 32768, .d 1 0x7F7FFFFFFF, .d 2 0x7F7FFFFFFF] 0x13E00081012
    (fun t => R t 0 == 0x7F7FFFFFFF && t.astatx == 1026 && t.sys.stkyx == 2) = true := by decide
theorem test_fltSub_1 : runsTo [.d 1 0x80000000, .d 2 0xC0000000] 0x13E00082012
    (fun t => R t 0 == 0x8000000000 && t.astatx == 1029 && t.sys.stkyx == 1) = true := by decide
theorem test_fltAbsSub_1 : runsTo [.d 1 0x3F80000000, .d 2 0x4000000000] 0x13E00092012
    (fun t => R t 0 == 0x3F80000000 && t.astatx == 1024 && t.sys.stkyx == 0) = true := by decide
theorem test_fltAbsAdd_1 : runsTo [.d 1 0xFF7FFFFFFF, .d 2 0xFF7FFFFFFF] 0x13E00091012
    (fun t => R t 0 == 0x7F80000000 && t.astatx == 1026 && t.sys.stkyx == 2) = true := by decide
theorem test_fltAvg_1 : runsTo [.d 1 0x80000000, .d 2 0x0] 0x13E00089012
    (fun t => R t 0 == 0x0 && t.astatx == 1025 && t.sys.stkyx == 1) = true := by decide
theorem test_fltComp_1 : runsTo [.u (.sys .astatx) 0x01000000, .d 1 0x7FC0000000, .d 2 0x3F80000000] 0x13E0008A012
    (fun t => t.astatx == 0x420) = true := by decide
theorem test_fltNeg_1 : runsTo [.d 1 0x0] 0x13E000A2012
    (fun t => R t 0 == 0x8000000000 && t.astatx == 1029 && t.sys.stkyx == 0) = true := by decide
theorem test_fltAbs_1 : runsTo [.d 1 0x8000000123] 0x13E000B0012
    (fun t => R t 0 == 0x0 && t.astatx == 1041 && t.sys.stkyx == 0) = true := by decide
theorem test_fltPass_1 : runsTo [.d 1 0x3F800000FF] 0x13E000A1012
    (fun t => R t 0 == 0x3F800000FF && t.astatx == 1024 && t.sys.stkyx == 0) = true := by decide
theorem test_fltRnd_1 : runsTo [.m1 32768, .d 1 0x3F800001FF] 0x13E000A5012
    (fun t => R t 0 == 0x3F80000100 && t.astatx == 1024 && t.sys.stkyx == 0) = true := by decide
theorem test_fltScalb_1 : runsTo [.m1 32768, .d 1 0x3F80000000, .d 2 0x8000] 0x13E000BD012
    (fun t => R t 0 == 0x7F7FFFFFFF && t.astatx == 1026 && t.sys.stkyx == 2) = true := by decide
theorem test_fltMant_1 : runsTo [.d 1 0xFF80000000] 0x13E000AD012
    (fun t => R t 0 == 0xFFFFFFFFFF && t.astatx == 1042 && t.sys.stkyx == 2) = true := by decide
theorem test_fltLogb_1 : runsTo [.m1 8192, .d 1 0xFF80000000] 0x13E000C1012
    (fun t => R t 0 == 0x7FFFFFFF00 && t.astatx == 1026 && t.sys.stkyx == 2) = true := by decide
theorem test_fltCopysign_1 : runsTo [.d 1 0x3F80000000, .d 2 0xC000000000] 0x13E000E0012
    (fun t => R t 0 == 0xBF80000000 && t.astatx == 1028 && t.sys.stkyx == 0) = true := by decide
theorem test_fltMin_1 : runsTo [.d 1 0x3F80000000, .d 2 0xC000000000] 0x13E000E1012
    (fun t => R t 0 == 0xC000000000 && t.astatx == 1028 && t.sys.stkyx == 0) = true := by decide
theorem test_fltMax_1 : runsTo [.d 1 0x0, .d 2 0x8000000000] 0x13E000E2012
    (fun t => R t 0 == 0x0 && t.astatx == 1025 && t.sys.stkyx == 0) = true := by decide
theorem test_fltClip_1 : runsTo [.d 1 0x4040000000, .d 2 0xC000000000] 0x13E000E3012
    (fun t => R t 0 == 0x4000000000 && t.astatx == 1024 && t.sys.stkyx == 0) = true := by decide
theorem test_fltFix_1 : runsTo [.m1 32768, .d 1 0x4020000000] 0x13E000C9012
    (fun t => R t 0 == 0x200 && t.astatx == 1024 && t.sys.stkyx == 0) = true := by decide
theorem test_fltTrunc_1 : runsTo [.d 1 0xBE80000000] 0x13E000CD012
    (fun t => R t 0 == 0x0 && t.astatx == 1025 && t.sys.stkyx == 1) = true := by decide
theorem test_fltFixBy_1 : runsTo [.d 1 0x3F80000000, .d 2 0xFFFFFFFF00] 0x13E000D9012
    (fun t => R t 0 == 0x0 && t.astatx == 1025 && t.sys.stkyx == 1) = true := by decide
theorem test_fltFloat_1 : runsTo [.m1 65536, .d 1 0x7FFFFFFF00] 0x13E000CA012
    (fun t => R t 0 == 0x4EFFFFFFFE && t.astatx == 1024 && t.sys.stkyx == 0) = true := by decide
theorem test_fltFloatBy_1 : runsTo [.d 1 0x100, .d 2 0xFFFFFF8100] 0x13E000DA012
    (fun t => R t 0 == 0x0 && t.astatx == 1025 && t.sys.stkyx == 1) = true := by decide
theorem test_fltRecips_1 : runsTo [.d 1 0xFF80000000] 0x13E000C4010
    (fun t => t.astatx == 1029 && t.sys.stkyx == 1 && R t 0 == 0x8000000000) = true := by decide
theorem test_fltRsqrts_1 : runsTo [.d 1 0xBF80000000] 0x13E000C5010
    (fun t => t.astatx == 1056 && t.sys.stkyx == 32 && R t 0 == 0xFFFFFFFFFF) = true := by decide
theorem test_dblAdd_1 : runsTo [.d 3 0x0, .d 2 0x100, .d 5 0x3FF0000000, .d 4 0x0] 0x13E00011024
    (fun t => R t 1 == 0x3FF0000000 && R t 0 == 0x0 && t.astatx == 1024 && t.sys.stkyx == 0) = true := by decide
theorem test_dblSub_1 : runsTo [.d 3 0x7FF0000000, .d 2 0x0, .d 5 0x7FF0000000, .d 4 0x0] 0x13E00012024
    (fun t => R t 1 == 0xFFFFFFFF00 && R t 0 == 0xFFFFFFFF00 && t.astatx == 1060 && t.sys.stkyx == 32) = true := by decide
theorem test_dblComp_1 : runsTo [.d 3 0x4000000000, .d 2 0x0, .d 5 0x3FF0000000, .d 4 0x0] 0x13E00013024
    (fun t => t.astatx == 0x80000400) = true := by decide
theorem test_dblNeg_1 : runsTo [.d 3 0x3FF0000000, .d 2 0x0] 0x13E00014024
    (fun t => R t 1 == 0xBFF0000000 && R t 0 == 0x0 && t.astatx == 1028 && t.sys.stkyx == 0) = true := by decide
theorem test_dblAbs_1 : runsTo [.d 3 0xC004000000, .d 2 0x0] 0x13E00015024
    (fun t => R t 1 == 0x4004000000 && R t 0 == 0x0 && t.astatx == 1040 && t.sys.stkyx == 0) = true := by decide
theorem test_dblPass_1 : runsTo [.d 3 0x7FF8000000, .d 2 0x0] 0x13E00016024
    (fun t => R t 1 == 0xFFFFFFFF00 && R t 0 == 0xFFFFFFFF00 && t.astatx == 1060 && t.sys.stkyx == 32) = true := by decide
theorem test_dblFix_1 : runsTo [.m1 32768, .d 3 0xC004000000, .d 2 0x0] 0x13E00017024
    (fun t => R t 0 == 0xFFFFFFFD00 && t.astatx == 1028 && t.sys.stkyx == 0) = true := by decide
theorem test_dblTrunc_1 : runsTo [.d 3 0xC004000000, .d 2 0x0] 0x13E00019024
    (fun t => R t 0 == 0xFFFFFFFE00 && t.astatx == 1028 && t.sys.stkyx == 0) = true := by decide
theorem test_dblFixBy_1 : runsTo [.d 3 0x3FE0000000, .d 2 0x0, .d 4 0x1F00] 0x13E00018024
    (fun t => R t 0 == 0x4000000000 && t.astatx == 1024 && t.sys.stkyx == 0) = true := by decide
theorem test_dblFloat_1 : runsTo [.d 2 0x8000000000] 0x13E0001B024
    (fun t => R t 1 == 0xC1E0000000 && R t 0 == 0x0 && t.astatx == 1028 && t.sys.stkyx == 0) = true := by decide
theorem test_dblFloatBy_1 : runsTo [.d 2 0x100, .d 4 0xFFFFFC0100] 0x13E0001C024
    (fun t => R t 1 == 0x0 && R t 0 == 0x0 && t.astatx == 1025 && t.sys.stkyx == 1) = true := by decide
theorem test_dblFromFlt_1 : runsTo [.m1 65536, .d 2 0x3F800000FF] 0x13E0001D024
    (fun t => R t 1 == 0x3FF0000000 && R t 0 == 0x0 && t.astatx == 1024 && t.sys.stkyx == 0) = true := by decide
theorem test_fltFromDbl_1 : runsTo [.m1 32768, .d 3 0x47F0000000, .d 2 0x0] 0x13E0001E024
    (fun t => R t 0 == 0x7F7FFFFFFF && t.astatx == 1026 && t.sys.stkyx == 2) = true := by decide
theorem test_dblScalb_1 : runsTo [.d 3 0x3FF8000000, .d 2 0x0, .d 4 0x400] 0x13E0001F024
    (fun t => R t 1 == 0x4038000000 && R t 0 == 0x0 && t.astatx == 1024 && t.sys.stkyx == 0) = true := by decide
theorem test_mulRn_1 : runsTo [.d 1 0x5000000, .d 2 0x400000] 0x13E00178012
    (fun t => R t 0 == 0x200 && t.astatx == 0x0) = true := by decide
theorem test_mulMrf_1 : runsTo [.d 1 0x5000000, .d 2 0x400000] 0x13E0017C012
    (fun t => t.data.mrf == 0x280000000 && t.astatx == 0x0 && t.sys.stkyx.getLsbD 6 == false) = true := by decide
theorem test_macAddRnMrf_1 : runsTo [.d 1 0x100, .d 2 0x100, .mrf 0x7FFFFFFF] 0x13E001B0012
    (fun t => R t 0 == 0x8000000000 && t.astatx == 0x80) = true := by decide
theorem test_macAddMrf_1 : runsTo [.d 1 0x100, .d 2 0x100, .mrf 0x7FFFFFFF] 0x13E001B4012
    (fun t => t.data.mrf == 0x80000000 && t.astatx == 0x80 && t.sys.stkyx.getLsbD 6 == true) = true := by decide
theorem test_macSubRnMrf_1 : runsTo [.d 1 0x4000000000, .d 2 0x200, .mrf 0x100000000] 0x13E001F8012
    (fun t => R t 0 == 0x0 && t.astatx == 0x0) = true := by decide
theorem test_macSubMrf_1 : runsTo [.d 1 0x4000000000, .d 2 0x200, .mrf 0x100000000] 0x13E001FC012
    (fun t => t.data.mrf == 0x0 && t.astatx == 0x0 && t.sys.stkyx.getLsbD 6 == false) = true := by decide
theorem test_rndRnMrf_1 : runsTo [.mrf 0xFFFFFFFFFFFF80000000] 0x13E00119000
    (fun t => R t 0 == 0x0 && t.astatx == 0x0 && t.sys.stkyx.getLsbD 6 == false) = true := by decide
theorem test_rndMrf_1 : runsTo [.mrf 0xFFFFFFFFFFFF80000000] 0x13E0011D000
    (fun t => t.data.mrf == 0x0 && t.astatx == 0x0) = true := by decide
theorem test_satRnMrf_1 : runsTo [.mrf 0x89ABCDEF] 0x13E00100000
    (fun t => R t 0 == 0x89ABCDEF00 && t.astatx == 0x0 && t.sys.stkyx.getLsbD 6 == false) = true := by decide
theorem test_satMrf_1 : runsTo [.mrf 0x89ABCDEF] 0x13E00104000
    (fun t => t.data.mrf == 0x89ABCDEF && t.astatx == 0x0) = true := by decide
theorem test_clrMrf_1 : runsTo [.mrf 0x3039] 0x13E00114000
    (fun t => t.data.mrf == 0x0 && t.astatx == 0x0) = true := by decide
theorem test_readMr2f_1 : runsTo [.mrf 0x7FFF1111111122222222] 0x13E00402300
    (fun t => R t 3 == 0x00007FFF00) = true := by decide
theorem test_readMr1f_1 : runsTo [.mrf 0x80011111111122222222] 0x13E00401300
    (fun t => R t 3 == 0x1111111100) = true := by decide
theorem test_readMr0b_1 : runsTo [.m1 0x4, .mrf 0xDEADBEEF] 0x13E00404300
    (fun t => R t 3 == 0xDEADBEEF00) = true := by decide
theorem test_writeMr1f_1 : runsTo [.d 4 0x7000000000, .mrf 0xFFFFFFFFFFFF55555555] 0x13E00411400
    (fun t => t.data.mrf == 0x00007000000055555555) = true := by decide
theorem test_writeMr0f_1 : runsTo [.d 4 0x80000000AB, .mrf 0x100000000] 0x13E00410400
    (fun t => t.data.mrf == 0x180000000) = true := by decide
theorem test_writeMr2f_1 : runsTo [.d 4 0x1234ABCD00, .mrf 0x100000002] 0x13E00412400
    (fun t => t.data.mrf == 0xABCD0000000100000002) = true := by decide
theorem test_fltMul_1 : runsTo [.d 1 0x3FFFFFFFFF, .d 2 0x3FFFFFFFFF] 0x13E00130012
    (fun t => R t 0 == 0x407FFFFFFE && t.astatx == 0x0 && t.sys.stkyx == 0) = true := by decide
theorem test_lshift_1 : runsTo [.d 1 0x1234567800, .d 2 0x0] 0x13E00200012
    (fun t => R t 0 == 0x1234567800 && t.astatx == 0x0) = true := by decide
theorem test_ashift_1 : runsTo [.d 1 0x1234567800, .d 2 0x0] 0x13E00204012
    (fun t => R t 0 == 0x1234567800 && t.astatx == 0x0) = true := by decide
theorem test_rot_1 : runsTo [.d 1 0x1234567800, .d 2 0x0] 0x13E00208012
    (fun t => R t 0 == 0x1234567800 && t.astatx == 0x0) = true := by decide
theorem test_fdep_1 : runsTo [.d 1 0x1234567800, .d 2 0x22800] 0x13E00244012
    (fun t => R t 0 == 0x0 && t.astatx == 0x1800) = true := by decide
theorem test_fdepSE_1 : runsTo [.d 1 0x1234567800, .d 2 0x500] 0x13E0024C012
    (fun t => R t 0 == 0x0 && t.astatx == 0x1000) = true := by decide
theorem test_fext_1 : runsTo [.d 1 0x8780000000, .d 2 0x12800] 0x13E00240012
    (fun t => R t 0 == 0x0 && t.astatx == 0x1800) = true := by decide
theorem test_fextSE_1 : runsTo [.d 1 0x8780000000, .d 2 0x21C00] 0x13E00248012
    (fun t => R t 0 == 0x800 && t.astatx == 0x800) = true := by decide
theorem test_exp_1 : runsTo [.d 1 0xFFFFFFFF00] 0x13E00280010
    (fun t => R t 0 == 0xFFFFFFE100 && t.astatx == 0x2000) = true := by decide
theorem test_leftz_1 : runsTo [.d 1 0xFFFFFFFF00] 0x13E00288010
    (fun t => R t 0 == 0x0 && t.astatx == 0x1000) = true := by decide
theorem test_lefto_1 : runsTo [.d 1 0xFFFFFFFF00] 0x13E0028C010
    (fun t => R t 0 == 0x2000 && t.astatx == 0x800) = true := by decide
theorem test_fpack_1 : runsTo [.d 1 0x3FFFFFFF00] 0x13E00290010
    (fun t => R t 0 == 0x400000 && t.astatx.getLsbD 11 == false) = true := by decide
/-- R968, D49: with MODE1.TRUNCATE the low bits are dropped. -/
theorem test_fpack_2 : runsTo [.m1 0x8000, .d 1 0x3FFFFFFF00] 0x13E00290010
    (fun t => R t 0 == 0x3FFF00) = true := by decide
theorem test_funpack_1 : runsTo [.d 1 0x1234380000] 0x13E00294010
    (fun t => R t 0 == 0x3F80000000) = true := by decide
theorem test_bset_1 : runsTo [.d 1 0x100, .d 2 0x2000] 0x13E002C0012
    (fun t => R t 0 == 0x100 && t.astatx == 0x800) = true := by decide
theorem test_bclr_1 : runsTo [.d 1 0x100, .d 2 0xFFFFFFFF00] 0x13E002C4012
    (fun t => R t 0 == 0x100 && t.astatx == 0x800) = true := by decide
theorem test_btgl_1 : runsTo [.d 1 0x100, .d 2 0x400] 0x13E002C8012
    (fun t => R t 0 == 0x1100 && t.astatx == 0x0) = true := by decide
theorem test_btst_1 : runsTo [.d 1 0x100, .d 2 0x2800] 0x13E002CC012
    (fun t => t.astatx == 0x1800) = true := by decide
theorem test_dblMul_1 : runsTo [.m1 0x8000, .d 3 0x7FE0000000, .d 5 0x4000000000] 0x013E00131024
    (fun t => R t 1 == 0x7FEFFFFF00 && R t 0 == 0xFFFFFFFF00 && t.astatx == 0x80) = true := by decide
theorem test_dblMulFlt_1 : runsTo [.d 9 0x3FF8000000, .d 3 0xC000000000] 0x013E00132683
    (fun t => R t 7 == 0xC008000000 && R t 6 == 0 && t.astatx == 0x40) = true := by decide
theorem test_dblMulFlt2_1 : runsTo [.d 2 0x3FC0000000, .d 5 0x3FC0000000] 0x013E00133E25
    (fun t => R t 15 == 0x4002000000 && R t 14 == 0 && t.astatx == 0) = true := by decide
theorem test_fixAddSub_1 : runsTo [.m1 0x2000, .d 1 0x7FFFFFFF00, .d 2 0x100] 0x013E00073412
    (fun t => R t 4 == 0x7FFFFFFF00 && t.astatx == 10) = true := by decide
theorem test_fltAddSub_1 : runsTo [.d 1 0x3F80000000, .d 2 0x7FC0000000] 0x013E000F3412
    (fun t => R t 4 == 0xFFFFFFFFFF && R t 3 == 0xFFFFFFFFFF && t.sys.stkyx == 0x20) = true := by decide
theorem test_mfFltAddSub_1 : runsTo [.m1 0x10000, .d 1 0x4000000000, .d 5 0x4040000000, .d 8 0x40A0000000, .d 12 0x3F80000000] 0x013E00730250
    (fun t => R t 0 == 0x40C0000000 && R t 2 == 0x40C0000000 && R t 3 == 0x4080000000 && t.astatx == 0x400) = true := by decide
theorem test_mfFltAdd_1 : runsTo [.d 3 0x4000000000, .d 7 0x4040000000, .d 8 0x40A0000000, .d 12 0x3F80000000] 0x013E0058C8F0
    (fun t => R t 12 == 0x40C0000000 && R t 8 == 0x40C0000000) = true := by decide
theorem test_mfMulSub_1 : runsTo [.d 1 0x4000000000, .d 4 0x4000000000, .d 9 0x500, .d 13 0x300] 0x013E00450245
    (fun t => R t 0 == 0x2000000000 && R t 2 == 0x200) = true := by decide
theorem test_mfMacAddMrfAvg_1 : runsTo [.d 2 0x4000000000, .d 6 0x4000000000, .d 8 0x500, .d 12 0x300, .mrf 5] 0x013E004A05A0
    (fun t => t.data.mrf == 0x2000000000000005 && R t 5 == 0x400) = true := by decide
theorem test_undefined_word : runsTo [] 0x030000000000
    (fun t => t.sys.irptl == 0x10 && t.seq.pc == 0x90101) = true := by decide
theorem test_pop_empty_stack : refusedFor [] 0x170400000000 .emptyStack = true := by decide

/-- R328: bytes that a store wrote and no flush sequence covered. -/
theorem test_self_modified :
    (match step { State.reset.withFetchWord 48 0 with mem := (State.reset.withFetchWord 48 0).mem.note 0x2000001A 4 } with
      | .refused r => r == .selfModified 0x500004
      | _ => false) = true := by decide
/-- R346: `DM(0x30000010) = R1` goes out over the crossbar, and with IIRAE it is an illegal access (R339). -/
theorem test_system_store : runsTo [.d 1 0x1234567800, .u (.sys .mode2) 0x100000] 0x110130000010
    (fun t => t.bus == [.write 0x30000010 4 0x12345678] && t.sys.irptl == 0x40 && t.sys.stkyx == 0x80000) = true := by decide

/-! ### The hypotheses of the statements can be met

For each statement with hypotheses, states and operands that meet them together, at the ends of the ranges of its clauses. -/

/-- The outcome is a next state. -/
def nextOf (o : Host.Outcome State Fault Refusal) : Bool :=
  match o with
  | .next _ => true
  | _ => false

/-- The bytes at the PC decode to NOP, which executes without a taken branch and leaves the state as it began. -/
noncomputable def atNop (s : State) : Bool :=
  match s.fetch s.seq.pc with
  | some f =>
    decide (f.decode = .ok .nop) && decide (f.len = 1) && decide (s.fetchStop = none) && !(s.begin f.len).bdry.taken &&
      match exec .nop (s.begin f.len) with
      | .next t => decide (t = s.begin f.len)
      | _ => false
  | none => false

/-- The bytes at the PC are an undefined word. -/
noncomputable def atUndefined (s : State) : Bool :=
  match s.fetch s.seq.pc with
  | some f =>
    match f.decode with
    | .error r => decide (r ≠ .oddPair ∧ r ≠ .stackMix)
    | .ok _ => false
  | none => false

/-- SIMD mode: both elements execute. -/
def simd : State := prepare State.reset [.m1 0x200000]

/-- R791, R503: in SISD mode PEx alone executes, in SIMD mode both elements do. -/
theorem test_hyp_elements : State.reset.runs false = true ∧ State.reset.runs true = false ∧ simd.runs false = true ∧
    simd.runs true = true := by decide

/-- Float operands: R1 = 1.0, R2 = 2.0, R3 = +infinity, R4 = -infinity, R5 = a NAN, R6 = -0, R7 = 2^31 - 1, R8 and R9 the
smallest and the largest normal exponent, R10 and R11 exponents 252 and 253, R12 = -1.0, R13 a denormal. -/
def flts : State := prepare State.reset [.d 1 0x3F80000000, .d 2 0x4000000000, .d 3 0x7F80000000, .d 4 0xFF80000000,
  .d 5 0x7FC0000000, .d 6 0x8000000000, .d 7 0x4EFFFFFFFE, .d 8 0x0080000000, .d 9 0x7F00000000, .d 10 0x7E00000000,
  .d 11 0x7E80000000, .d 12 0xBF80000000, .d 13 0x0000000001]

/-- The value of a 40-bit pattern. -/
theorem value_fin (n : RegNo) (v : Nat) (q : Option ℚ) (h : flts.fin false n = v) (hv : fmt40.value v = q) :
    fmt40.value (flts.fin false n) = q := h ▸ hv

theorem test_hyp_FloatSums_invalid : flts.nanF false 5 ∧ ¬ flts.nanF false 1 ∧
    (flts.fl false 3 = .inf false ∧ flts.fl false 4 = .inf true) := by decide

theorem test_hyp_FloatSums_infinite : flts.fl false 4 = .inf true ∧ ¬ flts.nanF false 1 ∧ flts.fl false 1 ≠ .inf false := by
  decide

/-- 1 + 2 = 3 and 1 + -1 = 0: the exact clause and the zero clause. -/
theorem test_hyp_FloatSums_exact : fmt40.value (flts.fin false 1) = some 1 ∧ fmt40.value (flts.fin false 2) = some 2 ∧
    fmt40.value (flts.fin false 12) = some (-1) ∧ fmt40.value (0x4040000000#40).toNat = some (1 + 2) ∧
    flts.inBoundary 0x4040000000#40 := by
  refine ⟨value_fin 1 0x3F80000000 _ (by decide) ?_, value_fin 2 0x4000000000 _ (by decide) ?_,
    value_fin 12 0xBF80000000 _ (by decide) ?_, ?_, by decide⟩ <;>
  norm_num [Fmt.value, fmt40, Fmt.exp, Fmt.sign, Fmt.fraction, Fmt.bias]

theorem test_hyp_FloatSelections : flts.nanF false 5 ∧ ¬ (flts.nanF false 1 ∨ flts.nanF false 2) := by decide

theorem test_hyp_FloatScalings : flts.fl false 3 = .inf false ∧ flts.fl false 6 = .zero true ∧
    fmt40.value (0x3F80000000#40).toNat = fmt40.value (flts.fin false 1) ∧ fmt40.value (flts.fin false 1) ≠ none ∧
    fmt40.value (flts.fin false 1) ≠ some 0 ∧ 0x3F80000000#40 &&& 0xFF#40 = 0#40 := by
  have hv : fmt40.value (flts.fin false 1) = some 1 := value_fin 1 0x3F80000000 _ (by decide) (by
    norm_num [Fmt.value, fmt40, Fmt.exp, Fmt.sign, Fmt.fraction, Fmt.bias])
  refine ⟨by decide, by decide, ?_, by rw [hv]; simp, by rw [hv]; simp, by decide⟩
  rw [hv]
  norm_num [Fmt.value, fmt40, Fmt.exp, Fmt.sign, Fmt.fraction, Fmt.bias]

/-- SCALB and FLOAT BY: 1.0 scaled by 2^1 is 2.0, and the integer 1 scaled by 2^1. -/
theorem test_hyp_FloatScalings_exact :
    fmt40.value (0x4000000000#40).toNat = some ((1 : ℚ) * (2 : ℚ) ^ ((1 : Word).toInt)) ∧ ((1 : Word).toInt ≠ 0) := by
  refine ⟨?_, by decide⟩
  have h : (1 : Word).toInt = 1 := by decide
  norm_num [h, Fmt.value, fmt40, Fmt.exp, Fmt.sign, Fmt.fraction, Fmt.bias]

/-- The largest operand that cannot overflow, 2^31 - 1. -/
theorem test_hyp_FloatToFixed : fmt40.value (flts.fin false 7) = some (2 ^ 31 - 1) ∧
    |((2 ^ 31 - 1 : ℚ)) * 2 ^ (0 : Int)| ≤ 2 ^ 31 - 1 := by
  refine ⟨value_fin 7 0x4EFFFFFFFE _ (by decide) ?_, ?_⟩
  · norm_num [Fmt.value, fmt40, Fmt.exp, Fmt.sign, Fmt.fraction, Fmt.bias]
  · norm_num

/-- Results outside the range of the formats: 2^127 + 2^127 and 2^1023 * 2 overflow, 3 * 2^-127 - 2 * 2^-127 and 2^-1022 / 2
underflow, rounding to nearest or not. -/
theorem test_hyp_FltEnds : fmt40.value 0x7F00000000 = some (2 ^ 127) ∧ fmt40.overflowsAt 31 false ≤ |(2 ^ 127 + 2 ^ 127 : ℚ)| ∧
    fmt40.overflowsAt 23 true ≤ |(2 ^ 127 + 2 ^ 127 : ℚ)| ∧ fmt40.value 0x00C0000000 = some (3 / 2 ^ 127) ∧
    fmt40.value 0x0080000000 = some (2 / 2 ^ 127) ∧ 0 < |(3 / 2 ^ 127 - 2 / 2 ^ 127 : ℚ)| ∧
    |(3 / 2 ^ 127 - 2 / 2 ^ 127 : ℚ)| < fmt40.holdsFrom 31 false ∧ |(3 / 2 ^ 127 - 2 / 2 ^ 127 : ℚ)| < fmt40.holdsFrom 23 true := by
  refine ⟨?_, ?_, ?_, ?_, ?_, ?_, ?_, ?_⟩ <;>
  norm_num [Fmt.value, Fmt.overflowsAt, Fmt.holdsFrom, fmt40, Fmt.exp, Fmt.sign, Fmt.fraction, Fmt.bias, abs_of_pos]

theorem test_hyp_DblEnds : fmt64.overflowsAt 52 false ≤ |(2 ^ 1023 * 2 : ℚ)| ∧ fmt64.overflowsAt 52 true ≤ |(2 ^ 1023 * 2 : ℚ)| ∧
    0 < |(1 / 2 ^ 1022 / 2 : ℚ)| ∧ |(1 / 2 ^ 1022 / 2 : ℚ)| < fmt64.holdsFrom 52 false ∧
    |(1 / 2 ^ 1022 / 2 : ℚ)| < fmt64.holdsFrom 52 true := by
  have h : (2 : ℚ) ^ 1024 = 2 ^ 1023 * 2 := pow_succ 2 1023
  have p : (0 : ℚ) < 2 ^ 970 := by positivity
  have q : (0 : ℚ) < (2 ^ 1022)⁻¹ := by positivity
  have r : ((2 : ℚ) ^ 1076)⁻¹ = (2 ^ 1022)⁻¹ * (2 ^ 54)⁻¹ := by rw [← mul_inv, ← pow_add]
  refine ⟨?_, ?_, ?_, ?_, ?_⟩ <;>
  norm_num [Fmt.overflowsAt, Fmt.holdsFrom, fmt64, Fmt.bias, abs_of_pos] <;> (try rw [h]) <;> (try rw [r]) <;>
  first | exact le_add_of_nonneg_right p.le | linarith

/-- 2^31 and an infinity overflow the conversion; 2^31 - 1/2 rounds to 2^31. -/
theorem test_hyp_FloatToFixed_over : overFlt (2 ^ 31) ∧ overDbl (2 ^ 31 - 1 / 2) ∧ ¬ overFlt (2 ^ 31 - 1 / 2) ∧
    fmt40.value 0x4EFFFFFFFF = some (2 ^ 31 - 1 / 2) ∧ NearestInt (2 ^ 31) (2 ^ 31 - 1 / 2) ∧ flts.fl false 3 = .inf false := by
  refine ⟨?_, ?_, ?_, ?_, ⟨?_, fun _ => by decide⟩, by decide⟩ <;>
  norm_num [overFlt, overDbl, Fmt.value, fmt40, Fmt.exp, Fmt.sign, Fmt.fraction, Fmt.bias, abs_of_pos]

/-- Biased exponents 1 and 254, 0 and 255, 252 and 253; a negative operand of RSQRTS. -/
theorem test_hyp_FloatParts : fmt40.exp (flts.fin false 8) = 1 ∧ fmt40.exp (flts.fin false 9) = 254 ∧
    fmt40.exp (flts.fin false 13) = 0 ∧ fmt40.exp (flts.fin false 3) = 255 ∧ ¬ flts.nanF false 3 ∧
    fmt40.exp (flts.fin false 10) = 252 ∧ fmt40.exp (flts.fin false 11) = 253 ∧
    (fmt40.sign (flts.fin false 12) = true ∧ fmt40.exp (flts.fin false 12) ≠ 0) := by decide

theorem test_hyp_Comparisons : fmt40.place (flts.fin false 5) = none ∧
    fmt40.place (flts.fin false 1) = some ((1 : ℚ) : WithTop ℚ) ∧ fmt40.place (flts.fin false 3) = some ((⊤ : WithTop ℚ) : WithBot (WithTop ℚ)) ∧
    fmt40.place (flts.fin false 4) = some ⊥ := by
  have h1 : flts.fin false 1 = 0x3F80000000 := by decide
  have h3 : flts.fin false 3 = 0x7F80000000 := by decide
  have h4 : flts.fin false 4 = 0xFF80000000 := by decide
  have h5 : flts.fin false 5 = 0x7FC0000000 := by decide
  refine ⟨by rw [h5]; rfl, ?_, by rw [h3]; rfl, by rw [h4]; rfl⟩
  norm_num [h1, Fmt.place, Fmt.classify, Fmt.value, fmt40, Fmt.exp, Fmt.sign, Fmt.fraction, Fmt.bias]

/-- Pairs: F1:0 = 1.0, F3:2 = 2.0, F5:4 = +infinity, F7:6 = -infinity, F9:8 = a NAN, F11:10 = -0, F13:12 = 2^31 - 1. -/
def dbls : State := prepare State.reset [.d 1 0x3FF0000000, .d 3 0x4000000000, .d 5 0x7FF0000000, .d 7 0xFFF0000000,
  .d 9 0x7FF8000000, .d 11 0x8000000000, .d 13 0x41DFFFFF00, .d 12 0xFFC0000000]

theorem test_hyp_DoubleArithmetic : dbls.nanD false 4 ∧ ¬ dbls.nanD false 0 ∧ dbls.dl false 2 = .inf false ∧
    dbls.dl false 3 = .inf true ∧ dbls.dl false 5 = .zero true := by decide

/-- 1 + 2 = 3 in 64 bits, and 2^31 - 1, the largest operand of FIX that cannot overflow. -/
theorem test_hyp_DoubleConversions : fmt64.value (dbls.dbits false 0) = some 1 ∧ fmt64.value (dbls.dbits false 1) = some 2 ∧
    fmt64.value (0x4008000000000000#64).toNat = some (1 + 2) ∧ fmt64.value (dbls.dbits false 6) = some (2 ^ 31 - 1) ∧
    fmt40.value (0x3F80000000#40).toNat = some 1 ∧ dbls.inBoundary 0x3F80000000#40 := by
  have h0 : dbls.dbits false 0 = 0x3FF0000000000000 := by decide
  have h1 : dbls.dbits false 1 = 0x4000000000000000 := by decide
  have h6 : dbls.dbits false 6 = 0x41DFFFFFFFC00000 := by decide
  refine ⟨?_, ?_, ?_, ?_, ?_, by decide⟩ <;>
  norm_num [h0, h1, h6, Fmt.value, fmt40, fmt64, Fmt.exp, Fmt.sign, Fmt.fraction, Fmt.bias]

theorem test_hyp_FixedMultiply : MulMod.wellFormed { ySigned := true, xSigned := true, frac := true, round := true } = true ∧
    MulMod.wellFormed { ySigned := false, xSigned := true, frac := false, round := false } = true := by decide

/-- Every pair of operand classes that a clause names. -/
theorem test_hyp_FloatMultiply : flts.fl false 5 = .nan false ∧ (flts.fl false 1).isNan = false ∧ flts.fl false 3 = .inf false ∧
    flts.fl false 4 = .inf true ∧ flts.fl false 6 = .zero true ∧ (∃ k e, flts.fl false 1 = .num false k e) ∧
    fmt40.value (flts.fin false 1) = some 1 ∧ fmt40.value (flts.fin false 2) = some 2 ∧ (1 : ℚ) * 2 ≠ 0 ∧
    fmt40.value 0x4000000000 = some (1 * 2) := by
  refine ⟨by decide, by decide, by decide, by decide, by decide, ⟨_, _, rfl⟩, value_fin 1 0x3F80000000 _ (by decide) ?_,
    value_fin 2 0x4000000000 _ (by decide) ?_, by norm_num, ?_⟩ <;>
  norm_num [Fmt.value, fmt40, Fmt.exp, Fmt.sign, Fmt.fraction, Fmt.bias]

theorem test_hyp_DoubleMultiply : dbls.dl false 4 = .nan false ∧ dbls.dl false 2 = .inf false ∧ dbls.dl false 5 = .zero true ∧
    (∃ k e, dbls.dl false 0 = .num false k e) ∧ dbls.runs true = false := by
  refine ⟨by decide, by decide, by decide, ⟨_, _, rfl⟩, by decide⟩

/-- 1 + 2 = 3: the sum has no overflow and a value. -/
theorem test_hyp_FloatRounding : ∃ t, exec (.fltAdd 0 1 2) flts = .next t ∧ t.flagOf false 1 = false ∧
    fmt40.value (t.dreg false 0).toNat = some 3 := by
  refine ⟨_, rfl, by decide, ?_⟩
  rw [show ((_ : State).dreg false 0).toNat = 0x4040000000 by decide]
  norm_num [Fmt.value, fmt40, Fmt.exp, Fmt.sign, Fmt.fraction, Fmt.bias]

/-- Biased exponents at the ends of the ranges of FPACK. -/
theorem test_hyp_Packing : [0x7F800000, 0x44000000, 0x43800000, 0x3C800000, 0x3C000000, 0x37000000, 0x36800000].map
    (fun x => x / 2 ^ 23 % 256) = [255, 136, 135, 121, 120, 110, 109] := by decide

/-- A deposit that fills the FIFO and an extraction that empties it. -/
def fifo : State := prepare State.reset [.d 1 0x2000, .d 2 0xDEADBEEF00]
theorem test_hyp_BitFifo : fifo.fifoReady ∧ ({ fifo with data := { fifo.data with bffwrp := 32#7 } } : State).fifoReady ∧
    (fifo.fx false 1).toNat % 64 = 32 ∧ 32 + 32 ≤ 64 ∧ simd.simd = true := by
  refine ⟨⟨by decide, by decide⟩, ⟨by decide, by decide⟩, by decide, by decide, by decide⟩

theorem test_hyp_Conditions : (Cond.eq ≠ .notLce ∧ Cond.eq ≠ .true_) ∧
    (prepare State.reset [.m1 0x80000000]).mode .selpe = true ∧ State.reset.mode .selpe = false := by decide

theorem test_hyp_ComputeForms : (Compute.fix2 .add 1 2 3) ≠ .none ∧ usesFifo (.fix2 .add 1 2 3) = false ∧
    nextOf (exec (.compute (.fix2 .add 1 2 3)) State.reset) = true ∧ State.reset.cx .eq = false ∧
    State.reset.cy .eq = false := by decide

/-! Moves -/

/-- The hypotheses of `PlainBytes`, `OrdinaryWord` and `Located`, tested. -/
def plainB (s : State) (r : Config.Region) (p n : Nat) : Bool :=
  !isSystem r.target && !s.inCache p && !s.inCache (p + n - 1) && s.blockReads r && s.blockWrites r &&
    (decide (s.seq.cacheHold = 0) || isL1 r.target) && !s.rangeStop r.target && !s.mayZero r p && !s.mayZero r (p + n - 1)

theorem plain_of {s : State} {r : Config.Region} {p n : Nat} (h : plainB s r p n = true) : PlainBytes s r p n := by
  simp only [plainB, Bool.and_eq_true, Bool.or_eq_true, decide_eq_true_eq, Bool.not_eq_true'] at h
  obtain ⟨⟨⟨⟨⟨⟨⟨⟨h1, h2⟩, h3⟩, h4⟩, h5⟩, h6⟩, h7⟩, h8⟩, h9⟩ := h
  exact ⟨h1, ⟨h2, h3⟩, h4, h5, h6, h7, ⟨h8, h9⟩⟩

def ordinaryB (s : State) (a : Word) (p : Nat) : Bool :=
  match locate a.toNat with
  | some l => decide (l.region.space = .nw) && decide (p = physOf l.region l.off .w32 false) && !s.imdw l.region &&
      plainB s l.region p 4
  | none => false

theorem ordinary_of {s : State} {a : Word} {p : Nat} (h : ordinaryB s a p = true) : OrdinaryWord s a p := by
  unfold ordinaryB at h
  split at h
  · rename_i l hl
    simp only [Bool.and_eq_true, decide_eq_true_eq, Bool.not_eq_true'] at h
    exact ⟨⟨l, hl, h.1.1.1, h.1.1.2, h.1.2, plain_of h.2⟩⟩
  · cases h

def locatedB (s : State) (ea : Word) (sp : Config.Space) (w : Width) (imdw pair : Bool) (p : Nat) : Bool :=
  match locate ea.toNat with
  | some l => decide (l.region.space = sp) && decide (s.imdw l.region = imdw) &&
      decide (p = l.region.phys + byteOffset sp w imdw (l.off - misalign sp w pair l.off)) &&
      decide (p + w.bytes ≤ l.region.phys + l.region.bytes) && plainB s l.region p w.bytes
  | none => false

theorem located_of {s : State} {ea : Word} {sp : Config.Space} {w : Width} {imdw pair : Bool} {p : Nat}
    (h : locatedB s ea sp w imdw pair p = true) : ∃ l, Located s ea sp w imdw pair l p := by
  unfold locatedB at h
  split at h
  · rename_i l hl
    simp only [Bool.and_eq_true, decide_eq_true_eq] at h
    exact ⟨l, hl, h.1.1.1.1, h.1.1.1.2, h.1.1.2, h.1.2, plain_of h.2⟩
  · cases h

theorem reaches_of {s s0 : State} {a : Addr} {sp : Config.Space} {w : Width} {imdw : Bool} {n p : Nat} {ea : Word}
    (h : Lands s a sp n ea s0) (hl : locatedB s ea sp w imdw false p = true) : ∃ s1, Reaches s a sp w imdw n p s1 := by
  obtain ⟨l, hl⟩ := located_of hl
  exact ⟨_, ea, s0, l, h, hl, rfl⟩

/-- How many addresses on the implicit access is (R292). -/
def itemStep (sp : Config.Space) (w : Width) : Nat :=
  match sp with
  | .sw => 2
  | .bw => w.bytes
  | _ => 1

theorem pair_of {s s0 : State} {a : Addr} {sp : Config.Space} {w : Width} {n p q : Nat} {ea eb : Word}
    (h : Lands s a sp n ea s0) (hl : locatedB s ea sp w false true p = true) (hq : locatedB s eb sp w false false q = true)
    (he : ∀ l, locate ea.toNat = some l → eb = ea - BitVec.ofNat 32 (misalign sp w true l.off) +
      BitVec.ofNat 32 (itemStep sp w))
    (hd : p + w.bytes ≤ q ∨ q + w.bytes ≤ p) : ∃ s1, ReachesPair s a sp w n p q s1 := by
  obtain ⟨l, hl⟩ := located_of hl
  obtain ⟨k, hk⟩ := located_of hq
  rw [he l hl.located] at hk
  cases sp <;> exact ⟨_, ea, s0, l, k, h, hl, hk, hd, rfl⟩

/-- I2 = 0xB8010 in block 1, I8 in block 2, M3 = 2. -/
def mvs : State := prepare State.reset [.I 2 0xB8010, .I 8 0xC0000, .M 3 2, .I 1 0xB8011, .M 0 0xFFFFFFFF, .d 6 0x3300]

/-- Direct, post-modify and pre-modify addresses. -/
theorem lands_direct (s : State) (sp : Config.Space) (n : Nat) (a : Word) : Lands s (.direct a) sp n a s := ⟨rfl, rfl⟩
theorem lands_mvs_post : Lands mvs (mvs.regAddr false true 2 3) .nw 1 0xB8010 (mvs.setI 2 (mvs.ireg 2 + mvs.mreg 3 * 1)) :=
  ⟨by decide, .inl rfl, by decide, rfl⟩
theorem lands_mvs_pre : Lands mvs (mvs.regAddr false false 2 3) .nw 1 0xB8012 mvs := ⟨by decide, by decide, by decide, rfl⟩

/-- The three address forms; the first address of a block and its last. -/
theorem test_hyp_WordLoads : OrdinaryWord mvs 0xB0000 (4 * 0xB0000) ∧ OrdinaryWord mvs 0xB8010 (4 * 0xB8010) ∧
    OrdinaryWord mvs 0xB8012 (4 * 0xB8012) ∧ OrdinaryWord mvs 0xBBFFF (4 * 0xBBFFF) ∧ mvs.simd = false ∧ mvs.noBroadcast ∧
    UReg.r 5 ≠ .px ∧ mvs.cx .true_ = true :=
  ⟨ordinary_of (by decide), ordinary_of (by decide), ordinary_of (by decide), ordinary_of (by decide), by decide, by decide,
    by decide, by decide⟩

theorem test_hyp_WordStores : OrdinaryWord mvs (mvs.ireg 8) (4 * 0xC0000) ∧
    Lands mvs (mvs.regAddr true true 0 3) .nw 1 (mvs.ireg 8) (mvs.setI 8 (mvs.ireg 8 + mvs.mreg 11 * 1)) :=
  ⟨ordinary_of (by decide), by decide, .inl rfl, by decide, rfl⟩

/-- Byte space: I2 at a byte, modifier 2. -/
def bys : State := prepare State.reset [.I 2 0x2E0001, .M 3 2]
/-- Block 1 in 48-bit mode. -/
def wide : State := { prepare State.reset [.I 2 0xB8010, .M 3 2] with mmr := { State.reset.mmr with imdwAct := 2#4 } }

/-- Each size: a byte at the first address, a post-modified short word, a pre-modified word, short-word space; a byte size in
normal-word space and (lw) in short-word space; 40-bit and PX words in normal-word and byte space. -/
theorem test_hyp_ByteSpaceMoves :
    (∃ t, Reaches bys (.direct 0x2C0000) .bw .w8 false 1 0x2C0000 t) ∧
    (∃ t, Reaches bys (bys.regAddr false true 2 3) .bw .w16 false 2 0x2E0001 t) ∧
    (∃ t, Reaches bys (bys.regAddr false false 2 3) .bw .w32 false 4 0x2E0009 t) ∧
    (∃ t, Reaches bys (.direct 0x177FFF) .sw .w16 false 1 0x2EFFFE t) ∧
    (∃ t, Reaches mvs (mvs.regAddr false true 2 3) .nw .w32 false 1 (4 * 0xB8010) t) ∧
    (∃ t, Reaches wide (.direct 0x2C0001) .bw .w16 true 2 0x2C0003 t) ∧
    (∃ t, Reaches wide (.direct 0xB0001) .nw .w40 true 1 0x2C0006 t) ∧
    (∃ t, Reaches wide (.direct 0x2C0004) .bw .w40 true 4 0x2C0006 t) ∧
    (∃ t, Reaches mvs (.direct 0xB0001) .nw .w48 false 1 0x2C0006 t) ∧
    (∃ t, Reaches mvs (.direct 0x2C0003) .bw .w48 false 4 0x2C0003 t) ∧
    bys.simd = false ∧ bys.noBroadcast ∧ keepsWidth (.i 2) .w32 true ∧ keepsWidth (.r 2) .w16 true ∧
    accessWidth .none .nw = some (.w32, 1) ∧ accessWidth .none .sw = some (.w16, 1) ∧ dregOf (.s 3) = some (true, 3) :=
  ⟨reaches_of (lands_direct ..) (by decide),
    reaches_of (s0 := bys.setI 2 (bys.ireg 2 + bys.mreg 3 * 2)) (ea := 0x2E0001) ⟨by decide, .inr (by decide), by decide, rfl⟩
      (by decide),
    reaches_of (s0 := bys) (ea := 0x2E0009) ⟨by decide, by decide, by decide, rfl⟩ (by decide),
    reaches_of (lands_direct ..) (by decide), reaches_of lands_mvs_post (by decide), reaches_of (lands_direct ..) (by decide),
    reaches_of (lands_direct ..) (by decide), reaches_of (lands_direct ..) (by decide), reaches_of (lands_direct ..) (by decide),
    reaches_of (lands_direct ..) (by decide), by decide, by decide, fun _ => .inr rfl, fun _ => .inl (by decide), rfl, rfl, rfl⟩

/-- I2 at a normal-word address of L2, whose granule the monitor holds; a peripheral. -/
def exc : State := { prepare State.reset [.I 2 0x500000, .M 3 2] with excl := some (0x20000000 / 8) }
theorem test_hyp_ExclusiveAccesses : OrdinaryWord exc 0x500000 0x20000000 ∧
    Lands exc (exc.regAddr false true 2 3) .nw 1 0x500000 (exc.setI 2 (exc.ireg 2 + exc.mreg 3 * 1)) ∧
    exc.simd = false ∧ exc.noBroadcast ∧ exc.cx .true_ = true ∧ exc.cacheable false 0x20000000 = false ∧
    exc.excl = some (0x20000000 / 8) ∧ exc.seq.cacheHold = 0 ∧ Config.inCmmrRange 0x30024 = true ∧
    Lands exc (.direct 0x30024) .nw 1 0x30024 exc ∧
    ∃ l, locate 0x60000000 = some l ∧ l.region.target = .device ∧ l.off % 4 = 0 ∧ l.off + 4 ≤ l.region.count :=
  ⟨ordinary_of (by decide), ⟨by decide, .inl rfl, by decide, rfl⟩, by decide, by decide, by decide, by decide, by decide,
    by decide, by decide, lands_direct .., _, rfl, by decide, by decide, by decide⟩

/-- An even and an odd normal-word address, a byte address off the boundary, a long-word address. -/
theorem test_hyp_LongWordMoves :
    (∃ t, Reaches mvs (mvs.regAddr false true 2 3) .nw .w64 false 1 (4 * 0xB8010) t) ∧
    (∃ t, Reaches mvs (.direct 0xB8011) .nw .w64 false 1 (4 * 0xB8010) t) ∧
    (∃ t, Reaches mvs (.direct 0x2C000F) .bw .w64 false 4 0x2C0008 t) ∧
    (∃ t, Reaches mvs (.direct 0x5BFFF) .lw .w64 false 1 0x2DFFF8 t) ∧
    wideAccess .lw .nw 1 ∧ wideAccess .lw .bw 4 ∧ wideAccess .none .lw 1 ∧ wideAccess .bw .lw 1 :=
  ⟨reaches_of lands_mvs_post (by decide), reaches_of (lands_direct ..) (by decide), reaches_of (lands_direct ..) (by decide),
    reaches_of (lands_direct ..) (by decide), .inr ⟨rfl, .inl ⟨rfl, rfl⟩⟩, .inr ⟨rfl, .inr ⟨rfl, rfl⟩⟩, .inl ⟨rfl, rfl⟩,
    .inl ⟨rfl, rfl⟩⟩

/-- SIMD mode, without and with a broadcast load; the conditions true on both elements, or on one. -/
def smv : State := prepare State.reset [.m1 0x200000, .I 1 0xB8010, .M 3 2, .u (.sys .astatx) 1]
def bmv : State := prepare State.reset [.m1 0xA00000, .I 1 0xB8010, .M 3 2]
theorem test_hyp_SimdMoves :
    (∃ t, ReachesPair smv (smv.regAddr false true 1 3) .nw .w32 1 (4 * 0xB8010) (4 * 0xB8011) t) ∧
    (∃ t, ReachesPair smv (.direct 0x160000) .sw .w16 1 0x2C0000 0x2C0004 t) ∧
    (∃ t, ReachesPair smv (.direct 0x2C0001) .bw .w8 1 0x2C0001 0x2C0002 t) ∧
    (∃ t, ReachesPair smv (.direct 0x2C0006) .bw .w32 4 0x2C0004 0x2C0008 t) ∧
    (∃ t, Reaches smv (.direct 0xB0000) .nw .w32 false 1 (4 * 0xB0000) t) ∧
    smv.simd = true ∧ smv.noBroadcast ∧ { smv with sys := { smv.sys with condx := none } }.cx .eq = true ∧ smv.cy .eq = false ∧
    compOf (.r 4) = some (.s 4) ∧ compOf (.i 4) = none ∧
    throughBroadcast bmv (bmv.regAddr false true 1 3) ∧ bmv.cx .true_ = true ∧
    (∃ t, Reaches bmv (bmv.regAddr false true 1 3) .nw .w32 false 1 (4 * 0xB8010) t) ∧
    (∃ t, Reaches bmv (bmv.regAddr false true 1 3) .nw .w64 false 1 (4 * 0xB8010) t) :=
  ⟨pair_of (s0 := smv.setI 1 (smv.ireg 1 + smv.mreg 3 * 1)) (ea := 0xB8010) (eb := 0xB8011) ⟨by decide, .inl rfl, by decide, rfl⟩
      (by decide) (by decide) (fun _ h => by cases h; rfl) (.inl (by decide)),
    pair_of (eb := 0x160002) (lands_direct ..) (by decide) (by decide) (fun _ h => by cases h; rfl) (.inl (by decide)),
    pair_of (eb := 0x2C0002) (lands_direct ..) (by decide) (by decide) (fun _ h => by cases h; rfl) (.inl (by decide)),
    pair_of (eb := 0x2C0008) (lands_direct ..) (by decide) (by decide) (fun _ h => by cases h; rfl) (.inl (by decide)),
    reaches_of (lands_direct ..) (by decide), by decide, by decide, by decide, by decide, rfl, rfl, .inl ⟨rfl, by decide⟩,
    by decide,
    reaches_of (s0 := bmv.setI 1 (bmv.ireg 1 + bmv.mreg 3 * 1)) (ea := 0xB8010) ⟨by decide, .inl rfl, by decide, rfl⟩ (by decide),
    reaches_of (s0 := bmv.setI 1 (bmv.ireg 1 + bmv.mreg 3 * 1)) (ea := 0xB8010) ⟨by decide, .inl rfl, by decide, rfl⟩ (by decide)⟩

/-- I2 in normal-word space, I8 in long-word space; SIMD mode; a 48-bit word. -/
def lng : State := prepare State.reset [.I 2 0xB8010, .I 8 0x60000, .M 3 2, .mem 0xB8010 7, .mem 0xC0000 8, .mem 0xC0001 9]
def wid : State := wide.setI 2 0xB0001
def dmv : State := prepare State.reset [.m1 0x200000, .I 2 0xB8010, .I 8 0xC0000, .M 3 2]

/-- A half of each kind: 32 bits in SISD and in SIMD mode, 40 bits, 64 bits. -/
theorem test_hyp_DualMoves : mvs.noBroadcast ∧ (∃ h, HalfMove mvs (mvs.regAddr false true 2 3) false 5 h) ∧
    (∃ h, HalfMove mvs (mvs.regAddr true true 0 3) true 6 h) ∧ (∃ h, HalfMove lng (lng.regAddr true true 0 3) false 4 h) ∧
    (∃ h, HalfMove dmv (dmv.regAddr false true 2 3) true 5 h) ∧ (∃ h, HalfMove wid (wid.regAddr false true 2 3) false 5 h) ∧
    OrdinaryWord mvs (mvs.present (dagNo false 2) (mvs.ireg (dagNo false 2))) (4 * 0xB8010) ∧
    OrdinaryWord mvs (mvs.present (dagNo true 0) (mvs.ireg (dagNo true 0))) (4 * 0xC0000) ∧
    nextOf (exec (.moveUregSized .true_ true true true 0 3 (.r 6) .none) mvs) = true := by
  refine ⟨by decide, ?_, ?_, ?_, ?_, ?_, ordinary_of (by decide), ordinary_of (by decide), by decide⟩
  · obtain ⟨u, hu⟩ := reaches_of lands_mvs_post (w := .w32) (imdw := false) (p := 4 * 0xB8010) (by decide)
    exact ⟨⟨_, _, false, u⟩, .inl ⟨_, _, _, _, _, by decide, rfl, fun h => absurd h (by decide), hu, rfl, rfl, rfl⟩⟩
  · obtain ⟨u, hu⟩ := reaches_of (s := mvs) (s0 := mvs.setI 8 (mvs.ireg 8 + mvs.mreg 11 * 1)) (a := mvs.regAddr true true 0 3)
      (sp := .nw) (n := 1) (ea := 0xC0000) (w := .w32) (imdw := false) (p := 4 * 0xC0000)
      ⟨by decide, .inl rfl, by decide, rfl⟩ (by decide)
    exact ⟨⟨_, _, false, u⟩, .inl ⟨_, _, _, _, _, by decide, rfl, fun h => absurd h (by decide), hu, rfl, rfl, rfl⟩⟩
  · obtain ⟨u, hu⟩ := reaches_of (s := lng) (s0 := lng.setI 8 (lng.ireg 8 + lng.mreg 11 * 1)) (a := lng.regAddr true true 0 3)
      (sp := .lw) (n := 1) (ea := 0x60000) (w := .w64) (imdw := false) (p := 0x300000)
      ⟨by decide, .inl rfl, by decide, rfl⟩ (by decide)
    exact ⟨⟨_, _, true, u⟩, .inr (.inr (.inr ⟨_, _, hu, rfl, rfl, rfl⟩))⟩
  · obtain ⟨u, hu⟩ := pair_of (s := dmv) (s0 := dmv.setI 2 (dmv.ireg 2 + dmv.mreg 3 * 1)) (a := dmv.regAddr false true 2 3)
      (sp := .nw) (w := .w32) (n := 1) (ea := 0xB8010) (eb := 0xB8011) (p := 4 * 0xB8010) (q := 4 * 0xB8011)
      ⟨by decide, .inl rfl, by decide, rfl⟩ (by decide) (by decide) (fun _ h => by cases h; rfl) (.inl (by decide))
    exact ⟨⟨_, _, false, u⟩, .inr (.inl ⟨_, _, _, _, _, by decide, rfl, hu, rfl, rfl, rfl⟩)⟩
  · obtain ⟨u, hu⟩ := reaches_of (s := wid) (s0 := wid.setI 2 (wid.ireg 2 + wid.mreg 3 * 1))
      (a := wid.regAddr false true 2 3) (sp := .nw) (n := 1) (ea := 0xB0001) (w := .w40) (imdw := true)
      (p := 0x2C0006) ⟨by decide, .inl rfl, by decide, rfl⟩ (by decide)
    exact ⟨⟨_, _, false, u⟩, .inr (.inr (.inl ⟨.nw, 1, _, by simp, hu, rfl, rfl, rfl⟩))⟩

/-- R48, R302: the DM load of R4 blocks a 64-bit PM load of R5:4 whole; without it, both words arrive. -/
theorem test_dual_long_blocked :
    (match exec (.dualMove false 2 3 4 false 0 3 4) lng with
      | .next t => R t 4 == 0x700 && R t 5 == 0
      | _ => false) = true ∧
    (match exec (.dualMove false 2 3 2 false 0 3 4) lng with
      | .next t => R t 2 == 0x700 && R t 4 == 0x800 && R t 5 == 0x900
      | _ => false) = true := by decide

theorem test_hyp_OperationBesideMove : nextOf (exec (.ifCompute .true_ (.fix2 .add 1 2 3)) mvs) = true ∧
    nextOf (exec (.loadUreg .true_ .none true false 2 3 false (.r 5)) mvs) = true ∧
    nextOf (exec (.ifShiftImm .true_ (.shift .rot 3 4 1)) mvs) = true ∧
    nextOf (exec (.dualMove false 2 3 5 true 0 3 6) mvs) = true ∧ nextOf (exec (.compute (.fix2 .add 1 2 3)) mvs) = true ∧
    nextOf (exec (.moveUregSized .true_ true false true 2 3 (.r 5) .none) mvs) = true ∧ mvs.fifoReady ∧ mvs.noBroadcast ∧
    mvs.cx .true_ = true ∧ OrdinaryWord mvs 0xB8010 (4 * 0xB8010) :=
  ⟨by decide, by decide, by decide, by decide, by decide, by decide, by decide, by decide, by decide, ordinary_of (by decide)⟩

/-- A normal-word index and base; indexes in long-word and short-word space. -/
theorem test_hyp_AddressConversion : (∃ l, locate (mvs.ireg (dagNo false 2)).toNat = some l ∧ l.region.space = .nw) ∧
    (∃ l, locate ((prepare State.reset [.B 2 0xBBFFF]).breg 2).toNat = some l ∧ l.region.space = .nw) ∧
    spaceOf ((prepare State.reset [.I 2 0x58000]).ireg 2) = some .lw ∧
    spaceOf ((prepare State.reset [.I 2 0x160000]).ireg 2) = some .sw :=
  ⟨⟨_, rfl, by decide⟩, ⟨_, rfl, by decide⟩, by decide, by decide⟩

/-- In SIMD mode the condition true on one element only, and under selective execution; outside `MovesTo`, PX. -/
theorem test_hyp_RegisterMoves : State.reset.cx .true_ = true ∧ State.reset.cy .true_ = true ∧ UReg.r 1 ≠ .px ∧ UReg.i 2 ≠ .px ∧
    dregOf (.i 2) = none ∧ dregOf (.sys .ustat1) = none ∧
    ({ smv with sys := { smv.sys with condx := none } } : State).cx .eq = true ∧ smv.cy .eq = false ∧
    dregOf .px = none ∧ dregOf .pc = none ∧ State.reset.simd = false ∧ smv.simd = true ∧
    (prepare State.reset [.m1 0x80200000]).cx .flag2 = true ∧ (prepare State.reset [.m1 0x80200000]).cy .flag2 = false := by
  decide

/-- A swap in SIMD mode with the condition true on PEx alone. -/
theorem test_swap_one_element :
    (match exec (.swapDregShort .eq 1 2) { prepare smv [.d 1 0x100, .sy 2 0x200] with sys := { smv.sys with condx := none } } with
      | .next t => R t 1 == 0x200 && Y t 2 == 0x200
      | _ => false) = true := by decide

/-- One entry on each stack, interrupt 6 in service. -/
def stk : State := { State.reset with
  seq := { State.reset.seq with
    pcStk := [0x01090101#32], loopStk := [{ laddr := 0x4F090105#32, count := 3#32, start := 7#32 }]
    stsStk := [{ mode1 := 0x1000#32, astatx := 5#32, astaty := 6#32 }], lcntrs := List.replicate 5 0#32 }
  sys := { State.reset.sys with imaskp := 0x40#32 } }

/-- The stacks with an entry and empty; a restored loop; a NOP after a write of PCSTKP, on a stack with an entry. -/
theorem test_hyp_SequencerRegisters : stk.seq.branches = [] ∧ stk.seq.pcStk = 0x01090101#32 :: [] ∧
    (∀ e ∈ stk.seq.loopStk.head?, e.restored = .whole) ∧ State.reset.seq.pcStk = [] ∧ State.reset.seq.loopStk = [] ∧
    (0x4F090105#32).extractLsb' 24 5 = 0b01111#5 ∧
    let s : State := { State.reset.withFetchWord 48 0 with
      seq := { State.reset.seq with pcStk := [0x01090101#32], pcStkpNew := some 0#5 } }
    atNop s = true ∧ s.accept = none ∧ s.seq.idle = false ∧ s.seq.srst ≠ 1 ∧ s.seq.loopStk = [] ∧ s.seq.branches = [] ∧
      (s.begin 1).bdry.refused = none ∧ (s.begin 1).bdry.taken = false := by
  refine ⟨by decide, rfl, fun e h => by cases h; rfl, by decide, by decide, by decide, by decide⟩

/-- R65: a write of 0 to PCSTKP empties the stack after the next instruction. -/
theorem test_pcstkp_late :
    (match step { State.reset.withFetchWord 48 0 with
        seq := { State.reset.seq with pcStk := [0x01090101#32], pcStkpNew := some 0#5 } } with
      | .next t => t.seq.pcStk.isEmpty && t.seq.pcStkpNew.isNone
      | _ => false) = true := by decide

/-- Code in block 0 of L1. -/
def inL1 : State := { mvs with seq := { mvs.seq with pc := 0x90100 } }

/-- A core register; a cache register, stored to and read by code in L1; a range register with its low bits 0; I2 at a cache
register, under a condition. -/
theorem test_hyp_CoreRegisters : Config.inCmmrRange 0x30024 = true ∧ mmrAt 0x30024 = some .sysctl ∧ mmrAt 0x3E000 = some .l1cCfg ∧
    mmrAt 0x300EB = some .seciId ∧ mmrAt 0x31402 = some .btbLockEnd ∧ mvs.simd = false ∧
    mvs.cacheFree true true .sysctl 1 ∧ inL1.cacheFree false true .l1cCfg 1 ∧ inL1.cacheFree false true (.l1cStart 1) 0x20000040 ∧
    inL1.cacheFree false false .invCnt 0 ∧
    (let s := mvs.setI 2 0x3E000;
     s.cx .ne = true ∧ s.simd = false ∧ s.mmr.invRuns = false ∧ mmrAt (s.present 2 (s.ireg 2)).toNat = some .l1cCfg) :=
  ⟨by decide, by decide, by decide, by decide, by decide, by decide, fun h => absurd h (by decide),
    fun _ => ⟨rfl, rfl, by decide, rfl, fun _ => ⟨fun h => absurd h (by decide), by decide, fun h => absurd h (by decide)⟩⟩,
    fun _ => ⟨rfl, rfl, by decide, rfl, fun _ => ⟨fun _ => by decide, fun h => absurd h (by decide), fun h => absurd h (by decide)⟩⟩,
    fun _ => ⟨rfl, rfl, by decide, rfl, fun h => absurd h (by decide)⟩, by decide⟩

/-- R372: code outside L1 may not touch a cache register. -/
theorem test_cache_from_outside :
    (match exec (.storeUregDirect false false (.r 1) 0x3E000) mvs with
      | .refused r => r == .cacheRestriction 0x3E000
      | _ => false) = true := by decide

/-- Range pair 0 as a write-back-invalidate range from L2 in byte space to `b`, and the instruction cache holding a line of it. -/
def ranged (b : Word) : State := { mvs with
  mmr := { mvs.mmr with l1cCfg := 1, l1cCfg2 := 3, l1cStart := mvs.mmr.l1cStart.set 0 0x20000000, l1cEnd := mvs.mmr.l1cEnd.set 0 b }
  cache := { mvs.cache with lines := [{ unit := .i, line := 0x20000000, way := false, zeros := 0 }] } }

/-- A write-back-invalidate range; a cache operation in the window and outside it; a range of one space and one of two. -/
theorem test_hyp_CacheRanges : (1 : Fin 8).val < 2 ∧ (0xC : Word).getLsbD (2 * (1 : Fin 8)) = true ∧
    (0xC : Word).getLsbD (2 * (1 : Fin 8) + 1) = true ∧ mvs.seq.cacheHold = 0 ∧ mvs.brokenRange = false ∧
    ({ mvs.seq with cacheHold := 12 } : Seq).cacheHold ≠ 0 ∧ (ranged 0x20000040).brokenRange = false ∧
    (ranged 0x5C0000).brokenRange = true ∧ spaceOf 0x20000000 ≠ spaceOf (0x5C0000 - 1#32) := by decide

/-- R370: an operation of Type 20a at index 0 invalidates the line of the range there; R372: a mixed range refuses it. -/
theorem test_cache_operation :
    (match exec (.cacheOp true false false false false) (ranged 0x20000040), exec (.cacheOp true false false false false) (ranged 0x5C0000) with
      | .next t, .refused r => t.cache.lines.isEmpty && r == .cacheRestriction (ranged 0).seq.pc.toNat
      | _, _ => false) = true := by decide

/-- A peripheral and a system register, at the ends of their ranges. -/
theorem test_hyp_CrossbarAccesses :
    (∃ l, locate 0x7FFFFFFC = some l ∧ l.region.target = .device ∧ l.off + 4 ≤ l.region.count) ∧
    (∃ l, locate 0x30000000 = some l ∧ l.region.target = .smmr ∧ l.off + 4 ≤ l.region.count) ∧
    (∃ l, locate 0x60000000 = some l ∧ l.region.target = .device ∧ l.off + 4 ≤ l.region.count) ∧
    mvs.simd = false ∧ mvs.seq.cacheHold = 0 :=
  ⟨⟨_, rfl, by decide, by decide⟩, ⟨_, rfl, by decide, by decide⟩, ⟨_, rfl, by decide, by decide⟩, by decide, by decide⟩

/-- R58: a store of PX to a peripheral moves the 32 bits of PX1, with (LW) too. -/
theorem test_px_peripheral : ∀ long ∈ [false, true],
    (match exec (.storeUregDirect false long .px 0x60000000) { mvs with data := { mvs.data with px := 0x0123456789ABCDEF } } with
      | .next t => t.bus == [.write 0x60000000 4 0x89ABCDEF]
      | _ => false) = true := by decide

theorem test_hyp_OutsideEvents : mvs.posted = [] := by decide

/-- R323: of simultaneous errors on the DM and the PM path of the data caches only that on DM is recorded. -/
theorem test_parity_dm_first : (State.reset.parityError [.dcpm, .dcdm]).mmr.gperrStat = 0x20000002#32 := by decide

/-- A buffer of four words at 0xB8010; the post-modify of its last word wraps, that of its first does not. -/
def cbs : State := prepare State.reset [.m1 0x01000000, .B 2 0xB8010, .L 2 4, .I 2 0xB8013, .M 3 1]
/-- Bit-reversed: I0 is the mirror of 0xB8010, or of a byte address. -/
def brs (a : Word) : State := prepare State.reset [.m1 0x01000002, .I 0 a.reverse.toNat]
theorem test_hyp_CircularBuffers : cbs.simd = false ∧ cbs.noBroadcast ∧ cbs.mode .cbufen = true ∧ cbs.reversed 2 = false ∧
    cbs.cx .true_ = true ∧ OrdinaryWord cbs (cbs.ireg 2) (4 * 0xB8013) ∧ cbs.indexSpace 2 = some .nw ∧
    bys.indexSpace 2 = some .bw ∧ (brs 0xB8010).reversed 0 = true ∧ (brs 0x2E0001).indexSpace 0 = some .bw ∧
    (brs 0xB8010).mode .cbufen = true ∧ OrdinaryWord (brs 0xB8010) ((brs 0xB8010).ireg 0).reverse (4 * 0xB8010) ∧
    (lng.indexSpace 8 = some .lw ∧ lng.cx .true_ = true) :=
  ⟨by decide, by decide, by decide, by decide, by decide, ordinary_of (by decide), by decide, by decide, by decide, by decide,
    by decide, ordinary_of (by decide), by decide⟩

/-! Sequencer -/

/-- In the first slot of a delayed jump. -/
def inSlot : State := { stk with seq := { stk.seq with branches := [{ target := 0x90200, slots := 2, sort := .jump }] } }
theorem test_hyp_Jumps : stk.taken .eq = false ∧ stk.taken .true_ = true ∧ stk.jumpFree false ∧ stk.jumpFree true ∧
    inSlot.jumpFree true ∧ stk.seq.pcOv = false ∧ stk.seq.pcStk ≠ [] ∧ stk.seq.loopStk ≠ [] ∧ Lowest stk.sys.imaskp 6 ∧
    State.reset.sys.imaskp = 0#32 ∧ stk.seq.stsStk ≠ [] ∧
    JumpMods.la.aborts = true ∧ JumpMods.ci.clears = true ∧ JumpMods.la.clears = false ∧ JumpMods.none.aborts = false :=
  ⟨by decide, by decide, ⟨rfl, .inl rfl⟩, ⟨rfl, .inl rfl⟩, ⟨rfl, .inr ⟨_, rfl, rfl, .inl rfl, rfl⟩⟩, by decide, by decide,
    by decide, ⟨by decide, by decide⟩, rfl, by decide, by decide, by decide, by decide, by decide⟩

/-- 27 entries, the most for which a call raises nothing, 28, and a full and an overflowed stack. -/
def deep (n : Nat) (ov : Bool) : State := { stk with seq := { stk.seq with pcStk := List.replicate n 0#32, pcOv := ov } }
theorem test_hyp_Calls : ∀ s ∈ [deep 27 false, deep 28 false, deep 30 false, deep 30 true], s.branchFree ∧
    s.taken .true_ = true := by decide

/-- R66: the push that leaves 29 entries latches SOVFI; one on a full stack overflows it. -/
theorem test_call_stack_limits :
    (match exec (.callDirect .true_ 0x90200 false) (deep 28 false), exec (.callDirect .true_ 0x90200 false) (deep 30 false) with
      | .next t, .next u => t.sys.irptl == 0x80 && t.seq.pcStk.length == 29 && u.seq.pcOv && u.seq.pcStk.length == 30
      | _, _ => false) = true := by decide

/-- A return with interrupt 6, the breakpoint interrupt, and a nested SECI in service, and with none. -/
theorem test_hyp_Returns : stk.branchFree ∧ PopsPc stk { stk.seq with pcStk := [] } 0x90101 ∧
    PopsPc (deep 30 true) { (deep 30 true).seq with pcOv := false } (((deep 30 true).pcstk (deep 30 true).seq).truncate 24) ∧
    stk.seq.stsStk = { mode1 := 0x1000#32, astatx := 5#32, astaty := 6#32 } :: [] ∧ Lowest stk.sys.imaskp 6 ∧
    Lowest 0x1000#32 12 ∧ (Lowest 0x8000#32 15 ∧ (0x40000000#32).getLsbD 30 = true) ∧ State.reset.sys.imaskp = 0#32 :=
  ⟨by decide, .inl ⟨rfl, _, _, rfl, by decide, rfl⟩, .inr ⟨rfl, rfl, rfl⟩, rfl, ⟨by decide, by decide⟩, ⟨by decide, by decide⟩,
    ⟨⟨by decide, by decide⟩, by decide⟩, rfl⟩

theorem test_hyp_AfterCompute : AfterCompute stk .true_ false .none stk ∧
    AfterCompute stk .true_ true (.fix2 .add 1 2 3) stk ∧ (stk.cx .eq = false ∧ stk.cy .eq = false) ∧
    nextOf (exec (.ifCompute .eq (.fix2 .add 1 2 3)) stk) = true ∧ nextOf (exec (.compute (.fix2 .add 1 2 3)) stk) = true :=
  ⟨.inl ⟨rfl, rfl⟩, .inr (.inr (.inl ⟨rfl, by decide, by decide, by decide, rfl⟩)), by decide, by decide, by decide⟩

theorem test_hyp_JumpElse : stk.taken .true_ = true ∧ stk.cx .true_ = true ∧ stk.cy .true_ = true ∧ stk.jumpFree false ∧
    mvs.taken .eq = false ∧ mvs.cx .eq = false ∧ mvs.cy .eq = false ∧
    mmrAt (mvs.present (dagNo false 2) (mvs.ireg (dagNo false 2))).toNat = none ∧
    nextOf (exec (.loadUreg .true_ .none true false 2 3 false (.r 5)) mvs) = true :=
  ⟨by decide, by decide, by decide, ⟨rfl, .inl rfl⟩, by decide, by decide, by decide, by decide, by decide⟩

/-- Room on the loop stacks, and full ones. -/
theorem test_hyp_LoopStarts : stk.seq.lcntrs = 0#32 :: List.replicate 4 0#32 ∧ stk.seq.branches = [] ∧
    stk.seq.nestingAllowed 0x90103 = true ∧ Cond.eq ≠ .true_ ∧ Cond.eq ≠ .notLce ∧
    ({ stk.seq with lcntrs := [] } : Seq).loopStk ≠ [] := by decide

/-- A NOP at the end of a loop whose PC stack entry is the loop's: a counter loop at its last pass and before it, an endless
loop, an arithmetic loop with 0, 1 and 2 more passes to go. -/
def loopAt (laddr count : Word) (exits : Nat) : State :=
  { State.reset.withFetchWord 48 0 with
    seq := { stk.seq with
      pc := Config.resetVector, pcStk := [0x15500000#32],
      loopStk := [{ laddr := laddr, count := count, start := 7#32, exits := exits }] } }
theorem test_hyp_LoopEnds : ∀ s ∈ [loopAt 0x4F500004 1 0, loopAt 0x4F500004 2 0, loopAt 0x3F500004 2 0, loopAt 0x500004 0 0,
      loopAt 0x500004 0 1, loopAt 0x500004 0 2],
    atNop s = true ∧ s.accept = none ∧ s.seq.idle = false ∧ s.seq.srst ≠ 1 ∧ s.seq.pcOv = false ∧ s.seq.branches = [] ∧
    s.seq.pcStkpNew = none ∧ s.compressedAtEnd 1 = false ∧ s.seq.btbHold = 0 ∧
    (s.seq.loopStk.head?.map (·.laddr.truncate 24)) = some s.seq.pc := by decide

/-- The check of an arithmetic loop: at the third-last instruction of its body; at the last of a body of two and of one; in an
enclosing loop. -/
theorem test_hyp_LoopEnds_check :
    ({ stk.seq with pcStk := [0x15500000#32] } : Seq).loopTop = some 0x500000#24 ∧
    ({ stk.seq with pcStk := [0x15500003#32] } : Seq).loopTop = some 0x500003#24 ∧
    ({ stk.seq with pcStk := [0x15500004#32] } : Seq).loopTop = some 0x500004#24 ∧
    (Config.resetVector.toNat + 2 * fullLen Config.resetVector = (0x500006 : IAddr).toNat) ∧
    (∀ e ∈ [({ laddr := 0x500006, count := 0, start := 0 } : LoopEntry), { laddr := 0x500006, count := 0, start := 0, missed := true }],
      e.laddr.extractLsb' 24 5 ≠ 0b01111#5 ∧ e.laddr.extractLsb' 24 5 ≠ 0b11111#5 ∧ e.exits = 0) :=
  ⟨rfl, rfl, rfl, by decide, by decide⟩

/-- Two arithmetic loops; the outer one marked as `c`. -/
def nested (c : CallMark) : State := { stk with seq := { stk.seq with
  loopStk := [{ laddr := 0x500006, count := 0, start := 0 }, { laddr := 0x50000C, count := 0, start := 0, call := c }] } }

/-- A CALL by the inner of two arithmetic loops; the called code, and the instruction after the return, while the outer
loop's condition is false and after it became true. -/
theorem test_hyp_LoopEnds_watch :
    let e := fun c : CallMark => ({ laddr := 0x50000C, count := 0, start := 0, call := c } : LoopEntry)
    let t : State := { nested .none with bdry := { State.reset.bdry with called := true } }
    let z : State := { nested .none with sys := { stk.sys with astatx := 1 } }
    t.bdry.called = true ∧ ((nested .none).seq.loopStk.take 1).any LoopEntry.isArith = true ∧ (e .none).isArith = true ∧
    (nested .none).endsLoop (e .none) = false ∧ z.endsLoop (e .none) = true ∧ 0 < (nested .none).seq.pcstkp ∧
    (nested .none).seq.branches = [] ∧ (nested (.during 5)).seq.loopStk[1]? = some (e (.during 5)) := by decide

/-- R590, U17: the CALL starts the watch on the outer loop; the return ends it; a condition turned true is kept through it. -/
theorem test_call_watch :
    let called := { nested .none with bdry := { State.reset.bdry with called := true }, seq := { (nested .none).seq with pcStk := [0, 0] } }
    let z := fun s : State => { s with sys := { s.sys with astatx := 1 } }
    let mark := fun s0 s : State => ((s0.passCalls s).seq.loopStk.map (·.call))
    mark (nested .none) called = [.none, .during 1] ∧ mark called (nested (.during 1)) = [.none, .none] ∧
    mark called (z (nested (.during 1))) = [.none, .turned 1] ∧ mark (z (nested .none)) (z called) = [.none, .none] := by decide

/-- R590, U17: an arithmetic loop that missed its condition once ends at the next check, whatever the condition says then. -/
theorem test_loop_missed_once :
    (({ stk with seq := { stk.seq with
          pc := 0x500004#24, npc := 0x500005#24, pcStk := [0x15500000#32],
          loopStk := [{ laddr := 0x500006, count := 0, start := 0, missed := true }] } } : State).begin 1).seq.loopStk =
      [{ laddr := 0x500006, count := 0, start := 0, exits := 1 }] := by decide

/-- Room on every stack; full ones; the PC stack overflowed; POP PCSTK in the slot of a JUMP (CI). -/
theorem test_hyp_StackOperations : stk.seq.branches = [] ∧ stk.seq.lcntrs = 0#32 :: List.replicate 4 0#32 ∧
    (∀ e ∈ stk.seq.loopStk.head?, e.restored = .whole) ∧ stk.seq.stsStk ≠ [] ∧ (deep 30 true).seq.pcOv = true ∧
    stk.seq.pcStk ≠ [] ∧ (∀ b ∈ [({ target := 0x90200, slots := 2, sort := .jumpCi } : PendingBranch)],
      b.sort = .call ∨ (true = true ∧ b.sort = .jumpCi)) ∧ ({ stk.seq with lcntrs := [] } : Seq).loopStk ≠ [] :=
  ⟨by decide, by decide, fun e h => by cases h; rfl, by decide, by decide, by decide, by decide, by decide⟩

/-- R74: a sixteenth push of the status stack overflows it and latches SOVFI. -/
theorem test_sts_overflow :
    (match exec (.pushSts false false) { stk with seq := { stk.seq with stsStk := List.replicate 15 ⟨0, 0, 0⟩ } } with
      | .next t => t.seq.stsOv && t.seq.stsStk.length == 15 && t.sys.irptl == 0x80
      | _ => false) = true := by decide

/-- IDLE may stand here; an idle core; the timer running, at a boundary that is no software reset. -/
theorem test_hyp_NoOperations : stk.idleAllowed = .ok () ∧
    ({ stk with seq := { stk.seq with idle := true } } : State).accept = none ∧
    nextOf (stk.finish stk 1).outcome = true ∧ stk.seq.srst ≠ 1 ∧ stk.lightSleep = false := by decide

theorem test_hyp_FrameInstructions : mvs.branchFree ∧
    (∃ t, Reaches (prepare State.reset [.I 6 0xB8010]) (.pre 6 0) .nw .w32 false 1 (4 * 0xB8010) t) ∧
    ∃ t, Reaches (prepare State.reset [.I 6 0x58000]) (.pre 6 0) .lw .w64 false 1 0x2C0000 t :=
  ⟨by decide,
    reaches_of (s0 := prepare State.reset [.I 6 0xB8010]) (ea := 0xB8010) ⟨by decide, by decide, by decide, rfl⟩ (by decide),
    reaches_of (s0 := prepare State.reset [.I 6 0x58000]) (ea := 0x58000) ⟨by decide, by decide, by decide, rfl⟩ (by decide)⟩

theorem test_hyp_SystemRegisters : (∃ s : State, s.seq.stsStk ≠ [] ∧ s.sys.flags.getLsbD 1 = true) :=
  ⟨{ stk with sys := { stk.sys with flags := 2#32 } }, by decide, by decide⟩

/-! The machine -/

/-- A NOP at the reset vector; an undefined word; no memory at the PC; code that was stored to and not flushed; the fetch from
a core memory-mapped register. -/
theorem test_hyp_StepRunsDecodedInstruction :
    atNop (State.reset.withFetchWord 48 0) = true ∧ (State.reset.withFetchWord 48 0).accept = none ∧
    (State.reset.withFetchWord 48 0).seq.idle = false ∧
    atUndefined (State.reset.withFetchWord 48 0x030000000000) = true ∧
    State.reset.fetch 0x10 = none ∧
    ({ State.reset with mem := State.reset.mem.note 0x20000018 6 } : State).fetchStop = some (.selfModified 0x500004) ∧
    (Config.inCmmrRange 0x30024 = true ∧ (State.reset.fetch 0x30024).isSome = true ∧
      (0x100000 : Word).getLsbD 20 = true) := by decide

/-- A software reset after a NOP. -/
theorem test_hyp_ResetValues :
    let s : State := { State.reset.withFetchWord 48 0 with seq := { State.reset.seq with srst := 1 } }
    atNop s = true ∧ s.accept = none ∧ s.seq.idle = false ∧ s.seq.loopStk = [] ∧ (s.begin 1).bdry.refused = none := by decide

/-- A step from reset, where the invariants hold. -/
theorem test_hyp_StepKeeps : State.reset.mem.wf = true ∧ StackInv State.reset.seq ∧ ReservedZero State.reset.sys ∧
    nextOf (step State.reset) = true := by
  refine ⟨by decide, ⟨by decide, by decide, by decide, by decide, by decide, by decide⟩, ⟨?_, ?_, ?_, ?_, ?_, ?_, ?_, ?_, ?_, ?_, ?_, ?_⟩, ?_⟩ <;> decide

theorem test_hyp_DecodeEncode : (Instr.fixAdd 1 2 3).wellFormed = true ∧
    (Instr.loadUreg .true_ .none true false 2 3 false (.r 5)).wellFormed = true := by decide

/-- A NOP outside loops; in the last slot of a delayed branch, and in the one before. -/
theorem test_hyp_StepAdvances : ∀ b ∈ [([] : List PendingBranch), [{ target := 0x90100, slots := 1, sort := .jump }],
      [{ target := 0x90100, slots := 2, sort := .jump }]],
    let s : State := { State.reset.withFetchWord 48 0 with seq := { State.reset.seq with branches := b } }
    atNop s = true ∧ s.accept = none ∧ s.seq.idle = false ∧ s.seq.srst ≠ 1 ∧ s.seq.loopStk = [] ∧
      s.seq.pcStkpNew = none ∧ s.seq.btbHold = 0 ∧ (s.begin 1).bdry.refused = none ∧ (s.begin 1).bdry.loopFree = false ∧
      (s.begin 1).seq.pcStkpDue = none := by decide

/-- The instruction at the reset vector hits set 1 of a user breakpoint unit. -/
theorem test_hyp_Breakpoints :
    let m : Mmr := { State.reset.mmr with
      brkctl := 0x02200000#32, iaStart := #v[0x500004#32, 1#32, 1#32, 1#32], iaEnd := #v[0x500004#32, 0#32, 0#32, 0#32] }
    m.umode = true ∧ nextOf (step { State.reset.withFetchWord 48 0 with mmr := m }) = true ∧ ({ State.reset with mmr := m } : State).instrHits = 1#4 ∧ OrdinaryWord mvs 0xB8010 (4 * 0xB8010) :=
  ⟨by decide, by decide, by decide, ordinary_of (by decide)⟩

/-- Interrupt `k` latched and enabled. -/
def latched (k : Nat) (mode2 : Word) (parity : Bool) : State := { State.reset with sys := { State.reset.sys with
  mode1 := 0x1000#32, mode1Act := 0x1000#32, mode2 := mode2, mode2Was := mode2, parity := parity
  irptl := 1#32 <<< k, irptlSeen := 1#32 <<< k, imask := 1#32 <<< k, imaskWas := 1#32 <<< k } }

/-- An ordinary interrupt, a parity error, a SECI that self-nests. -/
theorem test_hyp_Interrupts : ∀ x ∈ [(6, (0 : Word), false), (3, 0, true), (15, 1, false)],
    let s := latched x.1 x.2.1 x.2.2
    s.accept = some x.1 ∧ (match s.ivtBase with | .ok b => b == 0x500000 | _ => false) = true ∧ s.seq.pcStkpDue = none ∧ s.seq.pcStkpNew = none ∧ s.masks.irpten = true ∧
    s.masks.imask.getLsbD x.1 = true ∧ s.seq.branches = [] ∧ s.seq.noIrq = 0 ∧ s.seq.vectorDue = false ∧
    s.sys.imaskp = 0#32 ∧ ∀ j, j < x.1 → s.sys.irptl.getLsbD j = false := by decide

end Sys2Proof.Tests
end

section
/-! PROOFS. What one instruction can do to the state, as a run of the model's own updates; the stack invariant. -/

namespace Sys2Proof.Machine

open Sys2Proof

/-! ### Updates: what an instruction is made of -/

/-- One of the updates that the instructions are made of. -/
inductive Update (s : State) : State → Prop
  | compute (cx cy : Bool) (busy : List UReg) (f : Bool → PeOut) : Update s (s.runPe cx cy busy f)
  | move (f : Fx) : Update s (s.applyFx f)
  | dual (f g : Fx) : Update s (s.applyDual f g)
  | convert (src dst : RegNo) (toByte breg go : Bool) : Update s (s.applyConvert src dst toByte breg go)
  | dreg (y : Bool) (n : RegNo) (v : Reg40) : Update s (s.setDreg y n v)
  | index (n : RegNo) (v : Word) : Update s (s.setI n v)
  | sysReg (r : SysReg) (v : Word) : Update s (s.writeSys r v)
  | btf (y b : Bool) : Update s { s with sys := if y then { s.sys with astaty := putBit s.sys.astaty 18 b }
      else { s.sys with astatx := putBit s.sys.astatx 18 b } }
  | lcntr (v : Word) : Update s { s with seq := s.seq.setLcntr v }
  | pushPc (w : Word) : Update s (s.pushPc w)
  | pushLoop (w : Word) (r : Restored) : Update s (s.pushLoop w r)
  | pushSts : Update s s.pushSts
  | popPc {t : State} (h : s.popPc = .ok t) : Update s t
  | popLoop {t : State} (h : s.popLoop = .ok t) : Update s t
  | popSts {t : State} (h : s.popSts = .ok t) : Update s t
  | service (k : Nat) (latch : Bool) : Update s (s.endService k latch)
  | brkstat : Update s { s with mmr := { s.mmr with brkstat := 0#32 } }
  | branch (db : Bool) : Update s (s.atBranch db)
  | goto (a : IAddr) (db : Bool) (sort : BranchSort) : Update s (s.goto a db sort)
  | marks (b : Boundary) (hc : b.called = s.bdry.called) (ht : b.taken = s.bdry.taken) : Update s { s with bdry := b }
  | call (w : Word) (a : IAddr) (db : Bool) :
      Update s (({ s with bdry := { s.bdry with called := true } }.pushPc w).goto a db .call)
  | idle : Update s s.goIdle
  | flush (on : Bool) : Update s (s.flushCache on)
  | sync : Update s { s with posted := [], mem := s.mem.sync }
  | cacheOp (us : List CacheUnit) : Update s { s.cacheStep with cache := s.invalidateIndex us }

/-- A run of updates. -/
abbrev Updates : State → State → Prop := Relation.ReflTransGen Update

theorem Update.run {s t : State} (h : Update s t) : Updates s t := .single h

/-- What every update keeps, a run of updates keeps. -/
theorem Updates.keeps {P : State → Prop} (hP : ∀ s t, Update s t → P s → P t) {s t : State} (h : Updates s t) (hs : P s) : P t := by
  induction h with
  | refl => exact hs
  | tail _ hu ih => exact hP _ _ hu ih

/-! ### Computations and moves -/

theorem compute_ok {s t : State} {c : Compute} {cx cy : Bool} {busy : List UReg} (h : s.compute c cx cy busy = .ok t) :
    t = s.runPe cx cy busy fun y => s.pe y c := by
  unfold State.compute at h
  split at h
  · exact absurd h (by simp)
  · simpa using h.symm

theorem shiftImm_ok {s t : State} {sh : ShiftImm} {cx cy : Bool} {busy : List UReg} (h : s.shiftImm sh cx cy busy = .ok t) :
    t = s.runPe cx cy busy fun y => s.peShift y sh := by
  unfold State.shiftImm at h
  split at h
  · exact absurd h (by simp)
  · simpa using h.symm

theorem runFifo_ok {s t : State} {moves : Bool} {f : Bool → PeOut} (h : s.runFifo moves f = .ok t) : t = s.runAlone f := by
  unfold State.runFifo at h
  split at h
  · exact absurd h (by simp)
  · simpa using h.symm

theorem computeFx_ok {s t : State} {c : Compute} {f : Fx} {cx cy : Bool} (h : s.computeFx c f cx cy = .ok t) :
    ∃ u, s.compute c cx cy f.dests = .ok u ∧ t = u.applyFx f := by
  unfold State.computeFx at h
  split at h
  · exact absurd h (by simp)
  · rename_i u hu
    exact ⟨u, hu, by simpa using h.symm⟩

theorem computeMove_ok {s t : State} {c : Compute} {m : Move} {cx cy : Bool} (h : s.computeMove c m cx cy = .ok t) :
    ∃ f, s.moveFx m cx cy = .ok f ∧ s.computeFx c f cx cy = .ok t := by
  unfold State.computeMove at h
  split at h
  · exact absurd h (by simp)
  · rename_i f hf
    exact ⟨f, hf, h⟩

theorem moveOnly_ok {s t : State} {m : Move} {cx cy : Bool} (h : s.moveOnly m cx cy = .ok t) :
    ∃ f, s.moveFx m cx cy = .ok f ∧ t = s.applyFx f := by
  unfold State.moveOnly at h
  split at h
  · exact absurd h (by simp)
  · rename_i f hf
    exact ⟨f, hf, by simpa using h.symm⟩

theorem shiftMove_ok {s t : State} {sh : ShiftImm} {m : Move} {cx cy : Bool} (h : s.shiftMove sh m cx cy = .ok t) :
    ∃ f u, s.moveFx m cx cy = .ok f ∧ s.shiftImm sh cx cy f.dests = .ok u ∧ t = u.applyFx f := by
  unfold State.shiftMove at h
  split at h
  · exact absurd h (by simp)
  · rename_i f hf
    split at h
    · exact absurd h (by simp)
    · rename_i u hu
      exact ⟨f, u, hf, hu, by simpa using h.symm⟩

theorem computeDual_ok {s t : State} {c : Compute} {dm pm : Move} (h : s.computeDual c dm pm = .ok t) :
    ∃ f g u, s.dualFx dm pm = .ok (f, g) ∧ s.compute c true true (f.dests ++ g.dests) = .ok u ∧ t = u.applyDual f g := by
  unfold State.computeDual at h
  split at h
  · exact absurd h (by simp)
  · rename_i f g hfg
    split at h
    · exact absurd h (by simp)
    · rename_i u hu
      exact ⟨f, g, u, hfg, hu, by simpa using h.symm⟩

theorem compute_updates {s t : State} {c : Compute} {cx cy : Bool} {busy : List UReg} (h : s.compute c cx cy busy = .ok t) :
    Updates s t := compute_ok h ▸ (Update.compute ..).run

theorem shiftImm_updates {s t : State} {sh : ShiftImm} {cx cy : Bool} {busy : List UReg}
    (h : s.shiftImm sh cx cy busy = .ok t) : Updates s t := shiftImm_ok h ▸ (Update.compute ..).run

theorem runAlone_updates {s t : State} {f : Bool → PeOut}
    (h : (Host.Outcome.next (s.runAlone f) : Host.Outcome State Fault Refusal) = .next t) : Updates s t := by
  cases h
  exact (Update.compute true true [] f).run

theorem runFifo_updates {s t : State} {moves : Bool} {f : Bool → PeOut} (h : (s.runFifo moves f).outcome = .next t) :
    Updates s t := runFifo_ok (outcome_next.mp h) ▸ (Update.compute true true [] f).run

theorem computeFx_updates {s t : State} {c : Compute} {f : Fx} {cx cy : Bool} (h : s.computeFx c f cx cy = .ok t) :
    Updates s t := by
  obtain ⟨u, hu, rfl⟩ := computeFx_ok h
  exact (compute_updates hu).tail (.move f)

theorem computeMove_updates {s t : State} {c : Compute} {m : Move} {cx cy : Bool} (h : s.computeMove c m cx cy = .ok t) :
    Updates s t := by
  obtain ⟨f, -, hf⟩ := computeMove_ok h
  exact computeFx_updates hf

theorem moveOnly_updates {s t : State} {m : Move} {cx cy : Bool} (h : s.moveOnly m cx cy = .ok t) : Updates s t := by
  obtain ⟨f, -, rfl⟩ := moveOnly_ok h
  exact (Update.move f).run

theorem shiftMove_updates {s t : State} {sh : ShiftImm} {m : Move} {cx cy : Bool} (h : s.shiftMove sh m cx cy = .ok t) :
    Updates s t := by
  obtain ⟨f, u, -, hu, rfl⟩ := shiftMove_ok h
  exact (shiftImm_updates hu).tail (.move f)

theorem computeDual_updates {s t : State} {c : Compute} {dm pm : Move} (h : s.computeDual c dm pm = .ok t) : Updates s t := by
  obtain ⟨f, g, u, -, hu, rfl⟩ := computeDual_ok h
  exact (compute_updates hu).tail (.dual f g)

/-! ### Branches, returns, loops -/

theorem clearInterrupt_updates {s t : State} (h : s.clearInterrupt = .ok t) : Updates s t := by
  unfold State.clearInterrupt at h
  split at h
  · exact (Update.popSts h).run
  · exact .head (.service _ _) (Update.popSts h).run

theorem leaveIsr_updates {s t : State} (h : s.leaveIsr = .ok t) : Updates s t := by
  obtain ⟨u, hu, rfl | ⟨k, latch, -, rfl | ⟨-, rfl⟩⟩⟩ := leaveIsr_ok h
  · exact (Update.popSts hu).run
  · exact .head (.service _ _) (Update.popSts hu).run
  · exact .head (.service _ _) (.head .brkstat (Update.popSts hu).run)

theorem takeJump_updates {s t : State} {a : IAddr} {db la ci : Bool} (h : s.takeJump a db la ci = .ok t) : Updates s t := by
  obtain ⟨-, u, hu, rfl⟩ := takeJump_ok h
  have hs : Updates s u := by
    cases la with
    | true =>
      cases hp : s.popPc with
      | error e => simp [hp, Except.bind] at hu
      | ok v => exact .head (.popPc hp) (Update.popLoop (by simpa [hp, Except.bind] using hu)).run
    | false =>
      cases ci with
      | true => exact clearInterrupt_updates (by simpa using hu)
      | false => rw [show u = s by simpa using hu.symm]
  exact (hs.tail (.marks _ (by rfl) (by rfl))).tail (.goto _ _ _)

theorem takeCall_updates {s t : State} {a : IAddr} {db : Bool} (h : s.takeCall a db = .ok t) : Updates s t := by
  obtain ⟨-, rfl⟩ := takeCall_ok h
  exact (Update.call _ _ _).run

theorem takeReturn_updates {s t : State} {rti db : Bool} (h : s.takeReturn rti db = .ok t) : Updates s t := by
  obtain ⟨-, u, v, hu, hv, rfl⟩ := takeReturn_ok h
  have huv : Updates u v := by
    cases rti with
    | true => exact leaveIsr_updates (by simpa using hv)
    | false => rw [show v = u by simpa using hv.symm]
  exact ((huv.head (.popPc hu)).tail (.marks _ (by rfl) (by rfl))).tail (.goto _ _ _)

theorem branch_updates {s t : State} {cond : Cond} {db : Bool} {act : State → Res State}
    (ha : ∀ {u v}, act u = .ok v → Updates u v) (h : s.branch cond db act = .ok t) : Updates s t := by
  unfold State.branch at h
  split at h
  · exact (ha h).head (.branch db)
  · exact Except.ok.inj h ▸ (Update.branch db).run

theorem branchCompute_updates {s t : State} {cond : Cond} {db els : Bool} {c : Compute} {act : State → Res State}
    (ha : ∀ {u v}, act u = .ok v → Updates u v) (h : s.branchCompute cond db els c act = .ok t) : Updates s t := by
  obtain ⟨u, hu, ht⟩ := branchCompute_ok h
  refine (compute_updates hu).trans ?_
  split at ht
  · exact (ha ht).head (.branch db)
  · exact Except.ok.inj ht ▸ (Update.branch db).run

theorem jumpElse_updates {s t : State} {cond : Cond} {a : IAddr} {c : Compute} {store : Bool} {i m : DagNo} {n : RegNo}
    (h : s.jumpElse cond a c store i m n = .ok t) : Updates s t := by
  unfold State.jumpElse at h
  dsimp only at h
  split at h
  · exact absurd h (by simp)
  · rename_i u hu
    refine (computeMove_updates hu).trans ?_
    split at h
    · exact (takeJump_updates h).head (.branch false)
    · exact Except.ok.inj h ▸ (Update.branch false).run

theorem branchTo_updates {s t : State} {k : BranchKind} {a : IAddr} (h : s.branchTo k a = .ok t) : Updates s t := by
  cases k with
  | jump m => exact takeJump_updates h
  | call d => exact takeCall_updates h

theorem startLoop_updates {s t : State} {last : IAddr} {term : BitVec 5} {f1 : Bool} (h : s.startLoop last term f1 = .ok t) :
    Updates s t := by
  obtain ⟨-, -, f1', rfl⟩ := startLoop_ok h
  exact .head (.pushPc _) (Update.pushLoop _ _).run

theorem doCounter_updates {s t : State} {count : Word} {off : BitVec 23} {f1 : Bool} (h : s.doCounter count off f1 = .ok t) :
    Updates s t := .head (.lcntr count) (startLoop_updates h)

/-! ### Stack operations, frames, register bits -/

theorem andIf_updates {s t : State} {r : Res State} {b : Bool} {f : State → Res State}
    (hr : ∀ {u}, r = .ok u → Updates s u) (hf : ∀ {u v}, f u = .ok v → Updates u v) (h : r.andIf b f = .ok t) :
    Updates s t := by
  unfold Res.andIf at h
  split at h
  · exact absurd h (by simp)
  · cases b with
    | true => exact (hr rfl).trans (hf (by simpa using h))
    | false => exact hr (by simpa using h)

theorem pushLoopOp_updates {s t : State} {pcstk : Bool} (h : s.pushLoopOp pcstk = .ok t) : Updates s t := by
  unfold State.pushLoopOp at h
  split at h
  · exact absurd h (by simp)
  · exact Except.ok.inj h ▸ (Update.pushLoop _ _).run

theorem pushPcstkOp_updates {s t : State} (h : s.pushPcstkOp = .ok t) : Updates s t := by
  unfold State.pushPcstkOp at h
  split at h
  · exact absurd h (by simp)
  · exact Except.ok.inj h ▸ (Update.pushPc _).run

theorem pushPcstkAfter_updates {s t : State} (h : s.pushPcstkAfter = .ok t) : Updates s t := by
  unfold State.pushPcstkAfter at h
  split at h
  · exact absurd h (by simp)
  · exact pushPcstkOp_updates h

theorem popLoopOp_updates {s t : State} (h : s.popLoopOp = .ok t) : Updates s t := by
  unfold State.popLoopOp at h
  split at h
  · exact absurd h (by simp)
  · exact (Update.popLoop h).run

theorem popPcstkOp_updates {s t : State} (h : s.popPcstkOp = .ok t) : Updates s t := by
  unfold State.popPcstkOp at h
  split at h
  · exact absurd h (by simp)
  · exact (Update.popPc h).run

theorem pushSts_updates {s t : State} (h : (.ok s.pushSts : Res State) = .ok t) : Updates s t :=
  Except.ok.inj h ▸ Update.pushSts.run

theorem popSts_updates {s t : State} (h : s.popSts = .ok t) : Updates s t := (Update.popSts h).run

theorem bitWrite_updates (s : State) (r : SysReg) (f : Word → Word) : Updates s (s.bitWrite r f) := by
  unfold State.bitWrite
  dsimp only
  split
  · exact .head (.sysReg _ _) (Update.sysReg _ _).run
  · exact (Update.sysReg _ _).run

theorem bitTest_updates (s : State) (r : SysReg) (f : Word → Bool) : Updates s (s.bitTest r f) := by
  unfold State.bitTest
  dsimp only
  split
  · exact .head (.btf false _) (Update.btf true _).run
  · exact (Update.btf false _).run

theorem markXor_updates (s : State) (r : SysReg) : Updates s (s.markXor r) := by
  unfold State.markXor
  split
  · exact (Update.marks _ (by rfl) (by rfl)).run
  · exact .refl

theorem rframe_updates {s t : State} (h : s.rframe = .ok t) : Updates s t := by
  unfold State.rframe at h
  split at h
  · exact absurd h (by simp)
  · exact Except.ok.inj h ▸ .head (.move _) (Update.index _ _).run

theorem cjump_updates {s t : State} {a : IAddr} (h : s.cjump a = .ok t) : Updates s t := by
  unfold State.cjump at h
  dsimp only at h
  have jumps := ((takeJump_updates h).head (.branch true)).head (.index _ _)
  split at jumps
  · exact .head (.dreg _ _ _) (.head (.dreg _ _ _) jumps)
  · exact .head (.dreg _ _ _) jumps

theorem execIdle_updates {s t : State} (h : execIdle s = .next t) : Updates s t := by
  have h := outcome_next.mp h
  split at h
  · exact absurd h (by simp)
  · exact Except.ok.inj h ▸ Update.idle.run

theorem execEmuidle_updates {s t : State} (h : execEmuidle s = .next t) : Updates s t := by
  have h := outcome_next.mp h
  split at h
  · exact absurd h (by simp)
  · exact Except.ok.inj h ▸ .refl

theorem execIdleShort_updates {s t : State} {emu : Bool} (h : execIdleShort emu s = .next t) : Updates s t := by
  cases emu with
  | true => exact execEmuidle_updates h
  | false => exact execIdle_updates h

theorem execCacheOp_updates {s t : State} {a b c d e : Bool} (h : execCacheOp a b c d e s = .next t) : Updates s t := by
  have h := outcome_next.mp h
  split at h
  · split at h
    · exact absurd h (by simp [refuse])
    · exact Except.ok.inj h ▸ (Update.cacheOp _).run
  · exact Except.ok.inj h ▸ .refl

theorem execConvertAddr_updates {s t : State} {cond : Cond} {c : Compute} {pm : Bool} {src dst : DagNo} {toByte breg : Bool}
    (h : execConvertAddr cond c pm src dst toByte breg s = .next t) : Updates s t := by
  have h := outcome_next.mp h
  split at h
  · exact absurd h (by simp)
  · rename_i u hu
    exact Except.ok.inj h ▸ (compute_updates hu).tail (.convert _ _ _ _ _)

theorem move_updates {s t : State} {f : Fx}
    (h : (Host.Outcome.next (s.applyFx f) : Host.Outcome State Fault Refusal) = .next t) : Updates s t := by
  cases h
  exact (Update.move f).run

/-! ### Every instruction -/

/-- An instruction that completes is a run of updates. -/
theorem exec_updates {i : Instr} {s t : State} (h : exec i s = .next t) : Updates s t := by
  cases i
  case computeDualMove | dualMove => exact computeDual_updates (outcome_next.mp h)
  case ifCompute | compute | shortCompute => exact compute_updates (outcome_next.mp h)
  case ifShiftImm => exact shiftImm_updates (outcome_next.mp h)
  case loadUreg | storeUreg | loadDregImm | storeDregImm => exact computeMove_updates (outcome_next.mp h)
  case moveUreg | swapDreg | modify => exact computeFx_updates (outcome_next.mp h)
  case shiftImmLoadDM | shiftImmStoreDM | shiftImmLoadPM | shiftImmStorePM => exact shiftMove_updates (outcome_next.mp h)
  case loadUregSized | storeUregSized | loadDregImmSized | storeDregImmSized | loadUregDirect | storeUregDirect
      | moveDregDirect | loadUregOffset | storeUregOffset | storeImm | moveUregSized | moveDregShort | moveDregImmSized
      | moveUregOffset7 | storeImm16 => exact moveOnly_updates (outcome_next.mp h)
  case moveImm | moveImm16 | moveUregShort | swapDregShort | modifyShort | modifyImm | bitrevImm => exact move_updates h
  case convertAddr => exact execConvertAddr_updates h
  case jumpDirect | jumpPcRel => exact branch_updates takeJump_updates (outcome_next.mp h)
  case callDirect | callPcRel => exact branch_updates takeCall_updates (outcome_next.mp h)
  case branchShort => exact branch_updates branchTo_updates (outcome_next.mp h)
  case returnShort => exact branch_updates takeReturn_updates (outcome_next.mp h)
  case jumpIndirect | jumpPcRel6 => exact branchCompute_updates takeJump_updates (outcome_next.mp h)
  case callIndirect | callPcRel6 => exact branchCompute_updates takeCall_updates (outcome_next.mp h)
  case rts | rti => exact branchCompute_updates takeReturn_updates (outcome_next.mp h)
  case jumpIndirectElseLoad | jumpIndirectElseStore | jumpPcRelElseLoad | jumpPcRelElseStore =>
    exact jumpElse_updates (outcome_next.mp h)
  case doCounterImm | doCounterUreg => exact doCounter_updates (outcome_next.mp h)
  case doUntil => exact startLoop_updates (outcome_next.mp h)
  case bitSet | bitClr | bitTgl => exact Host.Outcome.next.inj h ▸ bitWrite_updates s _ _
  case bitTst => exact Host.Outcome.next.inj h ▸ bitTest_updates s _ _
  case bitXor => exact Host.Outcome.next.inj h ▸ (bitTest_updates s _ _).trans (markXor_updates _ _)
  case pushLoop =>
    exact (andIf_updates (andIf_updates pushLoopOp_updates pushSts_updates) pushPcstkOp_updates (outcome_next.mp h)).head (.flush _)
  case popLoop =>
    exact (andIf_updates (andIf_updates popLoopOp_updates popSts_updates) popPcstkOp_updates (outcome_next.mp h)).head (.flush _)
  case pushSts => exact (andIf_updates pushSts_updates pushPcstkAfter_updates (outcome_next.mp h)).head (.flush _)
  case popSts => exact (andIf_updates popSts_updates popPcstkOp_updates (outcome_next.mp h)).head (.flush _)
  case pushPcstk => exact (pushPcstkAfter_updates (outcome_next.mp h)).head (.flush _)
  case popPcstk => exact (popPcstkOp_updates (outcome_next.mp h)).head (.flush _)
  case flushCache => exact Host.Outcome.next.inj h ▸ (Update.flush true).run
  case cacheOp => exact execCacheOp_updates h
  case nop | nopShort => exact Host.Outcome.next.inj h ▸ .refl
  case idle => exact execIdle_updates h
  case emuidle => exact execEmuidle_updates h
  case idleShort => exact execIdleShort_updates h
  case sync => exact Host.Outcome.next.inj h ▸ Update.sync.run
  case cjump | cjumpPcRel => exact cjump_updates (outcome_next.mp h)
  case rframe | rframeShort => exact rframe_updates (outcome_next.mp h)
  case bitdep | bitdepImm | bitext | bitextImm | bitextNU | bitextNUImm | setBffwrp | setBffwrpImm | getBffwrp =>
    exact runFifo_updates h
  all_goals exact runAlone_updates h

end Sys2Proof.Machine
end

section
/-! PROOFS. The stacks stay within their depths (R63 to R74). -/

namespace Sys2Proof.Machine

open Sys2Proof

/-! ### Depths -/

/-- What the stack invariant looks at: the depth and the overflow mark of each stack. -/
@[ext] structure Depths where
  pc : Nat
  pcOv : Bool
  loops : Nat
  lcntrs : Nat
  loopOv : Bool
  sts : Nat
  stsOv : Bool

/-- The depths and overflow marks of the stacks. -/
def Seq.depths (q : Seq) : Depths :=
  ⟨q.pcStk.length, q.pcOv, q.loopStk.length, q.lcntrs.length, q.loopOv, q.stsStk.length, q.stsOv⟩

/-- The stack invariant is one of the depths and marks alone. -/
theorem stackInv_iff (q : Seq) : StackInv q ↔
    q.depths.pc ≤ 30 ∧ (q.depths.pcOv = true → q.depths.pc = 30) ∧ q.depths.loops + q.depths.lcntrs = 6 ∧
      (q.depths.loopOv = true → q.depths.lcntrs = 0) ∧ q.depths.sts ≤ 15 ∧ (q.depths.stsOv = true → q.depths.sts = 15) := by
  constructor
  · rintro ⟨h1, h2, h3, h4, h5, h6⟩
    exact ⟨h1, h2, h3, fun h => List.length_eq_zero_iff.mpr (h4 h), h5, h6⟩
  · rintro ⟨h1, h2, h3, h4, h5, h6⟩
    exact ⟨h1, h2, h3, fun h => List.length_eq_zero_iff.mp (h4 h), h5, h6⟩

theorem StackInv.congr {q q' : Seq} (hq : StackInv q) (h : q'.depths = q.depths) : StackInv q' := by
  rw [stackInv_iff, h]
  exact (stackInv_iff q).mp hq

/-! ### What leaves the depths alone -/

@[simp] theorem Seq.setLcntr_depths (q : Seq) (v : Word) : (q.setLcntr v).depths = q.depths := by
  unfold Seq.setLcntr
  split <;> simp_all [Seq.depths]

@[simp] theorem Seq.setMode1stk_depths (q : Seq) (v : Word) : (q.setMode1stk v).depths = q.depths := by
  unfold Seq.setMode1stk
  split <;> simp_all [Seq.depths]

@[simp] theorem Seq.setPcstk_depths (q : Seq) (v : Word) : (q.setPcstk v).depths = q.depths := by
  unfold Seq.setPcstk
  (repeat' split) <;> simp_all [Seq.depths]

@[simp] theorem Seq.setLaddr_depths (q : Seq) (v : Word) : (q.setLaddr v).depths = q.depths := by
  unfold Seq.setLaddr
  split <;> simp_all [Seq.depths]

@[simp] theorem Seq.setCurlcntr_depths (q : Seq) (v : Word) : (q.setCurlcntr v).depths = q.depths := by
  unfold Seq.setCurlcntr
  (repeat' split) <;> simp_all [Seq.depths]

@[simp] theorem State.writeSys_depths (s : State) (r : SysReg) (v : Word) : (s.writeSys r v).seq.depths = s.seq.depths := by
  cases r <;> simp [State.writeSys]

@[simp] theorem State.guarded_seq (s : State) (q : Seq) (r : Option Refusal) : (s.guarded q r).seq = q := by
  unfold State.guarded; split <;> rfl

@[simp] theorem State.writeU_depths (s : State) (u : UReg) (v : Word) : (s.writeU u v).seq.depths = s.seq.depths := by
  cases u <;> simp [State.writeU]
  case pcstkp => rfl

@[simp] theorem State.writeVal_depths (s : State) (u : UReg) (x : RegVal) : (s.writeVal u x).seq.depths = s.seq.depths := by
  unfold State.writeVal; split <;> simp

@[simp] theorem State.applyRegs_depths (s : State) (l : List (UReg × RegVal)) : (s.applyRegs l).seq.depths = s.seq.depths := by
  unfold State.applyRegs
  induction l generalizing s with
  | nil => rfl
  | cons p l ih => simp [List.foldl, ih]

/-- A store to a core memory-mapped register touches the reset request and the two holds of the sequencer alone. -/
@[simp] theorem State.writeMmr_depths (s : State) (r : CoreMmr) (v : Word) : (s.writeMmr r v).seq.depths = s.seq.depths := by
  show (s.storeMmr r v).seq.depths = s.seq.depths
  cases r <;> simp only [State.storeMmr, State.writeSysctl, State.writeGperr] <;> (repeat' split) <;> rfl

@[simp] theorem applyStores_seq (s : State) (l : List Stored) : (l.foldl State.applyStore s).seq = s.seq := by
  induction l generalizing s with
  | nil => rfl
  | cons p l ih => simp [List.foldl, ih]

@[simp] theorem applyAzs_seq (s : State) (l : List (Bool × Bool)) : (l.foldl State.applyAz s).seq = s.seq := by
  induction l generalizing s with
  | nil => rfl
  | cons p l ih => simp [List.foldl, ih]

@[simp] theorem State.applyMemory_depths (s : State) (f : Fx) : (s.applyMemory f).seq.depths = s.seq.depths := by
  unfold State.applyMemory
  simp only [applyAzs_seq]
  split <;> simp

@[simp] theorem State.applyFx_depths (s : State) (f : Fx) : (s.applyFx f).seq.depths = s.seq.depths := by
  simp [State.applyFx]

@[simp] theorem State.applyDual_depths (s : State) (f g : Fx) : (s.applyDual f g).seq.depths = s.seq.depths := by
  simp [State.applyDual]

@[simp] theorem runPe_seq (s : State) (cx cy : Bool) (busy : List UReg) (f : Bool → PeOut) :
    (s.runPe cx cy busy f).seq = s.seq := by
  unfold State.runPe
  dsimp only
  (repeat' split) <;> simp [applyPe_seq]

@[simp] theorem State.applyConvert_seq (s : State) (src dst : RegNo) (toByte breg go : Bool) :
    (s.applyConvert src dst toByte breg go).seq = s.seq := by
  unfold State.applyConvert
  (repeat' split) <;> simp

@[simp] theorem State.atBranch_depths (s : State) (db : Bool) : (s.atBranch db).seq.depths = s.seq.depths := by
  rw [atBranch_eq]; rfl

@[simp] theorem State.goto_depths (s : State) (a : IAddr) (db : Bool) (sort : BranchSort) :
    (s.goto a db sort).seq.depths = s.seq.depths := by
  rw [goto_eq]; rfl

@[simp] theorem State.loseLoops_depths (s : State) : s.loseLoops.seq.depths = s.seq.depths := by
  unfold State.loseLoops
  split
  · cases h : s.seq.lcntrs <;> simp [Seq.depths, h]
  · rfl

@[simp] theorem Seq.passSlots_depths (q : Seq) : q.passSlots.depths = q.depths := by
  unfold Seq.passSlots
  dsimp only
  (repeat' split) <;> rfl

@[simp] theorem State.loopCheck_depths (s : State) : s.loopCheck.seq.depths = s.seq.depths := by
  unfold State.loopCheck
  split
  · rfl
  · rename_i h; simp [Seq.depths, h]

@[simp] theorem State.begin_depths (s : State) (len : Nat) : (s.begin len).seq.depths = s.seq.depths := by
  unfold State.begin
  rw [State.loopCheck_depths]
  rfl

@[simp] theorem State.passCalls_depths (s0 s : State) : (s0.passCalls s).seq.depths = s.seq.depths := by
  have h := passCalls_length s0 s
  simp only [Seq.depths, h]
  rfl

@[simp] theorem breakpoints_seq (s0 s : State) : (s0.breakpoints s).seq = s.seq := by
  unfold State.breakpoints
  dsimp only
  (repeat' split) <;> rfl

@[simp] theorem passTimer_seq (s0 s : State) (c : Nat) : (s0.passTimer s c).seq = s.seq := by
  unfold State.passTimer
  split
  · rfl
  · dsimp only
    simp

@[simp] theorem passTime_seq (s0 s : State) : (s0.passTime s).seq = s.seq := by
  unfold State.passTime
  dsimp only
  split <;> simp

@[simp] theorem closeStep_seq (s0 s : State) : (s0.closeStep s).seq = s.seq := by
  simp [State.closeStep]

@[simp] theorem illegal_depths (s : State) : s.illegal.seq.depths = s.seq.depths := by
  unfold State.illegal
  dsimp only [State.raise_seq]
  rfl

@[simp] theorem afterFetch_seq (s0 s : State) (n : Nat) : (s0.afterFetch s n).seq = s.seq := by
  unfold State.afterFetch
  (repeat' split) <;> simp

/-! ### Pushes and pops -/

theorem dropPc_stackInv {q : Seq} (h : StackInv q) : StackInv q.dropPc := by
  obtain ⟨h1, h2, h3, h4, h5, h6⟩ := h
  unfold Seq.dropPc
  split
  · exact ⟨h1, by simp, h3, h4, h5, h6⟩
  · rename_i ho
    exact ⟨by simp; omega, fun h => absurd h ho, h3, h4, h5, h6⟩

theorem dropLoop_stackInv {q : Seq} (h : StackInv q) : StackInv q.dropLoop := by
  obtain ⟨h1, h2, h3, h4, h5, h6⟩ := h
  unfold Seq.dropLoop
  split
  · exact ⟨h1, h2, h3, h4, h5, h6⟩
  · rename_i e t he
    exact ⟨h1, h2, by simp [he] at h3 ⊢; omega, by simp, h5, h6⟩

/-- A full PC stack keeps its entries, any other one has room for one more. -/
theorem pushPc_stackInv {s : State} (h : StackInv s.seq) (w : Word) : StackInv (s.pushPc w).seq := by
  obtain ⟨h1, h2, h3, h4, h5, h6⟩ := h
  unfold State.pushPc
  simp only [State.raiseIf_seq]
  split
  · exact ⟨h1, fun _ => by dsimp only; omega, h3, h4, h5, h6⟩
  · exact ⟨by simp; omega, fun h => by have := h2 h; omega, h3, h4, h5, h6⟩

/-- A push moves one free counter location under the top; without one the top entry is lost and the mark set. -/
theorem pushLoop_stackInv {s : State} (h : StackInv s.seq) (w : Word) (r : Restored) : StackInv (s.pushLoop w r).seq := by
  obtain ⟨h1, h2, h3, h4, h5, h6⟩ := h
  unfold State.pushLoop
  split
  · exact ⟨h1, h2, h3, fun _ => by assumption, h5, h6⟩
  · rename_i hs hl
    exact ⟨h1, h2, by simpa [hs] using h3, fun _ => hl, h5, h6⟩
  · rename_i hl
    refine ⟨h1, h2, by simp [hl] at h3 ⊢; omega, fun h => ?_, h5, h6⟩
    exact absurd (h4 h) (by simp [hl])

theorem pushSts_stackInv {s : State} (h : StackInv s.seq) : StackInv s.pushSts.seq := by
  obtain ⟨h1, h2, h3, h4, h5, h6⟩ := h
  unfold State.pushSts
  dsimp only
  split
  · exact ⟨h1, h2, h3, h4, by simp; omega, fun _ => by simp; omega⟩
  · exact ⟨h1, h2, h3, h4, by simp; omega, fun h => by have := h6 h; omega⟩

theorem popPc_stackInv {s t : State} (h : StackInv s.seq) (hp : s.popPc = .ok t) : StackInv t.seq := by
  obtain ⟨-, rfl⟩ := popPc_ok hp
  exact dropPc_stackInv h

theorem popLoop_stackInv {s t : State} (h : StackInv s.seq) (hp : s.popLoop = .ok t) : StackInv t.seq := by
  obtain ⟨-, rfl⟩ := popLoop_ok hp
  exact dropLoop_stackInv h

theorem popSts_stackInv {s t : State} (h : StackInv s.seq) (hp : s.popSts = .ok t) : StackInv t.seq := by
  obtain ⟨e, rest, he, rfl⟩ := popSts_ok hp
  obtain ⟨h1, h2, h3, h4, h5, h6⟩ := h
  refine StackInv.congr (q := { s.seq with stsStk := rest, stsOv := false }) ?_ (by simp)
  exact ⟨h1, h2, h3, h4, by simp [he] at h5 ⊢; omega, by simp⟩

/-- A settled write of PCSTKP leaves as many entries as it names, at most 30. -/
theorem settlePcstkp_stackInv {s : State} (h : StackInv s.seq) (w : Option (BitVec 5)) : StackInv (s.settlePcstkp w).seq := by
  unfold State.settlePcstkp
  split
  · exact h
  · rename_i v
    split
    · exact h
    · obtain ⟨h1, h2, h3, h4, h5, h6⟩ := h
      dsimp only
      have hlen : (if min v.toNat 30 ≤ s.seq.pcStk.length then s.seq.pcStk.drop (s.seq.pcStk.length - min v.toNat 30)
          else List.replicate (min v.toNat 30 - s.seq.pcStk.length) (s.freeWord 22) ++ s.seq.pcStk).length = min v.toNat 30 := by
        split <;> simp <;> omega
      refine ⟨by dsimp only; rw [hlen]; omega, fun hv => ?_, h3, h4, h5, h6⟩
      have hv : v.toNat = 31 := by simpa using hv
      dsimp only
      rw [hlen]
      omega

/-! ### One instruction -/

/-- Every update keeps the stacks within their depths. -/
theorem update_stackInv (s t : State) (hu : Update s t) (h : StackInv s.seq) : StackInv t.seq := by
  cases hu with
  | compute | move | dual | convert | dreg | index | sysReg | lcntr | branch | goto | flush => exact h.congr (by simp)
  | btf | service | brkstat | marks | idle | sync | cacheOp => exact h.congr rfl
  | pushPc w => exact pushPc_stackInv h w
  | call w a db => exact (pushPc_stackInv (s := { s with bdry := { s.bdry with called := true } }) h w).congr (by simp)
  | pushLoop w r => exact pushLoop_stackInv h w r
  | pushSts => exact pushSts_stackInv h
  | popPc hp => exact popPc_stackInv h hp
  | popLoop hp => exact popLoop_stackInv h hp
  | popSts hp => exact popSts_stackInv h hp

theorem exec_stackInv {i : Instr} {s t : State} (he : exec i s = .next t) (h : StackInv s.seq) : StackInv t.seq :=
  (exec_updates he).keeps update_stackInv h

/-! ### One step -/

theorem enter_stackInv {s t : State} {k : Nat} (he : s.enter k = .ok t) (h : StackInv s.seq) : StackInv t.seq := by
  obtain ⟨base, -, rfl⟩ := enter_ok he
  exact (pushSts_stackInv (pushPc_stackInv (settlePcstkp_stackInv (settlePcstkp_stackInv h _) _) _)).congr rfl

theorem takeInterrupt_stackInv {s t : State} {k : Nat} (he : s.takeInterrupt k = .ok t) (h : StackInv s.seq) :
    StackInv t.seq := by
  unfold State.takeInterrupt at he
  split at he
  · exact absurd he (by simp)
  · rename_i u hu
    cases he
    dsimp only
    rw [closeStep_seq]
    show StackInv u.seq
    exact enter_stackInv hu h

theorem loopEnd_stackInv {s t : State} (he : s.loopEnd = .ok t) (h : StackInv s.seq) : StackInv t.seq := by
  cases hs : s.seq.loopStk with
  | nil =>
    simp only [State.loopEnd, hs, Except.ok.injEq] at he
    exact he ▸ h
  | cons e rest =>
    rcases loopEnd_ok hs he with hp | ⟨-, e', -, -, rfl⟩
    · exact popPc_stackInv (dropLoop_stackInv h) hp
    · exact h.congr (by simp [Seq.depths, hs])

theorem closeLoop_stackInv {s0 s t : State} {len : Nat} (he : s0.closeLoop s len = .ok t) (h : StackInv s.seq) :
    StackInv t.seq := by
  obtain ⟨-, ⟨-, rfl⟩ | ⟨-, -, -, -, hl⟩⟩ := closeLoop_ok he
  · exact h
  · exact loopEnd_stackInv hl h

theorem reset_stackInv : StackInv State.reset.seq := by
  constructor <;> decide

theorem finish_stackInv {s0 s t : State} {len : Nat} (he : s0.finish s len = .ok t) (h : StackInv s.seq) : StackInv t.seq := by
  obtain ⟨-, u, hu, ⟨-, rfl⟩ | ⟨-, -, rfl⟩⟩ := finish_ok he
  · exact reset_stackInv
  · refine (settlePcstkp_stackInv (closeLoop_stackInv hu h) u.seq.pcStkpDue).congr ?_
    rw [closeStep_seq, breakpoints_seq, State.passCalls_depths]
    exact (Seq.passSlots_depths _).trans (State.loseLoops_depths _)

theorem execute_stackInv {s t : State} {f : Fetched} (he : s.execute f = .next t) (h : StackInv s.seq) : StackInv t.seq := by
  rcases execute_cases he with ⟨i, -, hi⟩ | rfl
  · exact exec_stackInv hi h
  · exact h.congr (by simp)

/-- Settles O55: a step is an interrupt entry, an idle step, or an instruction, which is a run of updates, with its boundary. -/
theorem stepKeepsStacks : Obligations.StepKeepsStacks := by
  intro s t h hst
  rcases step_cases hst with ⟨k, -, hk⟩ | ⟨-, -, rfl⟩ | ⟨-, -, f, u, -, -, hu, hf⟩
  · exact takeInterrupt_stackInv hk h
  · rwa [closeStep_seq]
  · refine finish_stackInv hf ?_
    rw [afterFetch_seq]
    exact execute_stackInv hu (h.congr (by simp))

/-- Settles O53. -/
theorem resetInvariants : Obligations.ResetInvariants := by
  refine ⟨reset_mem_wf, reset_stackInv, ?_⟩
  constructor <;> decide

end Sys2Proof.Machine
end

section
/-! PROOFS. Conditions (R75 to R78). -/

namespace Sys2Proof.Machine

open Sys2Proof

@[simp] theorem flagBit_getElem (i k : Nat) (b : Bool) (hi : i < 32) (hk : k < 32) :
    (flagBit i b)[k] = (b && decide (k = i)) := by
  rw [← BitVec.getLsbD_eq_getElem, flagBit_getLsbD i k b hi]

/-- FLAGS reads, at its value bits, the levels of the four core flags. -/
theorem flagsRead_getLsbD (y : Sys) (k : Fin 4) : y.flagsRead.getLsbD (2 * k) = y.flag k := by
  fin_cases k <;> simp [Sys.flagsRead]

/-- The complement of a condition that has one: its code with bit 4 inverted. -/
theorem cond_complement (s : State) (y : Bool) (c : Cond) (h1 : c ≠ .notLce) (h2 : c ≠ .true_) :
    s.cond y (condOf (c.code ^^^ 0x10#5)) = !s.cond y c := by
  cases c with
  | notLce => exact absurd rfl h1
  | true_ => exact absurd rfl h2
  | _ => simp [condOf, Cond.code, State.cond]

theorem ltVal_eq (a : Word) (sat : Bool) : ltVal a sat =
    if a.getLsbD 10 then a.getLsbD 2 && !a.getLsbD 0 else a.getLsbD 2 ^^ (a.getLsbD 1 && !sat) := by
  unfold ltVal; cases a.getLsbD 10 <;> simp

theorem leVal_eq (a : Word) (sat : Bool) : leVal a sat =
    ((if a.getLsbD 10 then a.getLsbD 2 else a.getLsbD 2 ^^ (a.getLsbD 1 && !sat)) || a.getLsbD 0) := by
  unfold leVal; cases a.getLsbD 10 <;> simp

/-- Without selective execution, and for any condition but FLAG2_IN and its complement, an element goes by its flags. -/
theorem condOp_eq_cond (s : State) (y : Bool) (c : Cond) (h : s.mode .selpe = false ∨ (c ≠ .flag2 ∧ c ≠ .notFlag2)) :
    s.condOp y c = s.cond y c := by
  unfold State.condOp
  split
  · simp_all
  · simp_all
  · rfl

/-- Settles O22. -/
theorem conditions : Obligations.Conditions := by
  intro s y a sat flags fixLess
  refine ⟨⟨rfl, rfl, rfl, rfl, rfl, rfl, rfl, rfl, rfl, rfl⟩, ⟨?_, ?_, ?_, ?_⟩, rfl, ?_, ?_, cond_complement s y, ?_, condOp_eq_cond s y⟩
  · exact (flagsRead_getLsbD s.sys 0).symm
  · exact (flagsRead_getLsbD s.sys 1).symm
  · exact (flagsRead_getLsbD s.sys 2).symm
  · exact (flagsRead_getLsbD s.sys 3).symm
  · exact ltVal_eq a sat
  · exact leVal_eq a sat
  · intro h
    simp [State.condOp, h]

end Sys2Proof.Machine
end

section
/-! PROOFS. One step: the fetched instruction, the boundary after it, interrupts and reset (R60, R92 to R94, R564, R1035 to R1055). -/

namespace Sys2Proof.Machine

open Sys2Proof

/-! ### The start of an instruction -/

/-- The start of an instruction touches the next address, the two pending writes of PCSTKP and the loop stack. -/
theorem begin_seq (s : State) (len : Nat) : (s.begin len).seq = { s.seq with
    npc := s.seq.pc + BitVec.ofNat 24 len, pcStkpDue := s.seq.pcStkpNew, pcStkpNew := none
    loopStk := (s.begin len).seq.loopStk } := by
  unfold State.begin State.loopCheck
  dsimp only
  split <;> rfl

theorem begin_seq_noLoop {s : State} (len : Nat) (h : s.seq.loopStk = []) : (s.begin len).seq = { s.seq with
    npc := s.seq.pc + BitVec.ofNat 24 len, pcStkpDue := s.seq.pcStkpNew, pcStkpNew := none } := by
  simp [State.begin, State.loopCheck, h]

@[simp] theorem begin_pc (s : State) (len : Nat) : (s.begin len).seq.pc = s.seq.pc := by rw [begin_seq]

@[simp] theorem begin_npc (s : State) (len : Nat) : (s.begin len).seq.npc = s.seq.pc + BitVec.ofNat 24 len := by rw [begin_seq]

@[simp] theorem begin_srst (s : State) (len : Nat) : (s.begin len).seq.srst = s.seq.srst := by rw [begin_seq]

@[simp] theorem begin_gov (s : State) (len : Nat) : (s.begin len).gov = s.gov := by simp [State.gov, State.governs]

@[simp] theorem begin_interruptible (s : State) (len : Nat) : (s.begin len).seq.interruptible = s.seq.interruptible := by
  rw [begin_seq]; rfl

/-! ### The step of a running core -/

theorem step_run {s : State} (ha : s.accept = none) (hi : s.seq.idle = false) : step s = s.runInstr := by
  simp [step, ha, hi]

theorem runInstr_unpopulated {s : State} (hf : s.fetch s.seq.pc = none) : s.runInstr = .fault (.busHang s.seq.pc.toNat) := by
  simp [State.runInstr, hf]

theorem runInstr_stopped {s : State} {f : Fetched} {r : Refusal} (hf : s.fetch s.seq.pc = some f) (hr : s.fetchStop = some r) :
    s.runInstr = .refused r := by
  simp [State.runInstr, hf, hr]

/-- What a core that may run its fetched instruction answers. -/
theorem runInstr_fetched {s : State} {f : Fetched} (hf : s.fetch s.seq.pc = some f) (hr : s.fetchStop = none) :
    (∀ t, (s.begin f.len).execute f = .next t →
      s.runInstr = ((s.begin f.len).finish ((s.begin f.len).afterFetch t f.bytes) f.len).outcome) ∧
    (∀ r, (s.begin f.len).execute f = .fault r → s.runInstr = .fault r) ∧
    (∀ r, (s.begin f.len).execute f = .refused r → s.runInstr = .refused r) := by
  refine ⟨fun t h => ?_, fun r h => ?_, fun r h => ?_⟩ <;> simp [State.runInstr, hf, hr, h]

theorem execute_decoded {s : State} {f : Fetched} {i : Instr} (h : f.decode = .ok i) : s.execute f = exec i s := by
  simp [State.execute, h]

/-- An undefined word that is no pair of odd registers and no mix of stack operations executes as one. -/
theorem execute_undefined {s : State} {f : Fetched} {r : Reject} (h : f.decode = .error r) (h1 : r ≠ .oddPair) (h2 : r ≠ .stackMix) :
    s.execute f = .next s.illegal := by
  unfold State.execute
  split
  · simp_all
  · simp_all
  · simp_all
  · rfl

/-! ### What the fetch leaves -/

/-- The fetch of an instruction touches the caches, the power of a block and, where no code is populated, the latches. -/
theorem afterFetch_keeps (s0 s : State) (n : Nat) :
    (s0.afterFetch s n).data = s.data ∧ (s0.afterFetch s n).dag = s.dag ∧ (s0.afterFetch s n).seq = s.seq ∧
    (s0.afterFetch s n).bdry = s.bdry ∧ SameBytes s (s0.afterFetch s n) ∧ (s0.afterFetch s n).mmr = s.mmr ∧
    (s0.afterFetch s n).bus = s.bus ∧ (s0.afterFetch s n).posted = s.posted ∧ (s0.afterFetch s n).free = s.free ∧
    (s0.afterFetch s n).sys.pins = s.sys.pins := by
  unfold State.afterFetch SameBytes
  split
  · split <;> simp [State.stick, State.raise]
  · simp

theorem codeAt_cmmr {a : IAddr} (h : Config.inCmmrRange a.toNat = true) : codeAt a = none := by
  simp [codeAt, locate, h]

/-- A fetch from the core memory-mapped registers is the illegal access of R339. -/
theorem afterFetch_cmmr {s0 : State} (s : State) (n : Nat) (h : Config.inCmmrRange s0.seq.pc.toNat = true)
    (hm : s0.sys.mode2.getLsbD 20 = true) : (s0.afterFetch s n).sys =
      { s.sys with stkyx := s.sys.stkyx ||| 0x80000#32, irptl := s.sys.irptl ||| 0x40#32 } := by
  simp [State.afterFetch, codeAt_cmmr h, hm, State.stick, State.raise, Irq.num]

/-! ### An undefined word -/

theorem illegal_npc (s : State) : s.illegal.seq.npc = s.seq.pc + BitVec.ofNat 24 (fullLen s.seq.pc) := rfl

theorem illegal_irptl (s : State) : s.illegal.sys.irptl = s.sys.irptl ||| 0x10#32 := by
  unfold State.illegal
  split <;> rfl

/-- The first undefined word is captured, with the mark that no interrupt can be accepted where it stands. -/
theorem illegal_mmr {s : State} (h : s.posted = []) : s.illegal.mmr.illopLocked = true ∧
    s.illegal.mmr.illop = if s.mmr.illopLocked then s.mmr.illop
      else s.seq.pc.setWidth 32 ||| (if s.seq.interruptible then 0#32 else 0x1000000#32) := by
  unfold State.illegal
  rw [State.gov_of_posted_nil h]
  split
  · rename_i hl
    simp [hl]
  · rename_i hl
    cases s.seq.interruptible <;> simp [State.setMmrs, h, flagBit]

/-- Settles O50. -/
theorem stepRunsDecodedInstruction : Obligations.StepRunsDecodedInstruction := by
  intro s ha hi
  rw [step_run ha hi]
  refine ⟨runInstr_unpopulated, ?_⟩
  intro f hf s0
  refine ⟨fun r => runInstr_stopped hf, fun hs hd => ?_, fun hs hd => ?_, fun hs i hd => ?_, fun t => ?_, fun hs r hd h1 h2 => ?_⟩
  · exact (runInstr_fetched hf hs).2.2 _ (by simp [State.execute, hd])
  · exact (runInstr_fetched hf hs).2.2 _ (by simp [State.execute, hd])
  · obtain ⟨hn, hfa, hr⟩ := runInstr_fetched hf hs
    simp only [execute_decoded hd] at hn hfa hr
    exact ⟨begin_npc s _, begin_pc s _, hn, hfa, hr⟩
  · obtain ⟨h1, h2, h3, h4, h5, h6, -⟩ := afterFetch_keeps s0 t f.bytes
    refine ⟨h1, h2, h3, h4, h5, h6, fun hc hm => afterFetch_cmmr t _ ?_ ?_⟩
    · rwa [begin_pc]
    · rwa [State.begin_sys]
  · obtain ⟨hn, -, -⟩ := runInstr_fetched hf hs
    refine ⟨hn _ (execute_undefined hd h1 h2), ?_, ?_, fun hp => ?_⟩
    · rw [illegal_npc, begin_pc]
    · rw [illegal_irptl, State.begin_sys]
    · have h := illegal_mmr (s := s0) (by simpa [s0] using hp)
      simpa [s0] using h

end Sys2Proof.Machine
end

section
/-! PROOFS. The boundary after an instruction: calls, reset, the next address (R92 to R94, R564, R568, R590). -/

namespace Sys2Proof.Machine

open Sys2Proof

/-! ### What the watch on calls goes by -/

/-- What the watch on a CALL of an inner loop goes by: whether a CALL and whether a branch was taken, and the mark of each loop. -/
def State.callMarks (s : State) : Bool × Bool × List CallMark := (s.bdry.called, s.bdry.taken, s.seq.loopStk.map (·.call))

@[simp] theorem guarded_callMarks (s : State) (q : Seq) (r : Option Refusal) (h : q.loopStk.map (·.call) = s.seq.loopStk.map (·.call)) :
    (s.guarded q r).callMarks = s.callMarks := by
  unfold State.guarded; split <;> simp [State.callMarks, h]

@[simp] theorem Seq.setPcstk_loopStk (q : Seq) (v : Word) : (q.setPcstk v).loopStk = q.loopStk := by
  unfold Seq.setPcstk; (repeat' split) <;> rfl

@[simp] theorem Seq.setLcntr_loopStk (q : Seq) (v : Word) : (q.setLcntr v).loopStk = q.loopStk := by
  unfold Seq.setLcntr; split <;> rfl

@[simp] theorem Seq.setMode1stk_loopStk (q : Seq) (v : Word) : (q.setMode1stk v).loopStk = q.loopStk := by
  unfold Seq.setMode1stk; split <;> rfl

@[simp] theorem Seq.setLaddr_calls (q : Seq) (v : Word) : (q.setLaddr v).loopStk.map (·.call) = q.loopStk.map (·.call) := by
  unfold Seq.setLaddr
  split <;> simp [*]

@[simp] theorem Seq.setCurlcntr_calls (q : Seq) (v : Word) : (q.setCurlcntr v).loopStk.map (·.call) = q.loopStk.map (·.call) := by
  unfold Seq.setCurlcntr
  (repeat' split) <;> simp [*]

@[simp] theorem writeSys_callMarks (s : State) (r : SysReg) (v : Word) : (s.writeSys r v).callMarks = s.callMarks := by
  cases r <;> simp [State.writeSys, State.callMarks]

@[simp] theorem writeU_callMarks (s : State) (u : UReg) (v : Word) : (s.writeU u v).callMarks = s.callMarks := by
  cases u <;> simp [State.writeU]
  all_goals simp [State.callMarks]

@[simp] theorem writeVal_callMarks (s : State) (u : UReg) (x : RegVal) : (s.writeVal u x).callMarks = s.callMarks := by
  unfold State.writeVal
  split <;> first | exact writeU_callMarks .. | simp [State.callMarks]

@[simp] theorem applyRegs_callMarks (s : State) (l : List (UReg × RegVal)) : (s.applyRegs l).callMarks = s.callMarks := by
  unfold State.applyRegs
  induction l generalizing s with
  | nil => rfl
  | cons p l ih => simp [List.foldl, ih]

/-- A store to a core memory-mapped register touches no mark. -/
@[simp] theorem writeMmr_callMarks (s : State) (r : CoreMmr) (v : Word) : (s.writeMmr r v).callMarks = s.callMarks := by
  show (s.storeMmr r v).callMarks = s.callMarks
  cases r <;> simp only [State.storeMmr, State.writeSysctl, State.writeGperr] <;> (repeat' split) <;> rfl

theorem applyStores_bdry (s : State) (l : List Stored) : (l.foldl State.applyStore s).bdry = s.bdry := by
  induction l generalizing s with
  | nil => rfl
  | cons p l ih => simp [List.foldl, ih]

theorem applyAzs_bdry (s : State) (l : List (Bool × Bool)) : (l.foldl State.applyAz s).bdry = s.bdry := by
  induction l generalizing s with
  | nil => rfl
  | cons p l ih => simp [List.foldl, ih]

@[simp] theorem applyMemory_callMarks (s : State) (f : Fx) : (s.applyMemory f).callMarks = s.callMarks := by
  have h (u : State) : (f.az.foldl State.applyAz u).callMarks = u.callMarks := by
    simp [State.callMarks, applyAzs_bdry]
  unfold State.applyMemory
  rw [h]
  split
  · simp [State.callMarks, applyStores_bdry]
  · rw [writeMmr_callMarks]
    simp [State.callMarks, applyStores_bdry]

@[simp] theorem applyFx_callMarks (s : State) (f : Fx) : (s.applyFx f).callMarks = s.callMarks := by
  simp only [State.applyFx, applyMemory_callMarks, applyRegs_callMarks]
  simp [State.callMarks]

@[simp] theorem applyDual_callMarks (s : State) (f g : Fx) : (s.applyDual f g).callMarks = s.callMarks := by
  simp only [State.applyDual, applyMemory_callMarks, applyRegs_callMarks]
  simp [State.callMarks]

/-- A CALL that was taken is a branch that was taken, and no loop is watched. -/
def CallsTaken (s : State) : Prop := (s.bdry.called = true → s.bdry.taken = true) ∧ ∀ e ∈ s.seq.loopStk, e.call = .none

theorem callsTaken_iff (s : State) : CallsTaken s ↔
    (s.callMarks.1 = true → s.callMarks.2.1 = true) ∧ ∀ c ∈ s.callMarks.2.2, c = .none := by
  simp [CallsTaken, State.callMarks]

theorem CallsTaken.congr {s t : State} (hs : CallsTaken s) (h : t.callMarks = s.callMarks) : CallsTaken t := by
  rw [callsTaken_iff, h]
  exact (callsTaken_iff s).mp hs

@[simp] theorem runPe_bdry (s : State) (cx cy : Bool) (busy : List UReg) (f : Bool → PeOut) :
    (s.runPe cx cy busy f).bdry = s.bdry := by
  unfold State.runPe
  dsimp only
  (repeat' split) <;> simp [applyPe_bdry]

@[simp] theorem applyConvert_bdry (s : State) (src dst : RegNo) (toByte breg go : Bool) :
    (s.applyConvert src dst toByte breg go).bdry = s.bdry := by
  unfold State.applyConvert
  (repeat' split) <;> simp

@[simp] theorem pushPc_loopStk (s : State) (w : Word) : (s.pushPc w).seq.loopStk = s.seq.loopStk := by
  unfold State.pushPc
  simp only [State.raiseIf_seq]
  split <;> rfl

@[simp] theorem pushPc_callMarks (s : State) (w : Word) : (s.pushPc w).callMarks = s.callMarks := by
  unfold State.pushPc
  simp only [State.callMarks, State.raiseIf_bdry, State.raiseIf_seq]
  split <;> rfl

@[simp] theorem pushSts_callMarks (s : State) : s.pushSts.callMarks = s.callMarks := by
  unfold State.pushSts
  dsimp only
  split <;> rfl

@[simp] theorem goto_callMarks (s : State) (a : IAddr) (db : Bool) (sort : BranchSort) :
    (s.goto a db sort).callMarks = (s.bdry.called, true, s.seq.loopStk.map (·.call)) := by
  rw [goto_eq]; rfl

@[simp] theorem atBranch_callMarks (s : State) (db : Bool) : (s.atBranch db).callMarks = s.callMarks := by
  rw [atBranch_eq]; rfl

theorem pushLoop_callsTaken {s : State} (h : CallsTaken s) (w : Word) (r : Restored) : CallsTaken (s.pushLoop w r) := by
  obtain ⟨hc, hl⟩ := h
  unfold State.pushLoop
  split
  · exact ⟨hc, hl⟩
  · rename_i hs _
    exact ⟨hc, by simp_all⟩
  · exact ⟨hc, by simpa using hl⟩

theorem dropLoop_callsTaken {s : State} (h : CallsTaken s) : CallsTaken { s with seq := s.seq.dropLoop } := by
  obtain ⟨hc, hl⟩ := h
  unfold Seq.dropLoop
  split
  · exact ⟨hc, hl⟩
  · exact ⟨hc, by simp_all⟩

theorem update_callsTaken (s t : State) (hu : Update s t) (h : CallsTaken s) : CallsTaken t := by
  cases hu with
  | move | dual | sysReg | pushPc | pushSts | branch => exact h.congr (by simp)
  | compute | convert | dreg | index | lcntr | flush => exact h.congr (by simp [State.callMarks])
  | btf | service | brkstat | idle | sync | cacheOp => exact h.congr rfl
  | marks b hc ht => exact ⟨by rw [hc, ht]; exact h.1, h.2⟩
  | goto a db sort => exact (callsTaken_iff _).mpr (by simpa using fun e he => h.2 e he)
  | call w a db => exact (callsTaken_iff _).mpr (by simpa using fun e he => h.2 e he)
  | pushLoop w r => exact pushLoop_callsTaken h w r
  | popPc hp =>
    obtain ⟨-, rfl⟩ := popPc_ok hp
    exact h.congr (by unfold Seq.dropPc; split <;> rfl)
  | popLoop hp =>
    obtain ⟨-, rfl⟩ := popLoop_ok hp
    exact dropLoop_callsTaken h
  | popSts hp =>
    obtain ⟨e, rest, -, rfl⟩ := popSts_ok hp
    exact h.congr (by simp only [writeSys_callMarks]; rfl)

/-- An instruction that takes no branch takes no CALL, and starts no loop that is watched. -/
theorem exec_callsTaken {i : Instr} {s t : State} (he : exec i s = .next t) (h : CallsTaken s) : CallsTaken t :=
  (exec_updates he).keeps update_callsTaken h

/-! ### What the end of a step leaves alone -/

@[simp] theorem passTimer_data (s0 s : State) (c : Nat) : (s0.passTimer s c).data = s.data := by
  unfold State.passTimer; split <;> simp

@[simp] theorem passTimer_dag (s0 s : State) (c : Nat) : (s0.passTimer s c).dag = s.dag := by
  unfold State.passTimer; split <;> simp

@[simp] theorem passTimer_mmr (s0 s : State) (c : Nat) : (s0.passTimer s c).mmr = s.mmr := by
  unfold State.passTimer; split <;> simp

@[simp] theorem passTimer_posted (s0 s : State) (c : Nat) : (s0.passTimer s c).posted = s.posted := by
  unfold State.passTimer; split <;> simp

@[simp] theorem passTimer_mem (s0 s : State) (c : Nat) : (s0.passTimer s c).mem = s.mem := by
  unfold State.passTimer; split <;> simp

theorem passTimer_bus (s0 s : State) (c : Nat) :
    (s0.passTimer s c).bus = s.bus ∨ (s0.passTimer s c).bus = .timerExpired :: s.bus := by
  unfold State.passTimer
  split
  · exact .inl rfl
  · dsimp only
    simp only [State.raiseIf_bus]
    split
    · exact .inr rfl
    · exact .inl rfl

@[simp] theorem passTime_data (s0 s : State) : (s0.passTime s).data = s.data := by
  unfold State.passTime; dsimp only; split <;> simp

@[simp] theorem passTime_dag (s0 s : State) : (s0.passTime s).dag = s.dag := by
  unfold State.passTime; dsimp only; split <;> simp

@[simp] theorem passTime_mmr (s0 s : State) : (s0.passTime s).mmr = s.mmr := by
  unfold State.passTime; dsimp only; split <;> simp

@[simp] theorem passTime_posted (s0 s : State) : (s0.passTime s).posted = s.posted := by
  unfold State.passTime; dsimp only; split <;> simp

@[simp] theorem passTime_read (s0 s : State) (p : Nat) : (s0.passTime s).mem.read p = s.mem.read p := by
  unfold State.passTime; dsimp only; split <;> simp

theorem passTime_bus (s0 s : State) : (s0.passTime s).bus = s.bus ∨ (s0.passTime s).bus = .timerExpired :: s.bus := by
  unfold State.passTime
  dsimp only
  split
  · exact .inl rfl
  · exact passTimer_bus _ _ _

@[simp] theorem closeStep_data (s0 s : State) : (s0.closeStep s).data = s.data := by simp [State.closeStep]

@[simp] theorem closeStep_dag (s0 s : State) : (s0.closeStep s).dag = s.dag := by simp [State.closeStep]

@[simp] theorem closeStep_mmr (s0 s : State) : (s0.closeStep s).mmr = s.mmr := by simp [State.closeStep]

@[simp] theorem closeStep_posted (s0 s : State) : (s0.closeStep s).posted = s.posted := by simp [State.closeStep]

@[simp] theorem closeStep_read (s0 s : State) (p : Nat) : (s0.closeStep s).mem.read p = s.mem.read p := by
  simp [State.closeStep]

theorem closeStep_bus (s0 s : State) : (s0.closeStep s).bus = s.bus ∨ (s0.closeStep s).bus = .timerExpired :: s.bus := by
  have h := passTime_bus s0 s
  simpa [State.closeStep] using h

@[simp] theorem breakpoints_data (s0 s : State) : (s0.breakpoints s).data = s.data := by
  unfold State.breakpoints; dsimp only; (repeat' split) <;> simp

@[simp] theorem breakpoints_dag (s0 s : State) : (s0.breakpoints s).dag = s.dag := by
  unfold State.breakpoints; dsimp only; (repeat' split) <;> simp

@[simp] theorem breakpoints_mem (s0 s : State) : (s0.breakpoints s).mem = s.mem := by
  unfold State.breakpoints; dsimp only; (repeat' split) <;> simp

@[simp] theorem breakpoints_bus (s0 s : State) : (s0.breakpoints s).bus = s.bus := by
  unfold State.breakpoints; dsimp only; (repeat' split) <;> simp

/-! ### The boundary -/

/-- The state after the instruction executed from `s0`, whose loop work left `u`: pending writes of PCSTKP, delay slots,
latencies, calls, breakpoints and time. -/
def State.finished (s0 u : State) (len : Nat) : State :=
  let v := (u.settlePcstkp u.seq.pcStkpDue).loseLoops
  let q := v.seq.passSlots
  let full := decide (fullLen s0.seq.pc ≤ len)
  s0.closeStep (s0.breakpoints (s0.passCalls (s0.passLatencies { v with
    seq := { q with
      pc := q.npc, pcStkpDue := none, noIrq := q.noIrq - 1, vectorDue := false, srst := q.srst - 1
      btbHold := windowLeft q.btbHold full, cacheHold := windowLeft q.cacheHold full }
    cache := { v.cache with near := windowLeft v.cache.near full }
    mem := if v.seq.redirects v.bdry.taken then v.mem.refetch else v.mem })))

theorem finish_reset {s0 s u : State} {len : Nat} (hr : s.bdry.refused = none) (hc : s0.closeLoop s len = .ok u)
    (h : s0.seq.srst = 1) : s0.finish s len = .ok u.coreReset := by
  simp [State.finish, hr, hc, h]

theorem finish_next {s0 s u : State} {len : Nat} (hr : s.bdry.refused = none) (hc : s0.closeLoop s len = .ok u)
    (h : s0.seq.srst ≠ 1) (hb : u.seq.redirects u.bdry.taken = false ∨ u.seq.btbHold = 0) :
    s0.finish s len = .ok (s0.finished u len) := by
  have h2 : ¬ (u.seq.redirects u.bdry.taken && decide (u.seq.btbHold ≠ 0)) = true := by
    rcases hb with hb | hb <;> simp [hb]
  unfold State.finish State.finished
  rw [hr, hc]
  simp only [h, h2, if_false, Bool.false_eq_true]

/-- Outside a loop there is no loop work. -/
theorem closeLoop_outside {s0 : State} (s : State) (len : Nat) (h : s0.seq.loopStk = []) : s0.closeLoop s len = .ok s := by
  simp [State.closeLoop, State.compressedAtEnd, State.atLoopEnd, h]

@[simp] theorem loseLoops_data (s : State) : s.loseLoops.data = s.data := by unfold State.loseLoops; split <;> rfl

@[simp] theorem loseLoops_dag (s : State) : s.loseLoops.dag = s.dag := by unfold State.loseLoops; split <;> rfl

@[simp] theorem loseLoops_mem (s : State) : s.loseLoops.mem = s.mem := by unfold State.loseLoops; split <;> rfl

@[simp] theorem loseLoops_bus (s : State) : s.loseLoops.bus = s.bus := by unfold State.loseLoops; split <;> rfl

@[simp] theorem finished_data (s0 u : State) (len : Nat) : (s0.finished u len).data = u.data := by
  simp [State.finished, State.passCalls, State.passLatencies]

@[simp] theorem finished_dag (s0 u : State) (len : Nat) : (s0.finished u len).dag = u.dag := by
  simp [State.finished, State.passCalls, State.passLatencies]

theorem finished_sameBytes (s0 u : State) (len : Nat) : SameBytes u (s0.finished u len) := by
  intro p
  simp only [State.finished, closeStep_read, breakpoints_mem, State.passCalls, State.passLatencies]
  split <;> simp

theorem finished_bus (s0 u : State) (len : Nat) :
    (s0.finished u len).bus = u.bus ∨ (s0.finished u len).bus = .timerExpired :: u.bus := by
  unfold State.finished
  dsimp only
  refine (closeStep_bus s0 _).imp (fun h => h.trans ?_) (fun h => h.trans ?_) <;>
    simp [State.passCalls, State.passLatencies]

/-- With no loop, or with no CALL taken and no loop watched, the watch does nothing. -/
theorem passCalls_unwatched {s0 s : State} (hc : s.bdry.called = false ∨ s.seq.loopStk = [])
    (h : ∀ e ∈ s.seq.loopStk, e.call = .none) : s0.passCalls s = s := by
  rcases hc with hc | hl
  · exact passCalls_idle hc h
  · have hn : (if s.bdry.called then markCalls s0.seq.pcstkp (fun e => !s0.loopCond (loopTerm e.laddr)) false s.seq.loopStk
        else s.seq.loopStk) = s.seq.loopStk := by
      split <;> simp [hl, markCalls]
    have hm : s.seq.loopStk.map s.watchCall = s.seq.loopStk := by simp [hl]
    simp only [State.passCalls, hn, hm]

/-- The sequencer after an instruction that restricted no loop, where no write of PCSTKP is due and no loop is watched. -/
theorem finished_seq {s0 u : State} {len : Nat} (hd : u.seq.pcStkpDue = none) (hl : u.bdry.loopFree = false)
    (hc : u.bdry.called = false ∨ u.seq.loopStk = []) (hw : ∀ e ∈ u.seq.loopStk, e.call = .none) :
    (s0.finished u len).seq = { u.seq.passSlots with
      pc := u.seq.passSlots.npc, pcStkpDue := none, noIrq := u.seq.passSlots.noIrq - 1, vectorDue := false
      srst := u.seq.passSlots.srst - 1, btbHold := windowLeft u.seq.passSlots.btbHold (decide (fullLen s0.seq.pc ≤ len))
      cacheHold := windowLeft u.seq.passSlots.cacheHold (decide (fullLen s0.seq.pc ≤ len)) } := by
  have hloops : u.seq.passSlots.loopStk = u.seq.loopStk := by
    unfold Seq.passSlots
    dsimp only
    (repeat' split) <;> rfl
  have hu : (u.settlePcstkp u.seq.pcStkpDue).loseLoops = u := by simp [hd, State.settlePcstkp, State.loseLoops, hl]
  simp only [State.finished, hu, closeStep_seq, breakpoints_seq]
  rw [passCalls_unwatched]
  · rfl
  · simpa [State.passLatencies, hloops] using hc
  · simpa [State.passLatencies, hloops] using hw

/-- One step outside loops: the instruction, then its boundary. -/
theorem step_outside {s t : State} {f : Fetched} {i : Instr} (ha : s.accept = none) (hi : s.seq.idle = false)
    (hf : s.fetch s.seq.pc = some f) (hs : s.fetchStop = none) (hd : f.decode = .ok i) (hl : s.seq.loopStk = [])
    (he : exec i (s.begin f.len) = .next t) (hr : t.bdry.refused = none) :
    let u := (s.begin f.len).afterFetch t f.bytes
    (s.seq.srst = 1 → step s = .next u.coreReset) ∧
    (s.seq.srst ≠ 1 → t.seq.redirects t.bdry.taken = false ∨ t.seq.btbHold = 0 →
      step s = .next ((s.begin f.len).finished u f.len)) := by
  intro u
  obtain ⟨-, -, hseq, hbdry, -⟩ := afterFetch_keeps (s.begin f.len) t f.bytes
  have hstep : step s = ((s.begin f.len).finish u f.len).outcome := by
    rw [step_run ha hi]
    exact (runInstr_fetched hf hs).1 t (by rw [execute_decoded hd, he])
  have hloop : (s.begin f.len).closeLoop u f.len = .ok u :=
    closeLoop_outside u _ (by simp [begin_seq_noLoop _ hl, hl])
  have hr' : u.bdry.refused = none := by rw [hbdry, hr]
  rw [hstep]
  refine ⟨fun h => ?_, fun h hb => ?_⟩
  · rw [finish_reset hr' hloop (by simpa using h)]
    rfl
  · rw [finish_next hr' hloop (by simpa using h) (by rw [hseq, hbdry]; exact hb)]
    rfl

/-- At the start of an instruction outside loops nothing is watched and no branch taken. -/
theorem begin_callsTaken {s : State} (len : Nat) (h : s.seq.loopStk = []) : CallsTaken (s.begin len) := by
  constructor
  · unfold State.begin
    simp only [State.loopCheck_bdry]
    intro hc
    exact absurd hc (by decide)
  · simp [begin_seq_noLoop len h, h]

/-- Settles O58. -/
theorem stepAdvances : Obligations.StepAdvances := by
  refine ⟨?_, ?_⟩
  · intro s t f i ha hi hsr hf hs hd hl hb hp he htk hr hlf hti htb hnpc hdue
    obtain ⟨hdata, hdag, hseq, hbdry, hmem, -, hbus, -⟩ := afterFetch_keeps (s.begin f.len) t f.bytes
    have hstep := (step_outside ha hi hf hs hd hl he hr).2 hsr (.inl (by simp [Seq.redirects, htb, htk]))
    obtain ⟨hcall, hwatch⟩ := exec_callsTaken he (begin_callsTaken f.len hl)
    have hq := finished_seq (s0 := s.begin f.len) (u := (s.begin f.len).afterFetch t f.bytes) (len := f.len)
      (by rw [hseq, hdue]) (by rw [hbdry, hlf]) (.inl (by rw [hbdry]; by_contra hc; simp_all)) (by rw [hseq]; exact hwatch)
    have hslots : t.seq.passSlots = t.seq := by simp [Seq.passSlots, hti, htb]
    rw [hseq, hslots] at hq
    refine ⟨_, hstep, ?_, ?_, ?_, ?_, ?_, ?_, fun p => ?_, ?_⟩
    · simp [hq, hnpc]
    · rw [hq]
    · rw [hq]
    · rw [hq]
    · rw [finished_data, hdata]
    · rw [finished_dag, hdag]
    · rw [finished_sameBytes, hmem]
    · rw [← hbus]
      exact finished_bus _ _ _
  · intro s t f i b ha hi hsr hf hs hd hl hb hp hbtb he ht hr hlf
    obtain ⟨-, -, hseq, hbdry, -⟩ := afterFetch_keeps (s.begin f.len) t f.bytes
    have hbq := begin_seq_noLoop f.len hl
    have hstep := (step_outside ha hi hf hs hd hl he hr).2 hsr (.inr (by simp [ht, hbq, hbtb]))
    have hq := finished_seq (s0 := s.begin f.len) (u := (s.begin f.len).afterFetch t f.bytes) (len := f.len)
      (by simp [ht, hbq, hp]) (by rw [hbdry, hlf]) (.inr (by simp [ht, hbq, hl])) (by simp [ht, hbq, hl])
    rw [hseq, ht, hbq] at hq
    refine ⟨_, hstep, ?_⟩
    rw [hq]
    by_cases hslots : b.slots ≤ 1 <;> simp [Seq.passSlots, hi, hb, hslots]

/-- Settles O52. -/
theorem resetValues : Obligations.ResetValues := by
  refine ⟨by decide, ?_⟩
  intro s u f i ha hi hsr hf hs hd hl he hr
  obtain ⟨-, -, -, -, hmem, -, -, -, -, hpins⟩ := afterFetch_keeps (s.begin f.len) u f.bytes
  refine ⟨_, (step_outside ha hi hf hs hd hl he hr).1 hsr, rfl, rfl, rfl, ?_, rfl, rfl, rfl, rfl, fun p => ?_⟩
  · simp [State.coreReset, hpins]
  · exact hmem p

end Sys2Proof.Machine
end

section
/-! PROOFS. Pushes, latches and the entry of interrupts (R63 to R74, R1035 to R1055). -/

namespace Sys2Proof.Machine

open Sys2Proof

/-! ### Pushes -/

theorem pushPc_seq (s : State) (w : Word) : (s.pushPc w).seq = s.seq.pushed w := by
  unfold State.pushPc Seq.pushed
  simp only [State.raiseIf_seq]

/-- A push of the PC stack latches SOVFI where it leaves 29 or more entries, an overflowed stack among them. -/
theorem pushPc_sys (s : State) (w : Word) : (s.pushPc w).sys = s.sys.almostFull s.seq := by
  unfold State.pushPc Sys.almostFull State.raiseIf State.raise
  by_cases ho : s.seq.pcOv = true <;> by_cases h28 : 28 ≤ s.seq.pcStk.length <;> by_cases h30 : 30 ≤ s.seq.pcStk.length <;>
    simp [Seq.pcstkp, ho, h28, h30, Irq.num]
  omega

theorem pushPc_eq (s : State) (w : Word) : s.pushPc w = { s with seq := s.seq.pushed w, sys := s.sys.almostFull s.seq } := by
  rw [← pushPc_seq s w, ← pushPc_sys s w]
  unfold State.pushPc State.raiseIf
  dsimp only
  (repeat' split) <;> rfl

/-- A push of a full status stack overflows it; its top entry is open. -/
theorem pushSts_full {s : State} (h : 15 ≤ s.seq.stsStk.length) : ∃ e, s.pushSts = { s with
    sys := { s.sys with mode1 := s.sys.mode1 &&& ~~~s.sys.mmask, irptl := s.sys.irptl ||| 0x80#32 }
    seq := { s.seq with stsOv := true, stsStk := e :: s.seq.stsStk.tail } } := by
  refine ⟨⟨s.freeWord 19, s.freeWord 20, s.freeWord 21⟩, ?_⟩
  simp [State.pushSts, h, State.raise, Irq.num]

/-! ### Latches -/

theorem oneShift_getLsbD (k j : Nat) (hj : j < 32) : (1#32 <<< k).getLsbD j = decide (j = k) := by
  by_cases h : j = k
  · simp [h, h ▸ hj]
  · simp [h, hj]
    omega

/-- A raise sets its own latch bit and no other. -/
theorem raiseIf_latched (s : State) (b : Bool) (k : Irq) (j : Nat) (hj : j < 32) :
    (s.raiseIf b k).sys.irptl.getLsbD j = (s.sys.irptl.getLsbD j || (b && decide (j = k.num))) := by
  unfold State.raiseIf State.raise
  cases b
  · simp
  · simp [oneShift_getLsbD _ _ hj]

/-- What a raise leaves alone in the system registers: all but IRPTL. -/
theorem raiseIf_sys (s : State) (b : Bool) (k : Irq) : (s.raiseIf b k).sys = { s.sys with irptl := (s.raiseIf b k).sys.irptl } := by
  unfold State.raiseIf; split <;> rfl

/-- What the passing of time touches in the system registers: the timer, the clock counters and the latches. -/
theorem passTime_sys (s0 s : State) : (s0.passTime s).sys = { s.sys with
    timer := (s0.passTime s).sys.timer, tcount := (s0.passTime s).sys.tcount, emuclk := (s0.passTime s).sys.emuclk
    emuclk2 := (s0.passTime s).sys.emuclk2, irptl := (s0.passTime s).sys.irptl } := by
  unfold State.passTime State.passTimer Sys.passClock
  dsimp only
  split
  · rfl
  · split
    · rfl
    · rw [raiseIf_sys, raiseIf_sys]

/-- Time latches no interrupt but the two of the timer. -/
theorem passTime_latched (s0 s : State) (j : Nat) (hj : j < 32) (h11 : j ≠ 11) (h22 : j ≠ 22) :
    (s0.passTime s).sys.irptl.getLsbD j = s.sys.irptl.getLsbD j := by
  unfold State.passTime State.passTimer
  dsimp only
  split
  · rfl
  · split
    · rfl
    · simp [raiseIf_latched _ _ _ _ hj, Irq.num, h11, h22, Sys.passClock]

/-- The latch that the sticky bits of both elements hold on interrupt `j` (R1038). -/
def Sys.levels (y : Sys) (j : Nat) : Bool :=
  let w := y.stkyx ||| y.stkyy
  ((w.getLsbD 2 || w.getLsbD 6) && decide (j = 23)) || ((w.getLsbD 1 || w.getLsbD 7) && decide (j = 24)) ||
    ((w.getLsbD 0 || w.getLsbD 8) && decide (j = 25)) || ((w.getLsbD 5 || w.getLsbD 9) && decide (j = 26))

theorem arithLevels_latched (s : State) (j : Nat) (hj : j < 32) :
    s.arithLevels.sys.irptl.getLsbD j = (s.sys.irptl.getLsbD j || s.sys.levels j) := by
  unfold State.arithLevels
  simp only [raiseIf_latched _ _ _ _ hj, Sys.levels, Irq.num, Bool.or_assoc]
  rfl

theorem arithLevels_sys (s : State) : s.arithLevels.sys = { s.sys with irptl := s.arithLevels.sys.irptl } := by
  unfold State.arithLevels
  rw [raiseIf_sys, raiseIf_sys, raiseIf_sys, raiseIf_sys]

/-- The end of a step keeps, of the system registers, all but the timer, the clock, the latches and what it notes of the last
boundary. -/
theorem closeStep_sys (s0 s : State) : ∃ tm tc c c2 w p, (s0.closeStep s).sys = { s.sys with
    timer := tm, tcount := tc, emuclk := c, emuclk2 := c2, irptl := w, parity := p
    irptlSeen := s0.sys.irptl, imaskWas := s0.sys.imask, mode2Was := s0.sys.mode2
    astatxWas := s0.sys.astatx, astatyWas := s0.sys.astaty } := by
  unfold State.closeStep
  dsimp only
  rw [arithLevels_sys, passTime_sys]
  exact ⟨_, _, _, _, _, _, rfl⟩

/-- At the end of a step the latches of the interrupts in service are cleared, but SECI's while it self-nests. -/
theorem closeStep_irptl (s0 s : State) (j : Nat) (hj : j < 32) : (s0.closeStep s).sys.irptl.getLsbD j =
    ((s0.passTime s).arithLevels.sys.irptl.getLsbD j &&
      !(s.sys.imaskp.getLsbD j && !(s.sys.mode2.getLsbD 0 && decide (j = 15)))) := by
  have hs : (s0.closeStep s).sys.irptl = ((s0.passTime s).arithLevels.sys.forceClear).irptl := rfl
  have hm : (s0.passTime s).sys.mode2 = s.sys.mode2 ∧ (s0.passTime s).sys.imaskp = s.sys.imaskp := by
    rw [passTime_sys]
    exact ⟨rfl, rfl⟩
  have hmask : (~~~(1#32 <<< 15)).getLsbD j = !decide (j = 15) := by
    rw [BitVec.getLsbD_not, oneShift_getLsbD _ _ hj]
    simp [hj]
  rw [hs]
  unfold Sys.forceClear
  rw [arithLevels_sys]
  simp only [hm]
  rw [BitVec.getLsbD_and, BitVec.getLsbD_not]
  cases s.sys.mode2.getLsbD 0
  · simp [hj]
  · rw [if_pos rfl, BitVec.getLsbD_and, hmask]
    simp [hj]

/-- The latches after a step: those there, the timer's and the arithmetic ones, without those of interrupts in service but SECI
while it self-nests. -/
theorem closeStep_latched (s0 s : State) (j : Nat) (hj : j < 32) (h11 : j ≠ 11) (h22 : j ≠ 22) :
    (s0.closeStep s).sys.irptl.getLsbD j = ((s.sys.irptl.getLsbD j || s.sys.levels j) &&
      !(s.sys.imaskp.getLsbD j && !(s.sys.mode2.getLsbD 0 && decide (j = 15)))) := by
  have hl : (s0.passTime s).sys.levels j = s.sys.levels j := by
    rw [passTime_sys]
    rfl
  rw [closeStep_irptl _ _ _ hj, arithLevels_latched _ _ hj, passTime_latched _ _ _ hj h11 h22, hl]

/-! ### Acceptance -/

theorem lowestBit_eq_some {w : Word} {k : Nat} : lowestBit w = some k ↔ Lowest w k := by
  unfold lowestBit Lowest
  rw [List.find?_range_eq_some]
  constructor
  · rintro ⟨hk, -, hj⟩
    exact ⟨hk, fun j h => by simpa using hj j h⟩
  · rintro ⟨hk, hj⟩
    exact ⟨hk, by simpa using BitVec.lt_of_getLsbD hk, fun j h => by simpa using hj j h⟩

theorem lowestBit_zero : lowestBit 0#32 = none := by decide

/-- An interrupt in service, `p` the lowest, masks all but those that nesting lets through (R1046). -/
theorem tmask_false_iff {y : Sys} {nestm snen : Bool} {k p : Nat} (hp : Lowest y.imaskp p) :
    y.tmask nestm snen k = false ↔ nestm = true ∧ if snen = true ∧ p = 15 then k ≤ 15 else k < p := by
  unfold Sys.tmask
  rw [lowestBit_eq_some.mpr hp]
  cases nestm <;> cases snen <;> by_cases h15 : p = 15 <;> simp [h15]

/-- The accepted interrupt is the lowest-numbered of those latched for a boundary, enabled and let through. -/
theorem accepted_eq_some {y : Sys} {m : Masks} {k : Nat} : y.accepted m = some k ↔
    m.irpten = true ∧ (y.irptl.getLsbD k = true ∧ y.irptlSeen.getLsbD k = true ∧ m.imask.getLsbD k = true ∧
      y.tmask m.nestm m.snen k = false) ∧
    ∀ j, j < k → y.irptl.getLsbD j = true → y.irptlSeen.getLsbD j = true → m.imask.getLsbD j = true →
      y.tmask m.nestm m.snen j = true := by
  have hfind : ((List.range 32).find? fun k => (y.irptl &&& y.irptlSeen).getLsbD k && m.imask.getLsbD k &&
      !y.tmask m.nestm m.snen k) = some k ↔ (y.irptl.getLsbD k = true ∧ y.irptlSeen.getLsbD k = true ∧
      m.imask.getLsbD k = true ∧ y.tmask m.nestm m.snen k = false) ∧ ∀ j, j < k → y.irptl.getLsbD j = true →
      y.irptlSeen.getLsbD j = true → m.imask.getLsbD j = true → y.tmask m.nestm m.snen j = true := by
    rw [List.find?_range_eq_some]
    simp only [BitVec.getLsbD_and, Bool.and_eq_true, Bool.not_eq_eq_eq_not, Bool.and_eq_false_imp, List.mem_range,
      Bool.not_true, Bool.not_false]
    constructor
    · rintro ⟨⟨⟨⟨h1, h2⟩, h3⟩, h4⟩, -, h5⟩
      exact ⟨⟨h1, h2, h3, h4⟩, fun j hj a b c => h5 j hj ⟨⟨a, b⟩, c⟩⟩
    · rintro ⟨⟨h1, h2, h3, h4⟩, h5⟩
      exact ⟨⟨⟨⟨h1, h2⟩, h3⟩, h4⟩, BitVec.lt_of_getLsbD h1, fun j hj a => h5 j hj a.1.1 a.1.2 a.2⟩
  unfold Sys.accepted
  dsimp only
  constructor
  · intro h
    split at h
    · rename_i hw
      exact ⟨hw.2, hfind.mp h⟩
    · cases h
  · rintro ⟨hi, h⟩
    have hne : y.irptl &&& y.irptlSeen ≠ 0#32 := by
      intro hz
      have hbit : (y.irptl &&& y.irptlSeen).getLsbD k = true := by rw [BitVec.getLsbD_and, h.1.1, h.1.2.1]; rfl
      rw [hz] at hbit
      simp at hbit
    rw [if_pos ⟨hne, hi⟩]
    exact hfind.mpr h

theorem interruptible_iff (q : Seq) : q.interruptible = true ↔ q.branches = [] ∧ q.noIrq = 0 ∧ q.vectorDue = false := by
  simp [Seq.interruptible, and_assoc]

/-- An interrupt is accepted where one can be, that of a parity error possibly elsewhere too (R1051, R1081). -/
theorem accept_some {s : State} {k : Nat} (h : s.accept = some k) :
    s.sys.accepted s.masks = some k ∧ (s.seq.interruptible = true ∨ (s.sys.parity = true ∧ k = 3)) := by
  unfold State.accept at h
  dsimp only at h
  split at h
  · rename_i hi
    exact ⟨h, .inl hi⟩
  · split at h
    · rename_i hp
      simp only [Bool.and_eq_true, beq_iff_eq] at hp
      exact ⟨h, .inr ⟨hp.1.1, by rw [h] at hp; simpa using hp.1.2⟩⟩
    · cases h

theorem either_cases {α : Type} [DecidableEq α] (s : State) (k : Nat) (now was : α) :
    s.either k now was = now ∨ s.either k now was = was := by
  unfold State.either
  split
  · exact .inl rfl
  · split
    · exact .inr rfl
    · exact .inl rfl

/-- What the boundary goes by are the masks as they are or as they were. -/
theorem masks_cases (s : State) :
    (s.masks.imask = s.sys.imask ∨ s.masks.imask = s.sys.imaskWas) ∧
    (s.masks.irpten = s.sys.mode1.getLsbD 12 ∨ s.masks.irpten = s.sys.mode1Act.getLsbD 12) ∧
    (s.masks.nestm = s.sys.mode1.getLsbD 11 ∨ s.masks.nestm = s.sys.mode1Act.getLsbD 11) ∧
    (s.masks.snen = s.sys.mode2.getLsbD 0 ∨ s.masks.snen = s.sys.mode2Was.getLsbD 0) :=
  ⟨either_cases .., either_cases .., either_cases .., either_cases ..⟩

/-! ### Entry -/

theorem takeInterrupt_eq {s t : State} {k : Nat} (h : s.enter k = .ok t) :
    let u := s.closeStep { t with mmr := { t.mmr with imdwAct := t.mmr.sysctl.extractLsb' 9 4 }, bdry := State.reset.bdry }
    s.takeInterrupt k = .ok { u with sys := { u.sys with imaskWas := u.sys.imask, mode2Was := u.sys.mode2 } } := by
  simp [State.takeInterrupt, h]

theorem step_interrupt {s t : State} {k : Nat} (ha : s.accept = some k) (h : s.takeInterrupt k = .ok t) : step s = .next t := by
  simp [step, ha, h, Res.outcome]

/-- The marks of a saved address. -/
theorem pcEntry_int (a : IAddr) : pcEntry a true = a.setWidth 32 ||| 0x3000000#32 := by
  unfold pcEntry
  rw [BitVec.or_assoc]
  rfl

/-- The pushes of an interrupt's entry: of the PC stack, and of the status stack with MODE1 cleared through MMASK. -/
theorem pushBoth (s : State) (w : Word) : ∃ stk ov,
    (s.pushPc w).pushSts = { s with
      seq := { s.seq.pushed w with stsStk := stk, stsOv := ov }
      sys := { s.sys with
        mode1 := s.sys.mode1 &&& ~~~s.sys.mmask
        irptl := (s.sys.almostFull s.seq).irptl ||| (if 15 ≤ s.seq.stsStk.length then 0x80#32 else 0#32) } } ∧
    (s.seq.stsStk.length < 15 → ov = s.seq.stsOv ∧
      stk = { mode1 := s.sys.mode1, astatx := s.astatx, astaty := s.sys.astaty } :: s.seq.stsStk) ∧
    (15 ≤ s.seq.stsStk.length → ov = true ∧ ∃ e, stk = e :: s.seq.stsStk.tail) := by
  have hs : (s.seq.pushed w).stsStk = s.seq.stsStk := by unfold Seq.pushed; split <;> rfl
  have ho : (s.seq.pushed w).stsOv = s.seq.stsOv := by unfold Seq.pushed; split <;> rfl
  rw [pushPc_eq]
  by_cases h : 15 ≤ s.seq.stsStk.length
  · obtain ⟨e, he⟩ := pushSts_full (s := { s with seq := s.seq.pushed w, sys := s.sys.almostFull s.seq }) (by rwa [hs])
    rw [he, if_pos h]
    exact ⟨_, _, rfl, fun hn => by omega, fun _ => ⟨rfl, e, by rw [hs]⟩⟩
  · rw [pushSts_room (s := { s with seq := s.seq.pushed w, sys := s.sys.almostFull s.seq }) (by rw [hs]; omega), if_neg h,
      BitVec.or_zero]
    exact ⟨_, _, rfl, fun _ => ⟨ho, by rw [hs]; rfl⟩, fun hn => absurd hn h⟩

/-- A push that leaves the PC stack nearly full, and one that overflows the status stack, latches SOVFI. -/
theorem pushBoth_sovfi (s : State) (h : s.seq.pcOv = true ∨ 28 ≤ s.seq.pcStk.length ∨ 15 ≤ s.seq.stsStk.length) :
    ((s.sys.almostFull s.seq).irptl ||| (if 15 ≤ s.seq.stsStk.length then 0x80#32 else 0#32)).getLsbD 7 = true := by
  rw [BitVec.getLsbD_or]
  rcases h with h | h | h <;> simp [Sys.almostFull, h]

/-- What the entry of interrupt `k` leaves, with the saved address `ret` (R1047). -/
structure Entered (s : State) (k : Nat) (base ret : IAddr) (t : State) : Prop where
  pc : t.seq.pc = base + BitVec.ofNat 24 (4 * k)
  ret_eq : s.sys.parity = false ∨ k ≠ 3 → ret = s.seq.pc
  pcStk : t.seq.pcStk = (s.seq.pushed (ret.setWidth 32 ||| 0x3000000#32)).pcStk
  pcOv : t.seq.pcOv = (s.seq.pushed (ret.setWidth 32 ||| 0x3000000#32)).pcOv
  room : s.seq.stsStk.length < 15 → t.seq.stsOv = s.seq.stsOv ∧
    t.seq.stsStk = { mode1 := s.sys.mode1, astatx := s.astatx, astaty := s.sys.astaty } :: s.seq.stsStk
  full : 15 ≤ s.seq.stsStk.length → t.seq.stsOv = true ∧ ∃ e, t.seq.stsStk = e :: s.seq.stsStk.tail
  mode1 : t.sys.mode1 = (s.sys.mode1 &&& ~~~s.sys.mmask) |||
    (if k = 15 ∧ s.sys.mode2.getLsbD 0 = true then 0x40000000#32 else 0#32)
  mode1Act : t.sys.mode1Act = t.sys.mode1
  mode2 : t.sys.mode2 = s.sys.mode2
  imaskp : t.sys.imaskp = s.sys.imaskp ||| (1#32 <<< k)
  irptl : t.sys.irptl = ((s.sys.almostFull s.seq).irptl ||| (if 15 ≤ s.seq.stsStk.length then 0x80#32 else 0#32)) &&&
    ~~~(1#32 <<< k)
  idle : t.seq.idle = false
  branches : t.seq.branches = []
  loopStk : t.seq.loopStk = s.seq.loopStk
  astat : t.sys.astatx = s.sys.astatx ∧ t.sys.astaty = s.sys.astaty
  data : t.data = s.data
  dag : t.dag = s.dag
  mem : t.mem = s.mem
  bus : t.bus = s.bus
  posted : t.posted = s.posted

theorem pushed_loopStk (q : Seq) (w : Word) : (q.pushed w).loopStk = q.loopStk := by
  unfold Seq.pushed; split <;> rfl

/-- SECI that self-nests sets SINEST (R1049). -/
theorem selfNesting_mode1 (m : Word) (k : Nat) (b : Bool) : (if (decide (k = 15) && b) = true then m ||| flagBit 30 true else m) =
    m ||| (if k = 15 ∧ b = true then 0x40000000#32 else 0#32) := by
  by_cases h15 : k = 15 <;> cases b <;> simp [h15, flagBit]

/-- The entry of interrupt `k`, no write of PCSTKP being due. -/
theorem enter_entered {s : State} {k : Nat} {base : IAddr} (hb : s.ivtBase = .ok base) (hd : s.seq.pcStkpDue = none)
    (hn : s.seq.pcStkpNew = none) : ∃ t ret, s.enter k = .ok t ∧ Entered s k base ret t := by
  let ret := if k = 3 && s.sys.parity then (s.freeWord 90).truncate 24 else s.seq.pc
  obtain ⟨stk, ov, hpush, hroom, hfull⟩ := pushBoth s (pcEntry ret true)
  cases he : s.enter k with
  | error e => simp [State.enter, hb] at he
  | ok t =>
    obtain ⟨base', hb', ht⟩ := enter_ok he
    have hbase : base' = base := by simpa [hb] using hb'.symm
    rw [hd, hn] at ht
    simp only [State.settlePcstkp] at ht
    rw [hpush, hbase, pcEntry_int] at ht
    refine ⟨t, ret, rfl, ?_⟩
    subst ht
    constructor
    case ret_eq => intro h; rcases h with h | h <;> simp [ret, h]
    case room => exact hroom
    case full => exact hfull
    case loopStk => exact pushed_loopStk _ _
    case mode1 => exact selfNesting_mode1 _ _ _
    case astat => exact ⟨rfl, rfl⟩
    all_goals rfl

theorem Entered.marks {s t : State} {k : Nat} {base ret : IAddr} (h : Entered s k base ret t) (m : Mmr) (b : Boundary) :
    Entered s k base ret { t with mmr := m, bdry := b } := { h with }

theorem accept_lt {s : State} {k : Nat} (h : s.accept = some k) : k < 32 :=
  BitVec.lt_of_getLsbD (accepted_eq_some.mp (accept_some h).1).2.1.1

/-- After the entry the latch of the interrupt is clear, for SECI that self-nests too. -/
theorem Entered.latch_clear {s s' t : State} {k : Nat} {base ret : IAddr} (h : Entered s k base ret t) (hk : k < 32) :
    (s'.closeStep t).sys.irptl.getLsbD k = false := by
  have hm : t.sys.imaskp.getLsbD k = true := by
    rw [h.imaskp, BitVec.getLsbD_or, oneShift_getLsbD _ _ hk]
    simp
  have hi : t.sys.irptl.getLsbD k = false := by
    rw [h.irptl, BitVec.getLsbD_and, BitVec.getLsbD_not, oneShift_getLsbD _ _ hk]
    simp [hk]
  by_cases h15 : k = 15
  · subst h15
    rw [closeStep_latched _ _ _ hk (by decide) (by decide), hi]
    simp [Sys.levels]
  · rw [closeStep_irptl _ _ _ hk, hm]
    simp [h15]

/-- A push that left a stack nearly full or overflowed is seen in the latch of SOVFI. -/
theorem Entered.sovfi {s s' t : State} {k : Nat} {base ret : IAddr} (h : Entered s k base ret t)
    (hfull : s.seq.pcOv = true ∨ 28 ≤ s.seq.pcStk.length ∨ 15 ≤ s.seq.stsStk.length) :
    k = 7 ∨ s.sys.imaskp.getLsbD 7 = true ∨ (s'.closeStep t).sys.irptl.getLsbD 7 = true := by
  by_cases h7 : k = 7
  · exact .inl h7
  · refine .inr ?_
    have hk : (1#32 <<< k).getLsbD 7 = false := by
      rw [oneShift_getLsbD _ _ (by decide)]
      simpa using Ne.symm h7
    have hi : t.sys.irptl.getLsbD 7 = true := by
      rw [h.irptl, BitVec.getLsbD_and, pushBoth_sovfi s hfull, BitVec.getLsbD_not, hk]
      rfl
    rw [closeStep_latched _ _ _ (by decide) (by decide) (by decide), hi, h.imaskp, BitVec.getLsbD_or, hk]
    cases s.sys.imaskp.getLsbD 7 <;> simp

/-- The loop work after an instruction touches no system register. -/
theorem loopEnd_sys {s t : State} (h : s.loopEnd = .ok t) : t.sys = s.sys := by
  cases hs : s.seq.loopStk with
  | nil =>
    simp only [State.loopEnd, hs, Except.ok.injEq] at h
    rw [h]
  | cons e rest =>
    rcases loopEnd_ok hs h with hp | ⟨-, e', -, -, rfl⟩
    · obtain ⟨-, rfl⟩ := popPc_ok hp
      rfl
    · rfl

theorem closeLoop_sys {s0 s t : State} {len : Nat} (h : s0.closeLoop s len = .ok t) : t.sys = s.sys := by
  obtain ⟨-, ⟨-, rfl⟩ | ⟨-, -, -, -, hl⟩⟩ := closeLoop_ok h
  · rfl
  · exact loopEnd_sys hl

/-- Breakpoints latch no interrupt but their own. -/
theorem breakpoints_latched (s0 s : State) (j : Nat) (hj : j < 32) (h12 : j ≠ 12) :
    (s0.breakpoints s).sys.irptl.getLsbD j = s.sys.irptl.getLsbD j := by
  unfold State.breakpoints State.raise
  dsimp only
  split
  · rfl
  · split
    · rw [BitVec.getLsbD_or, show Irq.bkpi.num = 12 from rfl, oneShift_getLsbD _ _ hj]
      simp [h12, State.setMmrs]
    · rfl

theorem breakpoints_sys (s0 s : State) : (s0.breakpoints s).sys = { s.sys with irptl := (s0.breakpoints s).sys.irptl } := by
  unfold State.breakpoints State.raise
  dsimp only
  (repeat' split) <;> rfl

/-- The latches after an instruction. -/
theorem finish_latched {s0 s t : State} {len : Nat} (h : s0.finish s len = .ok t) (hs : s0.seq.srst ≠ 1) (j : Nat) (hj : j < 32)
    (h11 : j ≠ 11) (h22 : j ≠ 22) (h12 : j ≠ 12) (h15 : j ≠ 15) :
    t.sys.irptl.getLsbD j = ((s.sys.irptl.getLsbD j || s.sys.levels j) && !s.sys.imaskp.getLsbD j) := by
  obtain ⟨-, u, hu, ⟨h1, -⟩ | ⟨-, -, rfl⟩⟩ := finish_ok h
  · exact absurd h1 hs
  · have hv : ((u.settlePcstkp u.seq.pcStkpDue).loseLoops).sys = s.sys := by
      rw [← closeLoop_sys hu, ← State.settlePcstkp_sys u u.seq.pcStkpDue]
      unfold State.loseLoops
      split <;> rfl
    rw [closeStep_latched _ _ _ hj h11 h22, breakpoints_latched _ _ _ hj h12, breakpoints_sys]
    simp only [State.passCalls, State.passLatencies, hv, Sys.levels]
    simp [h15]

/-- Settles O60. -/
theorem interrupts : Obligations.Interrupts := by
  refine ⟨?_, ?_, ?_, ?_⟩
  · intro s k base ha hb hd hn
    obtain ⟨v, ret, henter, hv⟩ := enter_entered (k := k) hb hd hn
    have hv' := hv.marks { v.mmr with imdwAct := v.mmr.sysctl.extractLsb' 9 4 } State.reset.bdry
    have hstep := step_interrupt ha (takeInterrupt_eq henter)
    clear henter
    revert hv' hstep
    generalize ({ v with mmr := { v.mmr with imdwAct := v.mmr.sysctl.extractLsb' 9 4 }, bdry := State.reset.bdry } : State) = u
    intro hu hstep
    obtain ⟨tm, tc, c, c2, w, p, hsys⟩ := closeStep_sys s u
    refine ⟨_, ret, hstep, ?_, hu.ret_eq, ?_, ?_, ?_, ?_, hu.sovfi, ?_, ?_, ?_, hu.latch_clear (accept_lt ha), ?_, ?_, ?_, ?_, ?_, ?_,
      ?_, fun q => ?_, ?_, ?_⟩ <;> dsimp only
    · rw [closeStep_seq, hu.pc]
    · rw [closeStep_seq, hu.pcStk]
    · rw [closeStep_seq, hu.pcOv]
    · rw [closeStep_seq]; exact hu.room
    · rw [closeStep_seq]; exact hu.full
    · rw [hsys]; exact hu.mode1
    · rw [hsys]; exact hu.mode1Act
    · rw [hsys]; exact hu.imaskp
    · rw [closeStep_seq, hu.idle]
    · rw [closeStep_seq, hu.branches]
    · rw [closeStep_data, hu.data]
    · rw [closeStep_dag, hu.dag]
    · rw [closeStep_seq, hu.loopStk]
    · rw [hsys]; exact hu.astat.1
    · rw [hsys]; exact hu.astat.2
    · rw [closeStep_read, hu.mem]
    · rw [← hu.bus]; exact closeStep_bus s u
    · rw [closeStep_posted, hu.posted]
  · intro s k ha m
    obtain ⟨hk, hwhere⟩ := accept_some ha
    obtain ⟨hi, ⟨h1, h2, h3, h4⟩, hlow⟩ := accepted_eq_some.mp hk
    obtain ⟨m1, m2, m3, m4⟩ := masks_cases s
    rw [interruptible_iff] at hwhere
    exact ⟨m1, m2, m3, m4, hi, h1, h2, h3, hwhere, fun p hp => (tmask_false_iff hp).mp h4, hlow⟩
  · intro s k hi h1 h2 h3 hb hq hv hp hlow
    have hint : s.seq.interruptible = true := (interruptible_iff _).mpr ⟨hb, hq, hv⟩
    have hacc : s.sys.accepted s.masks = some k := by
      refine accepted_eq_some.mpr ⟨hi, ⟨h1, h2, h3, ?_⟩, fun j hj h => ?_⟩
      · simp [Sys.tmask, hp, lowestBit_zero]
      · simp [hlow j hj] at h
    simp [State.accept, hint, hacc]
  · intro s u t len hf hs x hx sticky
    simp only [List.mem_cons, List.not_mem_nil, or_false] at hx
    rcases hx with rfl | rfl | rfl | rfl <;>
    · rw [finish_latched hf hs _ (by decide) (by decide) (by decide) (by decide) (by decide), Bool.and_comm]
      simp [Sys.levels, sticky, Bool.or_assoc]

end Sys2Proof.Machine
end

section
/-! PROOFS. Branches: calls, returns and starts of loops (R562 to R591). -/

namespace Sys2Proof.Machine

open Sys2Proof

/-! ### The computation beside a branch -/

/-- `t` differs from `s` in the data registers and the arithmetic status alone, as a computation leaves it. -/
def Computed (s t : State) : Prop := ∃ d ax ay kx ky, t = { s with
  data := d, sys := { s.sys with astatx := ax, astaty := ay, stkyx := kx, stkyy := ky } }

theorem Computed.refl (s : State) : Computed s s := ⟨_, _, _, _, _, rfl⟩

theorem Computed.trans {s t u : State} (h : Computed s t) (h' : Computed t u) : Computed s u := by
  obtain ⟨d, ax, ay, kx, ky, rfl⟩ := h
  obtain ⟨d', ax', ay', kx', ky', rfl⟩ := h'
  exact ⟨d', ax', ay', kx', ky', rfl⟩

theorem applyPe_computed (s : State) (y : Bool) (busy : List UReg) (o : PeOut) : Computed s (s.applyPe y busy o) := by
  have hsys := applyPe_sys s y busy o
  refine ⟨(s.applyPe y busy o).data, (s.applyPe y busy o).sys.astatx, (s.applyPe y busy o).sys.astaty,
    (s.applyPe y busy o).sys.stkyx, (s.applyPe y busy o).sys.stkyy, ?_⟩
  have heta (t : State) : t = ⟨t.data, t.dag, t.seq, t.sys, t.mmr, t.posted, t.mem, t.cache, t.excl, t.bus, t.bdry, t.free⟩ := rfl
  rw [heta (s.applyPe y busy o), applyPe_dag, applyPe_seq, applyPe_mmr, applyPe_posted, applyPe_mem, applyPe_cache, applyPe_excl,
    applyPe_bus, applyPe_bdry, applyPe_free]
  congr 1
  rw [hsys]
  cases y <;> rfl

theorem runPe_computed (s : State) (cx cy : Bool) (busy : List UReg) (f : Bool → PeOut) : Computed s (s.runPe cx cy busy f) := by
  unfold State.runPe
  dsimp only
  have h1 : Computed s (if cx then s.applyPe false busy (f false) else s) := by
    split
    · exact applyPe_computed ..
    · exact .refl s
  split
  · exact h1.trans (applyPe_computed ..)
  · exact h1

/-- No element executes: nothing happens. -/
theorem compute_neither (s : State) (c : Compute) (busy : List UReg) : s.compute c false false busy = .ok s := by
  simp [State.compute, State.runPe]

/-- The empty computation does nothing. -/
theorem applyPe_empty (s : State) (y : Bool) (busy : List UReg) : s.applyPe y busy {} = s := by
  cases y <;>
    simp [State.applyPe, State.applyFlags, State.applyMr, State.applyFifo, PeOut.astat, Sticky.apply, flagBit]

/-- What a branch with its computation comes from: the computation on the elements that its condition, or with ELSE its
complement, picks. -/
theorem afterCompute_ok {s c : State} {cond : Cond} {els : Bool} {comp : Compute} (h : AfterCompute s cond els comp c) :
    s.compute comp (els != s.cx cond) (els != s.cy cond) [] = .ok c := by
  rcases h with ⟨rfl, rfl⟩ | ⟨rfl, h⟩ | ⟨rfl, -, hx, hy, rfl⟩ | ⟨rfl, hx, hy, h⟩
  · have hp (y : Bool) : c.pe y .none = {} := rfl
    simp [State.compute, State.computeAllowed, State.runPe, hp, applyPe_empty]
  · simpa using outcome_next.mp h
  · simpa [hx, hy] using compute_neither c comp []
  · simpa [hx, hy] using outcome_next.mp h

theorem afterCompute_computed {s c : State} {cond : Cond} {els : Bool} {comp : Compute} (h : AfterCompute s cond els comp c) :
    Computed s c := by
  rw [compute_ok (afterCompute_ok h)]
  exact runPe_computed ..

/-- A branch beside a computation, from the state after it. -/
theorem branchCompute_after {s c : State} {cond : Cond} {db els : Bool} {comp : Compute} (h : AfterCompute s cond els comp c)
    (act : State → Res State) :
    s.branchCompute cond db els comp act = if s.taken cond then act (c.atBranch db) else .ok (c.atBranch db) := by
  simp [State.branchCompute, afterCompute_ok h]

/-! ### The branch itself -/

theorem atBranch_passes {s c : State} (h : Computed s c) (db : Bool) : BranchPasses s c (c.atBranch db) db := by
  obtain ⟨d, ax, ay, kx, ky, rfl⟩ := h
  exact atBranch_eq _ db

theorem pcEntry_call (a : IAddr) : pcEntry a false = a.setWidth 32 ||| 0x1000000#32 := by
  unfold pcEntry
  rw [BitVec.or_assoc]
  rfl

/-- A branch that is not taken falls through. -/
theorem branch_untaken {i : Instr} {s c : State} {cond : Cond} {db : Bool} {act : State → Res State} (hc : Computed s c)
    (he : exec i s = (if s.taken cond then act (c.atBranch db) else .ok (c.atBranch db)).outcome) (h : s.taken cond = false) :
    Completes i s fun t => BranchPasses s c t db := by
  rw [h] at he
  exact ⟨_, he, atBranch_passes hc db⟩

/-! ### Calls -/

theorem takeCall_eq {s : State} {a : IAddr} {db : Bool} (h : s.branchAllowed db .call = .ok ()) : s.takeCall a db =
    .ok (({ s with bdry := { s.bdry with called := true } }.pushPc (pcEntry (s.callReturn db) false)).goto a db .call) := by
  simp [State.takeCall, h]

/-- In this state a delayed CALL stands among the last instructions of an arithmetic loop, so that it latches RINSEQI (R1037); that
interrupt is enabled, so that the line of the code that follows goes through to memory (R368) and no longer comes as zeros from the
return-zero range (R378): what follows is then of another length. -/
def callTrap : State := { State.reset with
  sys := { State.reset.sys with mode1 := 0x1000#32, mode1Act := 0x1000#32, imask := 0x100000#32 }
  mmr := { State.reset.mmr with
    l1cCfg := 0x1000001#32, sysctl := 0xA000#32, pfbRange := 0x40000#32, pfbStart := 0x20000000#32, pfbEnd := 0x20000100#32 }
  mem := State.reset.mem.writeLE 0x2000001E 0x000100010001000100010001 12
  seq := { State.reset.seq with
    pc := 0xA0000C#24, npc := 0xA0000F#24, loopStk := [{ laddr := 0xA0000C#32, count := 1#32, start := 1#32 }] } }

/-- The code behind the call, as it is before it and as the latch of RINSEQI leaves it. -/
theorem callTrap_return : callTrap.callReturn true = 0xA00015#24 ∧ (callTrap.atBranch true).callReturn true = 0xA00011#24 := by
  decide

/-- Refutes O41: the return address of a delayed CALL is found after the latch of RINSEQI, which may make the code behind it
another one than before. -/
theorem not_callInstructions : ¬ Obligations.CallInstructions := by
  intro h
  obtain ⟨⟨-, hcall⟩, -⟩ := h callTrap callTrap .true_ 0#24 0#6 0#3 0#3 true false .none
  obtain ⟨t, he, p, hp, -, -, -, hseq⟩ := hcall (by decide) ⟨rfl, rfl⟩
  have hexec : exec (.callDirect .true_ 0#24 true) callTrap = ((callTrap.atBranch true).takeCall 0#24 true).outcome := rfl
  rw [hexec, takeCall_eq (by decide)] at he
  have ht : t.seq.pcStk = [pcEntry ((callTrap.atBranch true).callReturn true) false] := by
    rw [← Host.Outcome.next.inj he]
    rfl
  have hs : t.seq.pcStk = [(callTrap.callReturn true).setWidth 32 ||| 0x1000000#32] := by
    rw [hseq, hp]
    rfl
  rw [hs, callTrap_return.1, callTrap_return.2] at ht
  exact absurd ht (by decide)

/-! ### Returns -/

/-- A pop that the statements describe: the popped address, and the stack it leaves. -/
theorem popPc_pops {s : State} {q : Seq} {a : IAddr} (h : PopsPc s q a) : (s.pcstk s.seq).truncate 24 = a ∧
    s.popPc = .ok { s with seq := { s.seq with pcStk := q.pcStk, pcOv := q.pcOv } } := by
  rcases h with ⟨ho, w, rest, hs, rfl, rfl⟩ | ⟨ho, rfl, rfl⟩
  · simp [State.pcstk, State.popPc, Seq.dropPc, ho, hs]
  · simp [State.popPc, Seq.dropPc, ho]

theorem popSts_eq {s : State} {e : StsEntry} {rest : List StsEntry} (h : s.seq.stsStk = e :: rest) : s.popSts = .ok { s with
    seq := { s.seq with stsStk := rest, stsOv := false }
    sys := s.sys.restored e
    bdry := { s.bdry with astatxWritten := true, astatyWritten := true } } := by
  unfold State.popSts
  rw [h]
  rfl

/-- The system registers and the core registers after the end of the service of an interrupt, `e` the top of the status stack
(R567, R575, R1048, R1049). -/
def State.ended (s : State) (e : StsEntry) : Sys × Mmr :=
  match lowestBit s.sys.imaskp with
  | none => (s.sys.restored e, s.mmr)
  | some k =>
    if k = 15 ∧ e.mode1.getLsbD 30 = true then (s.sys.restored e, s.mmr)
    else ((s.endService k (!(k = 15 && s.sys.mode2.getLsbD 0))).sys.restored e,
      if k = 12 then { s.mmr with brkstat := 0#32 } else s.mmr)

theorem leaveIsr_eq {s : State} {e : StsEntry} {rest : List StsEntry} (hs : s.seq.stsStk = e :: rest) : s.leaveIsr = .ok { s with
    seq := { s.seq with stsStk := rest, stsOv := false }, sys := (s.ended e).1, mmr := (s.ended e).2
    bdry := { s.bdry with astatxWritten := true, astatyWritten := true } } := by
  unfold State.ended
  cases hk : lowestBit s.sys.imaskp with
  | none => simp only [State.leaveIsr, hk, popSts_eq hs]
  | some k =>
    by_cases hn : k = 15 ∧ e.mode1.getLsbD 30 = true
    · simp only [State.leaveIsr, hk, State.mode1stk, hs, hn, and_self, decide_true, Bool.and_self, if_true, popSts_eq hs]
    · have hn' : (decide (k = 15) && e.mode1.getLsbD 30) = false := by simpa using hn
      simp only [State.leaveIsr, hk, State.mode1stk, hs, hn', hn, if_false, Bool.false_eq_true]
      by_cases h12 : k = 12
      · rw [if_pos h12, if_pos h12, popSts_eq (by exact hs)]
        rfl
      · rw [if_neg h12, if_neg h12, popSts_eq (by exact hs)]
        rfl

/-- With no interrupt in service, only the pop. -/
theorem ended_none {s : State} (e : StsEntry) (h : s.sys.imaskp = 0#32) : s.ended e = (s.sys.restored e, s.mmr) := by
  simp [State.ended, h, lowestBit_zero]

/-- Interrupt `k` is the one in service: its bits go, unless it is the nested SECI. -/
theorem ended_service {s : State} {k : Nat} (e : StsEntry) (h : Lowest s.sys.imaskp k) : s.ended e =
    if k = 15 ∧ e.mode1.getLsbD 30 = true then (s.sys.restored e, s.mmr)
    else ({ s.sys.restored e with
      imaskp := s.sys.imaskp &&& ~~~(1#32 <<< k)
      irptl := if k = 15 ∧ s.sys.mode2.getLsbD 0 = true then s.sys.irptl else s.sys.irptl &&& ~~~(1#32 <<< k) },
      if k = 12 then { s.mmr with brkstat := 0#32 } else s.mmr) := by
  simp only [State.ended, lowestBit_eq_some.mpr h]
  split
  · rfl
  · congr 1
    by_cases h15 : k = 15 ∧ s.sys.mode2.getLsbD 0 = true
    · simp [State.endService, Sys.restored, h15]
    · have hb : (decide (k = 15) && s.sys.mode2.getLsbD 0) = false := by simpa using h15
      simp only [State.endService, Sys.restored, hb, h15, if_false, Bool.not_false, if_true]

/-- A taken RTS goes to the popped address. -/
theorem takeRts_eq {s : State} {q : Seq} {a : IAddr} {db : Bool} (ha : s.branchAllowed db .ret = .ok ()) (hp : PopsPc s q a) :
    s.takeReturn false db = .ok (({ s with
      seq := { s.seq with pcStk := q.pcStk, pcOv := q.pcOv }, bdry := { s.bdry with mode1Now := false } } : State).goto a db .ret) := by
  obtain ⟨haddr, hpop⟩ := popPc_pops hp
  simp [State.takeReturn, ha, hpop, haddr]

/-- A taken RTI goes to the popped address and ends the service. -/
theorem takeRti_eq {s : State} {q : Seq} {a : IAddr} {db : Bool} {e : StsEntry} {sts : List StsEntry}
    (ha : s.branchAllowed db .ret = .ok ()) (hp : PopsPc s q a) (hs : s.seq.stsStk = e :: sts) :
    s.takeReturn true db = .ok (({ s with
      seq := { s.seq with pcStk := q.pcStk, pcOv := q.pcOv, stsStk := sts, stsOv := false }
      sys := (s.ended e).1, mmr := (s.ended e).2
      bdry := { s.bdry with astatxWritten := true, astatyWritten := true, mode1Now := !db } } : State).goto a db .ret) := by
  obtain ⟨haddr, hpop⟩ := popPc_pops hp
  have hl := leaveIsr_eq (s := { s with seq := { s.seq with pcStk := q.pcStk, pcOv := q.pcOv } }) (by exact hs)
  simp only [State.takeReturn, ha, hpop, haddr, hl, if_true, Bool.true_and]
  rfl

/-- The pop that a branch sees is the one that the instruction starts with. -/
theorem popsPc_atBranch {s c : State} {q : Seq} {a : IAddr} (hc : Computed s c) (db : Bool) (h : PopsPc s q a) :
    PopsPc (c.atBranch db) { (c.atBranch db).seq with pcStk := q.pcStk, pcOv := q.pcOv } a := by
  obtain ⟨d, ax, ay, kx, ky, rfl⟩ := hc
  rw [atBranch_eq]
  rcases h with ⟨ho, w, rest, hs, rfl, rfl⟩ | ⟨ho, rfl, rfl⟩
  · exact .inl ⟨ho, w, rest, hs, rfl, by simp [ho]⟩
  · exact .inr ⟨ho, rfl, rfl⟩

/-- A branch instruction that returns, from the state after its computation. -/
theorem returns_of {i : Instr} {s c : State} {cond : Cond} {rti db : Bool} (hc : Computed s c)
    (he : exec i s = (if s.taken cond then (c.atBranch db).takeReturn rti db else .ok (c.atBranch db)).outcome) :
    Returns i s cond rti db c := by
  refine ⟨branch_untaken (act := fun u => u.takeReturn rti db) hc he, ?_⟩
  rintro q a ht ⟨hb, hh⟩ hpop
  have hp := atBranch_passes hc db
  have hpop' := popsPc_atBranch hc db hpop
  have hall : (c.atBranch db).branchAllowed db .ret = .ok () := by
    obtain ⟨d, ax, ay, kx, ky, rfl⟩ := hc
    rw [atBranch_eq]
    exact branchAllowed_nil _ _ hb hh
  have hsame : SameOutsideControl c (c.atBranch db) := by
    rw [atBranch_eq]
    exact ⟨rfl, rfl, rfl, rfl, rfl, rfl, rfl, rfl, rfl⟩
  have hsts : (c.atBranch db).seq.stsStk = s.seq.stsStk ∧ (c.atBranch db).sys.imaskp = s.sys.imaskp ∧
      (c.atBranch db).sys.mode2 = s.sys.mode2 ∧ (c.atBranch db).mmr = c.mmr := by
    obtain ⟨d, ax, ay, kx, ky, rfl⟩ := hc
    rw [atBranch_eq]
    exact ⟨rfl, rfl, rfl, rfl⟩
  rw [ht, if_pos rfl] at he
  revert he hp hpop' hall hsame hsts
  generalize c.atBranch db = v
  rintro he hp hpop' hall hsame ⟨hsts, himaskp, hmode2, hmmr⟩
  cases rti with
  | false =>
    refine ⟨fun _ => ?_, fun h => absurd h (by decide)⟩
    rw [takeRts_eq hall hpop'] at he
    refine ⟨_, he, v, hp, ?_⟩
    rw [goto_eq]
    exact ⟨hsame, rfl, rfl, by cases db <;> rfl⟩
  | true =>
    refine ⟨fun h => absurd h (by decide), fun _ e sts hs => ?_⟩
    rw [takeRti_eq hall hpop' (hsts.trans hs)] at he
    refine ⟨_, he, v, hp, ?_⟩
    rw [goto_eq]
    refine ⟨rfl, rfl, by cases db <;> rfl, fun hz => ?_, fun k hk => ?_⟩
    · rw [ended_none e (himaskp.trans hz)]
      exact ⟨hsame, rfl⟩
    · rw [ended_service e (himaskp ▸ hk), himaskp, hmode2]
      by_cases hn : k = 15 ∧ e.mode1.getLsbD 30 = true
      · rw [if_pos hn, if_pos hn]
        exact ⟨hsame, rfl⟩
      · rw [if_neg hn, if_neg hn]
        obtain ⟨h1, h2, h3, h4, h5, h6, h7, h8, h9⟩ := hsame
        refine ⟨?_, rfl⟩
        by_cases h12 : k = 12
        · rw [if_pos h12, if_pos h12]
          exact ⟨h1, h2, by rw [hmmr], h4, h5, h6, h7, h8, h9⟩
        · rw [if_neg h12, if_neg h12]
          exact ⟨h1, h2, h3, h4, h5, h6, h7, h8, h9⟩

/-- Settles O42. -/
theorem returnInstructions : Obligations.ReturnInstructions := by
  intro s c cond db lr els comp
  have self := Computed.refl s
  refine ⟨rfl, rfl, fun h => ?_, fun h => ?_, returns_of self rfl, returns_of self rfl⟩
  · exact returns_of (afterCompute_computed h) (congrArg Res.outcome (branchCompute_after h _))
  · exact returns_of (afterCompute_computed h) (congrArg Res.outcome (branchCompute_after h _))

/-! ### Starts of loops -/

theorem startLoop_eq {s : State} {last : IAddr} (term : BitVec 5) (f1 : Bool) (hb : s.seq.branches = [])
    (hn : s.seq.nestingAllowed last = true) :
    let type := loopType term (f1 && !s.sys.mode2.getLsbD 7 && !shortLoop s.seq.npc last s.lcntr)
    s.startLoop last term f1 = .ok ((s.pushPc (loopPcEntry s.seq.npc type)).pushLoop (type ++ term ++ last)) := by
  simp [State.startLoop, refuseIf, hb, hn]

/-- The marks of a loop's entry on the PC stack. -/
theorem loopPcEntry_eq (top : IAddr) (type : BitVec 3) :
    loopPcEntry top type = top.setWidth 32 ||| 0x5000000#32 ||| (type.setWidth 32 <<< 27) := by
  unfold loopPcEntry
  rw [pcEntry_call, BitVec.or_assoc (top.setWidth 32)]
  rfl

theorem pushed_lcntrs (q : Seq) (w : Word) : (q.pushed w).lcntrs = q.lcntrs := by
  unfold Seq.pushed; split <;> rfl

/-- The start of a loop with room on the loop stacks. -/
theorem startLoop_room {s : State} {last : IAddr} {term : BitVec 5} {f1 : Bool} {c : Word} {above : List Word}
    (hb : s.seq.branches = []) (hn : s.seq.nestingAllowed last = true) (hl : s.seq.lcntrs = c :: above) {type : BitVec 3}
    (ht : loopType term (f1 && !s.sys.mode2.getLsbD 7 && !shortLoop s.seq.npc last c) = type) :
    s.startLoop last term f1 = .ok { s with
      sys := s.sys.almostFull s.seq
      seq := { s.seq.pushed (s.seq.npc.setWidth 32 ||| 0x5000000#32 ||| (type.setWidth 32 <<< 27)) with
        loopStk := { laddr := type ++ term ++ last, count := c, start := c } :: s.seq.loopStk
        lcntrs := above } } := by
  have hc : s.lcntr = c := by simp [State.lcntr, hl]
  rw [startLoop_eq term f1 hb hn, hc, ht, loopPcEntry_eq, pushPc_eq,
    pushLoop_room (c := c) (above := above) _ _ (by dsimp only; rw [pushed_lcntrs, hl])]
  dsimp only
  rw [pushed_loopStk]

/-- The start of a loop on full loop stacks. -/
theorem startLoop_full {s : State} {last : IAddr} {e : LoopEntry} {rest : List LoopEntry} (term : BitVec 5) (f1 : Bool)
    (hb : s.seq.branches = []) (hn : s.seq.nestingAllowed last = true) (hl : s.seq.lcntrs = []) (hs : s.seq.loopStk = e :: rest) :
    ∃ (x : LoopEntry) (type : BitVec 3), s.startLoop last term f1 = .ok { s with
      sys := { s.sys with irptl := s.sys.irptl ||| 0x80#32 }
      seq := { s.seq.pushed (s.seq.npc.setWidth 32 ||| 0x5000000#32 ||| (type.setWidth 32 <<< 27)) with
        loopStk := x :: rest, loopOv := true } } := by
  refine ⟨{ laddr := s.freeWord 17, count := s.freeWord 18, start := s.freeWord 18, restored := .whole },
    loopType term (f1 && !s.sys.mode2.getLsbD 7 && !shortLoop s.seq.npc last s.lcntr), ?_⟩
  rw [startLoop_eq term f1 hb hn, loopPcEntry_eq, pushPc_eq]
  simp only [State.pushLoop, pushed_loopStk, pushed_lcntrs, hl, hs, State.raise, Sys.almostFull, Irq.num]
  have hor : (s.sys.irptl ||| if s.seq.pcOv = true ∨ 28 ≤ s.seq.pcStk.length then 128#32 else 0#32) ||| 1#32 <<< 7 =
      s.sys.irptl ||| 0x80#32 := by
    rw [BitVec.or_assoc]
    split <;> rfl
  rw [hor]
  rfl

/-- The type code of a counter loop. -/
theorem counterType (f1 slow short : Bool) : loopType 0b01111#5 (f1 && !slow && !short) =
    if f1 = true ∧ slow = false ∧ short = false then 3#3 else 2#3 := by
  cases f1 <;> cases slow <;> cases short <;> rfl

/-- What LCNTR takes is the count that the loop starts with. -/
theorem startsLoop_counter {i : Instr} {s : State} {v : Word} {off : BitVec 23} {f1 : Bool} {c : Word} {above : List Word}
    (hl : s.seq.lcntrs = c :: above) (he : exec i s = (s.doCounter v off f1).outcome) :
    StartsLoop i s (s.seq.pc + off.signExtend 24) 0b01111#5
      (if f1 = true ∧ s.sys.mode2.getLsbD 7 = false ∧ shortLoop s.seq.npc (s.seq.pc + off.signExtend 24) v = false then 3#3 else 2#3)
      v above := by
  intro hb hn
  have hset : s.seq.setLcntr v = { s.seq with lcntrs := v :: above } := by simp [Seq.setLcntr, hl]
  have htype := counterType f1 (s.sys.mode2.getLsbD 7) (shortLoop s.seq.npc (s.seq.pc + off.signExtend 24) v)
  have hrun := startLoop_room (s := { s with seq := { s.seq with lcntrs := v :: above } }) (term := 0b01111#5) hb hn rfl htype
  refine ⟨_, ?_, rfl⟩
  rw [he, State.doCounter, hset, show s.pcRel off = s.seq.pc + off.signExtend 24 from rfl, hrun]
  unfold Seq.pushed
  dsimp only
  split <;> rfl

/-- Settles O44. -/
theorem loopStarts : Obligations.LoopStarts := by
  intro s count reg off f1 term last type
  refine ⟨fun c above hl => ⟨startsLoop_counter hl rfl, startsLoop_counter hl rfl, ?_, ?_⟩, ?_⟩
  · intro hb hn
    exact ⟨_, congrArg Res.outcome (startLoop_room (f1 := false) hb hn hl (by rfl)), rfl⟩
  · intro h1 h2 hb hn
    refine ⟨_, congrArg Res.outcome (startLoop_room (f1 := false) hb hn hl (type := 0#3) ?_), rfl⟩
    cases term with
    | true_ => exact absurd rfl h1
    | notLce => exact absurd rfl h2
    | _ => rfl
  · intro i hi hne e rest hb hn hl hs
    have hset (v : Word) : ({ s with seq := s.seq.setLcntr v } : State) = s := by simp [Seq.setLcntr, hl]
    have hcount (v : Word) : s.doCounter v off f1 = s.startLoop last 0b01111#5 f1 := by
      rw [State.doCounter, hset]
      rfl
    have hstart : ∃ term f1', exec i s = (s.startLoop last term f1').outcome := by
      simp only [List.mem_cons, List.not_mem_nil, or_false] at hi
      rcases hi with rfl | rfl | rfl | rfl
      · exact ⟨_, _, congrArg Res.outcome (hcount _)⟩
      · exact ⟨_, _, congrArg Res.outcome (hcount _)⟩
      · exact ⟨_, _, rfl⟩
      · exact ⟨_, _, rfl⟩
    obtain ⟨term', f1', he⟩ := hstart
    obtain ⟨x, t, hx⟩ := startLoop_full term' f1' hb hn hl hs
    exact ⟨_, by rw [he, hx]; rfl, x, t, rfl⟩

end Sys2Proof.Machine
end

section
/-! PROOFS. The stack operations of Type 20a (R63 to R74, R665, R666). -/

namespace Sys2Proof.Machine

open Sys2Proof

/-! ### One operation -/

theorem flushCache_eq (s : State) (on : Bool) : s.flushCache on = { s with mem := if on then s.mem.flushCode else s.mem } := by
  cases on <;> rfl

/-- What a push of the status stack leaves there: the saved registers on top, or, on a full stack, an open top. -/
def StsPushed (s : State) (stk : List StsEntry) (ov : Bool) : Prop :=
  (s.seq.stsStk.length < 15 → ov = s.seq.stsOv ∧
    stk = { mode1 := s.sys.mode1, astatx := s.astatx, astaty := s.sys.astaty } :: s.seq.stsStk) ∧
  (15 ≤ s.seq.stsStk.length → ov = true ∧ ∃ e, stk = e :: s.seq.stsStk.tail)

theorem pushSts_eq (s : State) : ∃ stk ov, StsPushed s stk ov ∧ s.pushSts = { s with
    seq := { s.seq with stsStk := stk, stsOv := ov }
    sys := { s.sys with
      mode1 := s.sys.mode1 &&& ~~~s.sys.mmask
      irptl := s.sys.irptl ||| (if 15 ≤ s.seq.stsStk.length then 0x80#32 else 0#32) } } := by
  by_cases h : 15 ≤ s.seq.stsStk.length
  · obtain ⟨e, he⟩ := pushSts_full h
    rw [he, if_pos h]
    exact ⟨_, _, ⟨fun hn => by omega, fun _ => ⟨rfl, e, rfl⟩⟩, rfl⟩
  · rw [pushSts_room (by omega), if_neg h, BitVec.or_zero]
    exact ⟨_, _, ⟨fun _ => ⟨rfl, rfl⟩, fun hn => absurd hn h⟩, rfl⟩

/-- A push of the PC stack may stand here. -/
theorem pushPcstkOp_eq {s : State} (h : ∀ b ∈ s.seq.branches, b.sort = .call) : s.pushPcstkOp = .ok (s.pushPc (s.freeWord 27)) := by
  have ha : s.pcOpAllowed false = .ok () := by
    simp only [State.pcOpAllowed, refuseIf, Bool.false_and, Bool.not_false, Bool.and_true]
    rw [if_neg]
    simpa using h
  simp [State.pushPcstkOp, ha]

theorem pushPcstkAfter_eq {s : State} (h : ∀ e ∈ s.seq.loopStk.head?, e.restored = .whole) : s.pushPcstkAfter = s.pushPcstkOp := by
  have ha : s.restoreAllowed = .ok () := by
    unfold State.restoreAllowed
    split
    · rfl
    · rename_i hs
      simp [refuseIf, h _ (by rw [hs]; rfl)]
  simp [State.pushPcstkAfter, ha]

/-- A pop of the PC stack may stand here. -/
theorem popPcstkOp_eq {s : State} (h : ∀ b ∈ s.seq.branches, b.sort = .call ∨ b.sort = .jumpCi) : s.popPcstkOp = s.popPc := by
  have ha : s.pcOpAllowed true = .ok () := by
    simp only [State.pcOpAllowed, refuseIf, Bool.true_and]
    rw [if_neg]
    simpa [← or_iff_not_imp_left] using h
  simp [State.popPcstkOp, ha]

theorem pushLoopOp_eq {s : State} (pcstk : Bool) (h : s.seq.branches = []) :
    s.pushLoopOp pcstk = .ok (s.pushLoop (s.freeWord 26) (if pcstk then .tied else .pushed)) := by
  simp [State.pushLoopOp, State.loopOpAllowed, refuseIf, h]

theorem popLoopOp_eq {s : State} {e : LoopEntry} {rest : List LoopEntry} (h : s.seq.branches = []) (hs : s.seq.loopStk = e :: rest) :
    s.popLoopOp = .ok { s with seq := { s.seq with loopStk := rest, loopOv := false, lcntrs := e.start :: s.seq.lcntrs } } := by
  simp [State.popLoopOp, State.loopOpAllowed, refuseIf, h, State.popLoop, hs, Seq.dropLoop]

/-! ### The pushes of a word -/

/-- A push latches SOVFI where it overflows the status stack or leaves the PC stack nearly full. -/
def State.pushAlarm (s : State) (sts pcstk : Bool) : Bool :=
  (sts && decide (15 ≤ s.seq.stsStk.length)) || (pcstk && (s.seq.pcOv || decide (28 ≤ s.seq.pcStk.length)))

/-- The state after the pushes of the status stack and the PC stack that a word asks for. -/
def Pushed (s : State) (sts pcstk : Bool) (t : State) : Prop := ∃ stk ov pcs pov,
  (if sts then StsPushed s stk ov else stk = s.seq.stsStk ∧ ov = s.seq.stsOv) ∧
  (if pcstk then ∃ w, pcs = (s.seq.pushed w).pcStk ∧ pov = (s.seq.pushed w).pcOv else pcs = s.seq.pcStk ∧ pov = s.seq.pcOv) ∧
  t = { s with
    seq := { s.seq with stsStk := stk, stsOv := ov, pcStk := pcs, pcOv := pov }
    sys := { s.sys with
      mode1 := if sts then s.sys.mode1 &&& ~~~s.sys.mmask else s.sys.mode1
      irptl := s.sys.irptl ||| (if s.pushAlarm sts pcstk then 0x80#32 else 0#32) } }

theorem sts_pushed (s : State) (sts : Bool) : ∃ t, Res.andIf (.ok s) sts (fun t => .ok t.pushSts) = .ok t ∧ Pushed s sts false t := by
  cases sts with
  | false => exact ⟨s, rfl, _, _, _, _, ⟨rfl, rfl⟩, ⟨rfl, rfl⟩, by simp [State.pushAlarm]⟩
  | true =>
    obtain ⟨stk, ov, hpush, he⟩ := pushSts_eq s
    exact ⟨s.pushSts, rfl, stk, ov, _, _, hpush, ⟨rfl, rfl⟩, by simp [he, State.pushAlarm]⟩

/-- The seq of a push with its two fields named. -/
theorem pushed_eq (q : Seq) (w : Word) : q.pushed w = { q with pcStk := (q.pushed w).pcStk, pcOv := (q.pushed w).pcOv } := by
  unfold Seq.pushed; split <;> rfl

/-- A push of the PC stack after that of the status stack. -/
theorem Pushed.pc {s t : State} {sts : Bool} (h : Pushed s sts false t) (w : Word) : Pushed s sts true (t.pushPc w) := by
  obtain ⟨stk, ov, pcs, pov, hsts, ⟨rfl, rfl⟩, rfl⟩ := h
  refine ⟨stk, ov, (s.seq.pushed w).pcStk, (s.seq.pushed w).pcOv, hsts, ⟨w, rfl, rfl⟩, ?_⟩
  have hor : (s.sys.irptl ||| (if s.pushAlarm sts false then 0x80#32 else 0#32)) |||
      (if s.seq.pcOv = true ∨ 28 ≤ s.seq.pcStk.length then 0x80#32 else 0#32) =
      s.sys.irptl ||| (if s.pushAlarm sts true then 0x80#32 else 0#32) := by
    have halarm : s.pushAlarm sts true = (s.pushAlarm sts false || decide (s.seq.pcOv = true ∨ 28 ≤ s.seq.pcStk.length)) := by
      simp [State.pushAlarm]
    rw [BitVec.or_assoc, halarm]
    by_cases hp : s.seq.pcOv = true ∨ 28 ≤ s.seq.pcStk.length <;> cases s.pushAlarm sts false <;> simp [hp]
  rw [pushPc_eq, pushed_eq]
  unfold Sys.almostFull
  rw [← hor]
  unfold Seq.pushed
  dsimp only
  split <;> rfl

/-- The pushes of a word after that of the loop stacks. -/
theorem pushes_run (s : State) (sts pcstk : Bool) (h : pcstk = true → ∀ b ∈ s.seq.branches, b.sort = .call) :
    ∃ t, ((Res.andIf (.ok s) sts fun t => .ok t.pushSts).andIf pcstk State.pushPcstkOp) = .ok t ∧ Pushed s sts pcstk t := by
  obtain ⟨t, ht, hp⟩ := sts_pushed s sts
  rw [ht]
  cases pcstk with
  | false => exact ⟨t, rfl, hp⟩
  | true =>
    have hb : t.seq.branches = s.seq.branches := by
      obtain ⟨-, -, -, -, -, -, rfl⟩ := hp
      rfl
    exact ⟨_, pushPcstkOp_eq (by rw [hb]; exact h rfl), hp.pc _⟩

/-! ### The pops of a word -/

/-- The state after the pops of the status stack and the PC stack that a word asks for. -/
def Popped (s : State) (sts pcstk : Bool) (t : State) : Prop := ∃ stk ov pcs pov sys bdry,
  (if sts then ∃ e, s.seq.stsStk = e :: stk ∧ ov = false ∧ sys = s.sys.restored e
    else (stk = s.seq.stsStk ∧ ov = s.seq.stsOv) ∧ sys = s.sys) ∧
  (if pcstk then ∃ p a, PopsPc s p a ∧ pcs = p.pcStk ∧ pov = p.pcOv else pcs = s.seq.pcStk ∧ pov = s.seq.pcOv) ∧
  t = { s with seq := { s.seq with stsStk := stk, stsOv := ov, pcStk := pcs, pcOv := pov }, sys := sys, bdry := bdry }

theorem sts_popped (s : State) (sts : Bool) (h : sts = true → s.seq.stsStk ≠ []) :
    ∃ t, Res.andIf (.ok s) sts State.popSts = .ok t ∧ Popped s sts false t := by
  cases sts with
  | false => exact ⟨s, rfl, _, _, _, _, _, _, ⟨⟨rfl, rfl⟩, rfl⟩, ⟨rfl, rfl⟩, rfl⟩
  | true =>
    obtain ⟨e, rest, hs⟩ := List.exists_cons_of_ne_nil (h rfl)
    exact ⟨_, popSts_eq hs, _, _, _, _, _, _, ⟨e, hs, rfl, rfl⟩, ⟨rfl, rfl⟩, rfl⟩

/-- There is a pop where the PC stack has an entry or has overflowed. -/
theorem popsPc_exists {s : State} (h : s.seq.pcStk ≠ [] ∨ s.seq.pcOv = true) : ∃ q a, PopsPc s q a := by
  cases ho : s.seq.pcOv with
  | true => exact ⟨_, _, .inr ⟨ho, rfl, rfl⟩⟩
  | false =>
    obtain ⟨w, rest, hs⟩ := List.exists_cons_of_ne_nil (h.resolve_right (by simp [ho]))
    exact ⟨_, _, .inl ⟨ho, w, rest, hs, rfl, rfl⟩⟩

/-- A pop of the PC stack after that of the status stack. -/
theorem Popped.pc {s t : State} {sts : Bool} (h : Popped s sts false t) (hpc : s.seq.pcStk ≠ [] ∨ s.seq.pcOv = true) :
    ∃ u, t.popPc = .ok u ∧ Popped s sts true u := by
  obtain ⟨q, a, hp⟩ := popsPc_exists hpc
  obtain ⟨stk, ov, pcs, pov, sys, bdry, hsts, ⟨rfl, rfl⟩, rfl⟩ := h
  have hp' : PopsPc { s with seq := { s.seq with stsStk := stk, stsOv := ov }, sys := sys, bdry := bdry }
      { s.seq with stsStk := stk, stsOv := ov, pcStk := q.pcStk, pcOv := q.pcOv } a := by
    rcases hp with ⟨ho, w, rest, hs, rfl, rfl⟩ | ⟨ho, rfl, rfl⟩
    · exact .inl ⟨ho, w, rest, hs, rfl, by simp [ho]⟩
    · exact .inr ⟨ho, rfl, rfl⟩
  exact ⟨_, (popPc_pops hp').2, stk, ov, _, _, sys, bdry, hsts, ⟨q, a, hp, rfl, rfl⟩, rfl⟩

/-- The pops of a word after that of the loop stacks. -/
theorem pops_run (s : State) (sts pcstk : Bool) (hs : sts = true → s.seq.stsStk ≠ [])
    (hb : pcstk = true → ∀ b ∈ s.seq.branches, b.sort = .call ∨ b.sort = .jumpCi)
    (hpc : pcstk = true → s.seq.pcStk ≠ [] ∨ s.seq.pcOv = true) :
    ∃ t, ((Res.andIf (.ok s) sts State.popSts).andIf pcstk State.popPcstkOp) = .ok t ∧ Popped s sts pcstk t := by
  obtain ⟨t, ht, hp⟩ := sts_popped s sts hs
  rw [ht]
  cases pcstk with
  | false => exact ⟨t, rfl, hp⟩
  | true =>
    have hbr : t.seq.branches = s.seq.branches := by
      obtain ⟨-, -, -, -, -, -, -, -, rfl⟩ := hp
      rfl
    obtain ⟨u, hu, hpu⟩ := hp.pc (hpc rfl)
    exact ⟨u, (popPcstkOp_eq (by rw [hbr]; exact hb rfl)).trans hu, hpu⟩

/-! ### A word -/

/-- The state after the part of a word that is about the loop stacks and FLUSH CACHE; `full`: the loop stacks overflowed. -/
def State.looped (s : State) (flush full : Bool) (loops : List LoopEntry) (counts : List Word) (ov : Bool) : State := { s with
  mem := if flush then s.mem.flushCode else s.mem
  seq := { s.seq with loopStk := loops, lcntrs := counts, loopOv := ov }
  sys := { s.sys with irptl := s.sys.irptl ||| (if full then 0x80#32 else 0#32) } }

/-- A word without a loop operation leaves the loop stacks alone. -/
theorem flushCache_looped (s : State) (flush : Bool) :
    s.flushCache flush = s.looped flush false s.seq.loopStk s.seq.lcntrs s.seq.loopOv := by
  simp [flushCache_eq, State.looped]

/-- What a word of stack operations leaves alone. -/
def SameBesideStacks (s : State) (flush : Bool) (t : State) : Prop :=
  t.data = s.data ∧ t.dag = s.dag ∧ t.mem = (if flush then s.mem.flushCode else s.mem) ∧ t.mmr = s.mmr ∧ t.posted = s.posted ∧
  t.excl = s.excl ∧ t.bus = s.bus ∧ t.free = s.free ∧ t.cache = s.cache ∧ t.seq.pc = s.seq.pc ∧ t.seq.npc = s.seq.npc ∧
  t.seq.branches = s.seq.branches

/-- The loop stacks after a word. -/
def LoopsLeft (loops : List LoopEntry) (counts : List Word) (ov : Bool) (t : State) : Prop :=
  t.seq.loopStk = loops ∧ t.seq.lcntrs = counts ∧ t.seq.loopOv = ov

/-- The other stacks after a word of pushes. -/
def WordPushed (s : State) (flush full sts pcstk : Bool) (t : State) : Prop :=
  (if sts then StsPushed s t.seq.stsStk t.seq.stsOv else t.seq.stsStk = s.seq.stsStk ∧ t.seq.stsOv = s.seq.stsOv) ∧
  (if pcstk then ∃ w, t.seq.pcStk = (s.seq.pushed w).pcStk ∧ t.seq.pcOv = (s.seq.pushed w).pcOv
    else t.seq.pcStk = s.seq.pcStk ∧ t.seq.pcOv = s.seq.pcOv) ∧
  SameBesideStacks s flush t ∧
  t.sys = { s.sys with
    mode1 := if sts then s.sys.mode1 &&& ~~~s.sys.mmask else s.sys.mode1
    irptl := s.sys.irptl ||| (if full || (sts && decide (15 ≤ s.seq.stsStk.length)) ||
      (pcstk && (s.seq.pcOv || decide (28 ≤ s.seq.pcStk.length))) then 0x80#32 else 0#32) }

theorem pushed_congr {q q' : Seq} (w : Word) (hs : q'.pcStk = q.pcStk) (ho : q'.pcOv = q.pcOv) :
    (q'.pushed w).pcStk = (q.pushed w).pcStk ∧ (q'.pushed w).pcOv = (q.pushed w).pcOv := by
  unfold Seq.pushed
  rw [hs]
  split <;> simp [ho]

theorem pushSts_loopStk (s : State) : s.pushSts.seq.loopStk = s.seq.loopStk := by
  obtain ⟨stk, ov, -, h⟩ := pushSts_eq s
  rw [h]

/-- In a word without a loop push, the loops that PUSH LOOP made must be whole. -/
theorem pushAfter_eq {s : State} (pcstk : Bool) (h : pcstk = true → ∀ e ∈ s.seq.loopStk.head?, e.restored = .whole) :
    Res.andIf (.ok s) pcstk State.pushPcstkAfter = Res.andIf (.ok s) pcstk State.pushPcstkOp := by
  cases pcstk with
  | false => rfl
  | true => exact pushPcstkAfter_eq (h rfl)

theorem Pushed.word {s t : State} {flush full sts pcstk : Bool} {loops : List LoopEntry} {counts : List Word} {ov : Bool}
    (h : Pushed (s.looped flush full loops counts ov) sts pcstk t) :
    LoopsLeft loops counts ov t ∧ WordPushed s flush full sts pcstk t := by
  obtain ⟨stk, ov', pcs, pov, hsts, hpc, rfl⟩ := h
  refine ⟨⟨rfl, rfl, rfl⟩, hsts, ?_, ⟨rfl, rfl, rfl, rfl, rfl, rfl, rfl, rfl, rfl, rfl, rfl, rfl⟩, ?_⟩
  · cases pcstk with
    | false => exact hpc
    | true =>
      obtain ⟨w, h1, h2⟩ := hpc
      have hw := pushed_congr w (q := s.seq) (q' := (s.looped flush full loops counts ov).seq) rfl rfl
      exact ⟨w, h1.trans hw.1, h2.trans hw.2⟩
  · have hor : (s.sys.irptl ||| (if full then 0x80#32 else 0#32)) |||
        (if (s.looped flush full loops counts ov).pushAlarm sts pcstk then 0x80#32 else 0#32) =
        s.sys.irptl ||| (if full || (sts && decide (15 ≤ s.seq.stsStk.length)) ||
          (pcstk && (s.seq.pcOv || decide (28 ≤ s.seq.pcStk.length))) then 0x80#32 else 0#32) := by
      have ha : (s.looped flush full loops counts ov).pushAlarm sts pcstk = s.pushAlarm sts pcstk := rfl
      rw [BitVec.or_assoc, ha, Bool.or_assoc]
      show _ = s.sys.irptl ||| (if (full || s.pushAlarm sts pcstk) = true then 0x80#32 else 0#32)
      cases full <;> cases s.pushAlarm sts pcstk <;> rfl
    rw [← hor]
    rfl

/-- The other stacks after a word of pops. -/
def WordPopped (s : State) (flush sts pcstk : Bool) (t : State) : Prop :=
  (if pcstk then ∃ p a, PopsPc s p a ∧ t.seq.pcStk = p.pcStk ∧ t.seq.pcOv = p.pcOv
    else t.seq.pcStk = s.seq.pcStk ∧ t.seq.pcOv = s.seq.pcOv) ∧
  (if sts then ∃ e, s.seq.stsStk = e :: t.seq.stsStk ∧ t.seq.stsOv = false ∧ t.sys = s.sys.restored e
    else (t.seq.stsStk = s.seq.stsStk ∧ t.seq.stsOv = s.seq.stsOv) ∧ t.sys = s.sys) ∧
  SameBesideStacks s flush t

theorem looped_sys (s : State) (flush : Bool) (loops : List LoopEntry) (counts : List Word) (ov : Bool) :
    (s.looped flush false loops counts ov).sys = s.sys := by
  simp [State.looped]

theorem Popped.word {s t : State} {flush sts pcstk : Bool} {loops : List LoopEntry} {counts : List Word} {ov : Bool}
    (h : Popped (s.looped flush false loops counts ov) sts pcstk t) :
    LoopsLeft loops counts ov t ∧ WordPopped s flush sts pcstk t := by
  obtain ⟨stk, ov', pcs, pov, sys, bdry, hsts, hpc, rfl⟩ := h
  rw [looped_sys] at hsts
  refine ⟨⟨rfl, rfl, rfl⟩, ?_, hsts, ⟨rfl, rfl, rfl, rfl, rfl, rfl, rfl, rfl, rfl, rfl, rfl, rfl⟩⟩
  cases pcstk with
  | false => exact hpc
  | true =>
    obtain ⟨p, a, hp, h1, h2⟩ := hpc
    rcases hp with ⟨ho, w, rest, hs, rfl, rfl⟩ | ⟨ho, rfl, rfl⟩
    · exact ⟨_, _, .inl ⟨ho, w, rest, hs, rfl, rfl⟩, h1, h2⟩
    · exact ⟨_, _, .inr ⟨ho, rfl, rfl⟩, h1, h2⟩

/-- The entry that PUSH LOOP makes: its address is open. -/
def State.pushedLoop (s : State) (c : Word) (pcstk : Bool) : LoopEntry :=
  { laddr := s.freeWord 26, count := c, start := c, restored := if pcstk then .tied else .pushed }

/-- The word's loop push with room on the loop stacks. -/
theorem pushLoop_word {s : State} {flush pcstk : Bool} {c : Word} {above : List Word} (hb : s.seq.branches = [])
    (hl : s.seq.lcntrs = c :: above) : (s.flushCache flush).pushLoopOp pcstk = .ok (s.looped flush false
      (s.pushedLoop c pcstk :: s.seq.loopStk) above s.seq.loopOv) := by
  rw [flushCache_eq, pushLoopOp_eq pcstk (by exact hb), pushLoop_room (c := c) (above := above) _ _ (by exact hl)]
  simp [State.looped, State.pushedLoop, State.freeWord, State.slot]

/-- The word's loop push on full loop stacks. -/
theorem pushLoop_word_full {s : State} {flush pcstk : Bool} {e : LoopEntry} {rest : List LoopEntry} (hb : s.seq.branches = [])
    (hl : s.seq.lcntrs = []) (hs : s.seq.loopStk = e :: rest) :
    ∃ x, (s.flushCache flush).pushLoopOp pcstk = .ok (s.looped flush true (x :: rest) [] true) := by
  refine ⟨{ laddr := s.freeWord 17, count := s.freeWord 18, start := s.freeWord 18, restored := if pcstk then .tied else .pushed }, ?_⟩
  rw [flushCache_eq, pushLoopOp_eq pcstk (by exact hb)]
  simp [State.pushLoop, hl, hs, State.looped, State.raise, Irq.num, State.freeWord, State.slot]

/-- The word's loop pop. -/
theorem popLoop_word {s : State} {flush : Bool} {l : LoopEntry} {loops : List LoopEntry} (hb : s.seq.branches = [])
    (hs : s.seq.loopStk = l :: loops) :
    (s.flushCache flush).popLoopOp = .ok (s.looped flush false loops (l.start :: s.seq.lcntrs) false) := by
  rw [flushCache_eq, popLoopOp_eq (e := l) (rest := loops) (by exact hb) (by exact hs)]
  simp [State.looped]

/-- Settles O46: the loop stacks first, then the other stacks of the word. -/
theorem stackOperations : Obligations.StackOperations := by
  intro s sts pcstk flush q slots same sameLoops stsPushed pcPushed samePc sameSts pushes pops restored hasPc
  have noSlots {P : PendingBranch → Prop} (hb : q.branches = []) : ∀ b ∈ s.seq.branches, P b := by
    rw [show s.seq.branches = [] from hb]
    exact fun b h => absurd h (by simp)
  refine ⟨?_, ?_, ?_, ?_, ?_, ?_, ?_⟩
  · intro hb c above hl
    obtain ⟨t, ht, hp⟩ := pushes_run (s.looped flush false (s.pushedLoop c pcstk :: s.seq.loopStk) above s.seq.loopOv) sts pcstk
      (fun _ => noSlots hb)
    rw [← pushLoop_word hb hl] at ht
    obtain ⟨⟨h1, h2, h3⟩, hw⟩ := hp.word
    exact ⟨t, congrArg Res.outcome ht, ⟨_, h1⟩, h2, h3, hw⟩
  · intro hb e rest hl hs
    obtain ⟨x, hx⟩ := pushLoop_word_full (flush := flush) (pcstk := pcstk) hb hl hs
    obtain ⟨t, ht, hp⟩ := pushes_run (s.looped flush true (x :: rest) [] true) sts pcstk (fun _ => noSlots hb)
    rw [← hx] at ht
    obtain ⟨⟨h1, h2, h3⟩, hw⟩ := hp.word
    exact ⟨t, congrArg Res.outcome ht, ⟨x, h1⟩, h2, h3, hw⟩
  · intro hb hr
    obtain ⟨t, ht, hp⟩ := pushes_run (s.looped flush false s.seq.loopStk s.seq.lcntrs s.seq.loopOv) true pcstk
      (fun h b hm => by simpa using hb h b hm)
    have hafter := pushAfter_eq (s := (s.flushCache flush).pushSts) pcstk (by rw [pushSts_loopStk, State.flushCache_seq]; exact hr)
    rw [← flushCache_looped] at ht
    obtain ⟨hl, hw⟩ := hp.word
    exact ⟨t, congrArg Res.outcome (hafter.trans ht), hl, hw⟩
  · intro hb hr
    obtain ⟨t, ht, hp⟩ := pushes_run (s.looped flush false s.seq.loopStk s.seq.lcntrs s.seq.loopOv) false true
      (fun h b hm => by simpa using hb h b hm)
    have hafter := pushAfter_eq (s := s.flushCache flush) true (by rw [State.flushCache_seq]; exact fun _ => hr)
    rw [← flushCache_looped] at ht
    obtain ⟨hl, hw⟩ := hp.word
    exact ⟨t, congrArg Res.outcome (hafter.trans ht), hl, hw⟩
  · intro hb l loops hs hst hpc
    obtain ⟨t, ht, hp⟩ := pops_run (s.looped flush false loops (l.start :: s.seq.lcntrs) false) sts pcstk hst (fun _ => noSlots hb) hpc
    rw [← popLoop_word hb hs] at ht
    obtain ⟨⟨h1, h2, h3⟩, hw⟩ := hp.word
    exact ⟨t, congrArg Res.outcome ht, h1, h2, h3, hw⟩
  · intro hb hst hpc
    obtain ⟨t, ht, hp⟩ := pops_run (s.looped flush false s.seq.loopStk s.seq.lcntrs s.seq.loopOv) true pcstk (fun _ => hst)
      (fun h b hm => by simpa using hb h b hm) hpc
    rw [← flushCache_looped] at ht
    obtain ⟨hl, hw⟩ := hp.word
    exact ⟨t, congrArg Res.outcome ht, hl, hw⟩
  · intro hb hpc
    obtain ⟨t, ht, hp⟩ := pops_run (s.looped flush false s.seq.loopStk s.seq.lcntrs s.seq.loopOv) false true (fun h => absurd h (by decide))
      (fun h b hm => by simpa using hb h b hm) (fun _ => hpc)
    rw [← flushCache_looped] at ht
    obtain ⟨hl, hw⟩ := hp.word
    exact ⟨t, congrArg Res.outcome ht, hl, hw⟩

end Sys2Proof.Machine
end

section
/-! PROOFS. NOP, IDLE and the passing of time (R85, R1053, R1070 to R1073). -/

namespace Sys2Proof.Machine

open Sys2Proof

/-! ### The timer in closed form -/

/-- TCOUNT after `c` cycles from `n` with the period `p`: down to zero, then from `p` again (R1071). -/
def countAfter (n p c : Nat) : Nat := if c ≤ n then n - c else p - (c - n - 1) % (p + 1)

/-- The timer reached zero within `c` cycles. -/
def expiredAfter (n p c : Nat) : Bool := decide ((0 < n ∧ n ≤ c) ∨ n + p + 1 ≤ c)

theorem countAfter_zero (n p : Nat) : countAfter n p 0 = n := by simp [countAfter]

theorem countAfter_le {n p c : Nat} (h : c ≤ n) : countAfter n p c = n - c := by simp [countAfter, h]

theorem countAfter_reload (n p d : Nat) : countAfter n p (n + 1 + d) = p - d % (p + 1) := by
  have h1 : ¬ n + 1 + d ≤ n := by omega
  have h2 : n + 1 + d - n - 1 = d := by omega
  rw [countAfter, if_neg h1, h2]

theorem mod_succ_step (d p : Nat) : (d + 1) % (p + 1) = if d % (p + 1) = p then 0 else d % (p + 1) + 1 := by
  have hd : d % (p + 1) < p + 1 := Nat.mod_lt _ (by omega)
  split
  · rename_i h
    have h0 : (d + 1) % (p + 1) = (p + 1) % (p + 1) := by
      rw [← Nat.mod_add_mod, h]
    simpa using h0
  · rename_i h
    rw [← Nat.mod_add_mod]
    exact Nat.mod_eq_of_lt (by omega)

/-- One more cycle: from zero to the period, else down by one. -/
theorem countAfter_succ (n p c : Nat) :
    countAfter n p (c + 1) = if countAfter n p c = 0 then p else countAfter n p c - 1 := by
  by_cases h : c < n
  · rw [countAfter_le (by omega), countAfter_le (by omega), if_neg (by omega)]
    omega
  · by_cases hn : c = n
    · subst hn
      rw [countAfter_le (Nat.le_refl c), show c + 1 = c + 1 + 0 from rfl, countAfter_reload]
      simp
    · obtain ⟨d, rfl⟩ : ∃ d, c = n + 1 + d := ⟨c - n - 1, by omega⟩
      rw [countAfter_reload, show n + 1 + d + 1 = n + 1 + (d + 1) from by omega, countAfter_reload, mod_succ_step]
      have hd : d % (p + 1) < p + 1 := Nat.mod_lt _ (by omega)
      by_cases hp : d % (p + 1) = p
      · simp [hp]
      · rw [if_neg hp, if_neg (by omega)]
        omega

/-- The count reaches zero in the cycle after `c`: at one, or from zero with a period of zero. -/
theorem expiredAfter_succ (n p c : Nat) : expiredAfter n p (c + 1) =
    (expiredAfter n p c || if countAfter n p c = 0 then decide (p = 0) else decide (countAfter n p c = 1)) := by
  unfold expiredAfter
  by_cases h : c < n
  · rw [countAfter_le (by omega), if_neg (by omega), Bool.eq_iff_iff]
    simp only [Bool.or_eq_true, decide_eq_true_eq]
    omega
  · by_cases hn : c = n
    · subst hn
      rw [countAfter_le (Nat.le_refl c), Nat.sub_self, if_pos rfl, Bool.eq_iff_iff]
      simp only [Bool.or_eq_true, decide_eq_true_eq]
      omega
    · obtain ⟨d, rfl⟩ : ∃ d, c = n + 1 + d := ⟨c - n - 1, by omega⟩
      rw [countAfter_reload]
      by_cases hd : d ≤ p
      · have hm : d % (p + 1) = d := Nat.mod_eq_of_lt (by omega)
        rw [hm, Bool.eq_iff_iff]
        by_cases hdp : d = p
        · simp only [Bool.or_eq_true, decide_eq_true_eq]
          omega
        · rw [if_neg (by omega)]
          simp only [Bool.or_eq_true, decide_eq_true_eq]
          omega
      · have he : decide ((0 < n ∧ n ≤ n + 1 + d) ∨ n + p + 1 ≤ n + 1 + d) = true := by
          simp only [decide_eq_true_eq]
          omega
        rw [he, Bool.true_or]
        simp only [decide_eq_true_eq]
        omega

theorem timerTick_toNat (count period : Word) : (timerTick count period).1.toNat =
    (if count.toNat = 0 then period.toNat else count.toNat - 1) ∧
    (timerTick count period).2 = if count.toNat = 0 then decide (period.toNat = 0) else decide (count.toNat = 1) := by
  have h0 (w : Word) : w = 0#32 ↔ w.toNat = 0 := ⟨by rintro rfl; rfl, fun h => BitVec.eq_of_toNat_eq (by simpa using h)⟩
  have h1 (w : Word) : w = 1#32 ↔ w.toNat = 1 := ⟨by rintro rfl; rfl, fun h => BitVec.eq_of_toNat_eq (by simpa using h)⟩
  unfold timerTick
  by_cases hc : count.toNat = 0
  · simp only [h0, hc, if_true, true_and]
  · simp only [h0, h1, hc, if_false, and_true]
    rw [BitVec.toNat_sub]
    have := count.isLt
    simp only [BitVec.toNat_ofNat]
    omega

/-- The running timer over `c` cycles. -/
theorem timerRun_eq (count period : Word) (c : Nat) :
    (timerRun count period c).1.toNat = countAfter count.toNat period.toNat c ∧
    (timerRun count period c).2 = expiredAfter count.toNat period.toNat c := by
  induction c with
  | zero =>
    refine ⟨by rw [countAfter_zero]; rfl, ?_⟩
    simp only [timerRun, expiredAfter, Bool.false_eq, decide_eq_false_iff_not]
    omega
  | succ c ih =>
    obtain ⟨h1, h2⟩ := ih
    obtain ⟨t1, t2⟩ := timerTick_toNat (timerRun count period c).1 period
    constructor
    · show (timerTick (timerRun count period c).1 period).1.toNat = _
      rw [t1, h1, countAfter_succ]
    · show ((timerRun count period c).2 || (timerTick (timerRun count period c).1 period).2) = _
      rw [t2, h1, h2, expiredAfter_succ]

/-! ### The passing of time -/

theorem append_toNat (a b : Word) : (a ++ b).toNat = a.toNat * 2 ^ 32 + b.toNat := by
  rw [BitVec.toNat_append, ← Nat.shiftLeft_add_eq_or_of_lt b.isLt, Nat.shiftLeft_eq]

/-- The emulation clock counters are one counter of 64 bits (R85). -/
theorem passClock_eq (y : Sys) (c : Nat) :
    (y.passClock c).emuclk2 ++ (y.passClock c).emuclk = (y.emuclk2 ++ y.emuclk) + BitVec.ofNat 64 c := by
  apply BitVec.eq_of_toNat_eq
  have h1 := y.emuclk.isLt
  rw [append_toNat, BitVec.toNat_add, append_toNat]
  simp only [Sys.passClock, BitVec.toNat_add, BitVec.toNat_ofNat]
  omega

/-- The cycles of the step from `s0` that ends in `s`. -/
def State.cycles (s0 s : State) : Nat := if s0.lightSleep then Config.freeCycles (s.slot 0) else Config.freeCycles (s.slot 0) + 1

/-- The clock after the passing of time. -/
theorem passTime_clock (s0 s : State) : (s0.passTime s).sys.emuclk = (s.sys.passClock (s0.cycles s)).emuclk ∧
    (s0.passTime s).sys.emuclk2 = (s.sys.passClock (s0.cycles s)).emuclk2 := by
  unfold State.passTime State.passTimer State.cycles
  dsimp only
  split
  · exact ⟨rfl, rfl⟩
  · split
    · exact ⟨rfl, rfl⟩
    · rw [raiseIf_sys, raiseIf_sys]
      exact ⟨rfl, rfl⟩

/-- In light sleep, and with a timer that is off and stays so, the timer stands. -/
theorem passTime_still {s0 s : State} (h : s0.lightSleep = true ∨ (s0.sys.timer = .off ∧ s.sys.mode2.getLsbD 5 = false)) :
    (s0.passTime s).sys.tcount = s.sys.tcount ∧ (s0.passTime s).sys.timer = s.sys.timer ∧ (s0.passTime s).bus = s.bus := by
  unfold State.passTime
  dsimp only
  split
  · exact ⟨rfl, rfl, rfl⟩
  · rename_i hn
    obtain ⟨ht, hm⟩ := h.resolve_left hn
    have hm' : (s.sys.passClock (Config.freeCycles (s.slot 0) + 1)).mode2.getLsbD 5 = false := hm
    simp only [State.passTimer, ht, hm']
    exact ⟨rfl, rfl, trivial⟩

/-- The running timer over the cycles of a step that writes neither of its registers. -/
theorem passTime_running {s0 s : State} (hl : s0.lightSleep = false) (ht : s0.sys.timer = .on) (hm : s.sys.mode2.getLsbD 5 = true)
    (hw : s.bdry.tcountWritten = false) (hp : s.sys.tperiod = s0.sys.tperiod) :
    let r := timerRun s0.sys.tcount s0.sys.tperiod (s0.cycles s)
    (s0.passTime s).sys.timer = .on ∧ (s0.passTime s).bus = (if r.2 then .timerExpired :: s.bus else s.bus) ∧
    (s0.passTime s).sys.tcount = r.1 ∧
    ∀ k ∈ [11, 22], (s0.passTime s).sys.irptl.getLsbD k = (s.sys.irptl.getLsbD k || r.2) := by
  have hm' (c : Nat) : (s.sys.passClock c).mode2.getLsbD 5 = true := hm
  have hp' (c : Nat) : (s.sys.passClock c).tperiod = s0.sys.tperiod := hp
  have hc : s0.cycles s = Config.freeCycles (s.slot 0) + 1 := by simp [State.cycles, hl]
  rw [hc]
  unfold State.passTime
  simp only [hl, Bool.false_eq_true, if_false]
  unfold State.passTimer
  simp only [ht, hm', TimerPhase.pass, timerStep, hw, hp', Bool.false_eq_true, if_false]
  refine ⟨?_, ?_, ?_, ?_⟩
  · rw [raiseIf_sys, raiseIf_sys]
  · rw [State.raiseIf_bus, State.raiseIf_bus]
    rfl
  · rw [raiseIf_sys, raiseIf_sys]
    rfl
  · intro k hk
    have h32 : k < 32 := by simp at hk; omega
    rw [raiseIf_latched _ _ _ _ h32, raiseIf_latched _ _ _ _ h32]
    simp only [List.mem_cons, List.not_mem_nil, or_false] at hk
    rcases hk with rfl | rfl <;> simp [Irq.num, timerRun, Sys.passClock]

/-- Time passes at the end of every step. -/
theorem closeStep_timePasses (s0 s : State) : TimePasses s0 s (s0.closeStep s) := by
  obtain ⟨k1, k2⟩ := passTime_clock s0 s
  have hsys : (s0.closeStep s).sys.emuclk = (s0.passTime s).sys.emuclk ∧ (s0.closeStep s).sys.emuclk2 = (s0.passTime s).sys.emuclk2 ∧
      (s0.closeStep s).sys.tcount = (s0.passTime s).sys.tcount ∧ (s0.closeStep s).sys.timer = (s0.passTime s).sys.timer ∧
      (s0.closeStep s).bus = (s0.passTime s).bus := by
    unfold State.closeStep
    dsimp only
    rw [arithLevels_sys, State.arithLevels_bus]
    exact ⟨rfl, rfl, rfl, rfl, rfl⟩
  obtain ⟨e1, e2, etc, etm, ebus⟩ := hsys
  refine ⟨s0.cycles s, fun h => by simp [State.cycles, h], ?_, closeStep_bus s0 s, fun h => ?_, fun h1 h2 => ?_, ?_⟩
  · rw [e1, e2, k1, k2, passClock_eq]
  · rw [etc, etm, ebus]
    exact passTime_still (.inl h)
  · rw [etc, etm, ebus]
    exact passTime_still (.inr ⟨h1, h2⟩)
  · intro hl ht hm hw hp n period expired
    obtain ⟨r1, r2, r3, r4⟩ := passTime_running hl ht hm hw hp
    obtain ⟨q1, q2⟩ := timerRun_eq s0.sys.tcount s0.sys.tperiod (s0.cycles s)
    have he : expired = (timerRun s0.sys.tcount s0.sys.tperiod (s0.cycles s)).2 := q2.symm
    rw [etm, etc, ebus, he, r2, r3]
    refine ⟨r1, rfl, q1, fun k hk => ?_⟩
    have hk' : k < 32 ∧ k ≠ 15 ∧ (s0.passTime s).sys.levels k = false := by
      simp only [List.mem_cons, List.not_mem_nil, or_false] at hk
      rcases hk with rfl | rfl <;> simp [Sys.levels]
    obtain ⟨h32, h15, hlev⟩ := hk'
    rw [closeStep_irptl _ _ _ h32, arithLevels_latched _ _ h32, hlev, r4 k hk]
    simp [h15, Bool.and_comm]

/-- The passing of time looks at the clock, the timer, its latches and the bus alone. -/
theorem TimePasses.congr {s u v t : State} (h : TimePasses s v t) (hsys : v.sys = { u.sys with
    mode1Act := v.sys.mode1Act, condx := v.sys.condx, condy := v.sys.condy, irptl := v.sys.irptl })
    (hirptl : ∀ k ∈ [11, 22], v.sys.irptl.getLsbD k = u.sys.irptl.getLsbD k) (hbus : v.bus = u.bus)
    (hw : v.bdry.tcountWritten = u.bdry.tcountWritten) : TimePasses s u t := by
  obtain ⟨c, h1, h2, h3, h4, h5, h6⟩ := h
  rw [hbus] at h3 h4 h5 h6
  rw [hw] at h6
  have hk (k : Nat) (hk : k ∈ [11, 22]) := hirptl k hk
  rw [hsys] at h2 h4 h5 h6
  refine ⟨c, h1, h2, h3, h4, h5, fun a b c d e => ?_⟩
  obtain ⟨g1, g2, g3, g4⟩ := h6 a b c d e
  exact ⟨g1, g2, g3, fun k hm => by rw [← hk k hm]; exact g4 k hm⟩

/-! ### The boundary of an instruction and the idle step -/

@[simp] theorem passTime_excl (s0 s : State) : (s0.passTime s).excl = s.excl := by
  unfold State.passTime State.passTimer
  dsimp only
  (repeat' split) <;> simp

@[simp] theorem passTime_cache (s0 s : State) : (s0.passTime s).cache = s.cache := by
  unfold State.passTime State.passTimer
  dsimp only
  (repeat' split) <;> simp

@[simp] theorem closeStep_excl (s0 s : State) : (s0.closeStep s).excl = s.excl := by simp [State.closeStep]

@[simp] theorem closeStep_cache (s0 s : State) : (s0.closeStep s).cache = s.cache := by simp [State.closeStep]

theorem loopEnd_frame {s t : State} (h : s.loopEnd = .ok t) : t = { s with seq := t.seq } := by
  cases hs : s.seq.loopStk with
  | nil =>
    simp only [State.loopEnd, hs, Except.ok.injEq] at h
    rw [h]
  | cons e rest =>
    rcases loopEnd_ok hs h with hp | ⟨-, e', -, -, rfl⟩
    · obtain ⟨-, rfl⟩ := popPc_ok hp
      rfl
    · rfl

theorem closeLoop_frame {s0 s t : State} {len : Nat} (h : s0.closeLoop s len = .ok t) : t = { s with seq := t.seq } := by
  obtain ⟨-, ⟨-, rfl⟩ | ⟨-, -, -, -, hl⟩⟩ := closeLoop_ok h
  · rfl
  · exact loopEnd_frame hl

@[simp] theorem breakpoints_bdry (s0 s : State) : (s0.breakpoints s).bdry = s.bdry := by
  unfold State.breakpoints; dsimp only; (repeat' split) <;> simp

@[simp] theorem loseLoops_sys (s : State) : s.loseLoops.sys = s.sys := by unfold State.loseLoops; split <;> rfl

@[simp] theorem loseLoops_bdry (s : State) : s.loseLoops.bdry = s.bdry := by unfold State.loseLoops; split <;> rfl

/-- Time passes at the end of every instruction. -/
theorem finish_timePasses {s u t : State} {len : Nat} (h : s.finish u len = .ok t) (hs : s.seq.srst ≠ 1) : TimePasses s u t := by
  obtain ⟨-, v, hv, ⟨h1, -⟩ | ⟨-, -, rfl⟩⟩ := finish_ok h
  · exact absurd h1 hs
  · have hvu := closeLoop_frame hv
    have hsys : v.sys = u.sys := by rw [hvu]
    have hbus : v.bus = u.bus := by rw [hvu]
    have hbdry : v.bdry = u.bdry := by rw [hvu]
    refine (closeStep_timePasses s _).congr ?_ ?_ ?_ ?_
    · rw [breakpoints_sys]
      simp only [State.passCalls, State.passLatencies, loseLoops_sys, State.settlePcstkp_sys, hsys]
    · intro k hk
      have hk' : k < 32 ∧ k ≠ 12 := by simp at hk; omega
      rw [breakpoints_latched _ _ _ hk'.1 hk'.2]
      simp only [State.passCalls, State.passLatencies, loseLoops_sys, State.settlePcstkp_sys, hsys]
    · simp only [breakpoints_bus, State.passCalls, State.passLatencies, loseLoops_bus, State.settlePcstkp_bus, hbus]
    · simp only [breakpoints_bdry, State.passCalls, State.passLatencies, loseLoops_bdry, State.settlePcstkp_bdry, hbdry]

/-- Settles O47. -/
theorem noOperations : Obligations.NoOperations := by
  refine ⟨fun s => ⟨rfl, rfl, rfl, rfl, fun ha => ?_⟩, fun s ha hi => ?_, fun s u t len h hs => finish_timePasses h hs⟩
  · have hemu : execEmuidle s = .next s := by simp [execEmuidle, ha, Res.outcome]
    have hidle : execIdle s = .next s.goIdle := by simp [execIdle, ha, Res.outcome]
    refine ⟨hemu, hemu, fun i hm => ?_⟩
    simp only [List.mem_cons, List.not_mem_nil, or_false] at hm
    rcases hm with rfl | rfl
    · exact hidle
    · exact hidle
  · refine ⟨s.closeStep s, by simp [step, ha, hi], closeStep_timePasses s s, closeStep_seq s s, closeStep_data s s,
      closeStep_dag s s, closeStep_mmr s s, closeStep_posted s s, closeStep_excl s s, closeStep_cache s s, fun p => closeStep_read s s p⟩

end Sys2Proof.Machine
end

section
/-! PROOFS. System registers: bit operations and writable bits (R130 to R210, R661). -/

namespace Sys2Proof.Machine

open Sys2Proof

/-! ### Bit operations -/

/-- The complementary register that PEy works on: in SIMD mode, if there is one. -/
theorem partner_cases (s : State) (r : SysReg) :
    (s.simd = false ∧ s.bitPartner r = none) ∨ (s.simd = true ∧ compOf (.sys r) = none ∧ s.bitPartner r = none) ∨
    (s.simd = true ∧ ∃ c, compOf (.sys r) = some (.sys c) ∧ s.bitPartner r = some c) := by
  unfold State.bitPartner
  cases s.simd with
  | false => exact .inl ⟨rfl, rfl⟩
  | true =>
    refine .inr ?_
    cases r <;> simp [compOf]

theorem bitWrite_writes {i : Instr} {s : State} {r : SysReg} {f : Word → Word} (he : exec i s = .next (s.bitWrite r f)) :
    WritesBits i s r f := by
  refine ⟨_, he, ?_⟩
  unfold State.bitWrite
  rcases partner_cases s r with ⟨h1, h2⟩ | ⟨h1, h2, h3⟩ | ⟨h1, c, h2, h3⟩
  · rw [h1, h2]
  · rw [h1, h2, h3]
  · rw [h1, h2, h3]

theorem bitTest_eq (s : State) (r : SysReg) (f : Word → Bool) : s.bitTest r f = { s with sys := { s.sys with
    astatx := putBit s.sys.astatx 18 (f (s.readSys r))
    astaty := match s.bitPartner r with
      | some c => putBit s.sys.astaty 18 (f (s.readSys c))
      | none => s.sys.astaty } } := by
  unfold State.bitTest
  cases s.bitPartner r <;> rfl

theorem putBit_mask (x : Word) (i : Nat) (b : Bool) (hi : i < 32) : putBit x i b &&& ~~~(1#32 <<< i) = x &&& ~~~(1#32 <<< i) := by
  apply BitVec.eq_of_getLsbD_eq
  intro k hk
  rw [BitVec.getLsbD_and, BitVec.getLsbD_and, BitVec.getLsbD_not, putBit_getLsbD _ _ _ _ hi, oneShift_getLsbD _ _ hk]
  by_cases h : k = i <;> simp [h, hk]

/-- A write of BTF leaves the other bits of ASTAT alone. -/
theorem putBit_btf (x : Word) (b : Bool) : putBit x 18 b &&& 0xFFFBFFFF#32 = x &&& 0xFFFBFFFF#32 :=
  putBit_mask x 18 b (by decide)

theorem putBit_same (x : Word) (b : Bool) : (putBit x 18 b).getLsbD 18 = b := by
  rw [putBit_getLsbD _ _ _ _ (by decide), if_pos rfl]

/-- BIT TST and XOR, the latter with its marks. -/
theorem bitTest_tests {i : Instr} {s : State} {r : SysReg} {marks : Bool} {f : Word → Bool} {t : State}
    (he : exec i s = .next t) (ht : t = { s.bitTest r f with bdry := { s.bdry with
      astatxWritten := s.bdry.astatxWritten || marks, astatyWritten := s.bdry.astatyWritten || (marks && s.simd) } }) :
    TestsBits i s r marks f := by
  refine ⟨t, he, ?_⟩
  rw [bitTest_eq] at ht
  rw [ht]
  refine ⟨putBit_same _ _, putBit_btf _ _, ?_, ?_, rfl⟩
  · rcases partner_cases s r with ⟨h1, h2⟩ | ⟨h1, h2, h3⟩ | ⟨h1, c, h2, h3⟩
    · simp only [State.astat, h2, if_true]
    · simp only [State.astat, h3, if_true]
    · simp only [State.astat, h3, if_true, putBit_btf]
  · rcases partner_cases s r with ⟨h1, h2⟩ | ⟨h1, h2, h3⟩ | ⟨h1, c, h2, h3⟩
    · simp only [State.flagOf, State.astat, h1, h2, if_true]
    · simp only [State.flagOf, State.astat, h1, h2, h3, if_true]
    · simp only [State.flagOf, State.astat, h1, h2, h3, if_true, putBit_same]

/-- The marks of BIT XOR: those of an explicit write of the registers whose BTF it sets. -/
theorem markXor_eq (s : State) (r : SysReg) (f : Word → Bool) : (s.bitTest r f).markXor r = { s.bitTest r f with bdry := { s.bdry with
    astatxWritten := s.bdry.astatxWritten || (r == .astatx || r == .astaty)
    astatyWritten := s.bdry.astatyWritten || ((r == .astatx || r == .astaty) && s.simd) } } := by
  have hp : (s.bitTest r f).bitPartner r = s.bitPartner r := by rw [bitTest_eq]; rfl
  unfold State.markXor
  rw [hp]
  split
  · rename_i hr
    have hs : (s.bitPartner r).isSome = s.simd := by
      unfold State.bitPartner
      simp only [Bool.or_eq_true, beq_iff_eq] at hr
      rcases hr with rfl | rfl <;> cases s.simd <;> rfl
    rw [hr, hs, bitTest_eq]
    simp
  · rename_i hr
    rw [Bool.not_eq_true] at hr
    rw [hr, bitTest_eq]
    simp

/-! ### Writable bits -/

/-- A flag's direction, as FLAGS reads it. -/
theorem flagsRead_direction (y : Sys) (k : Fin 4) : y.flagsRead.getLsbD (2 * k + 1) = y.flags.getLsbD (2 * k + 1) := by
  fin_cases k <;> simp [Sys.flagsRead]

/-- FLAGS after a write. -/
def State.flagsWritten (s : State) (v : Word) : Word :=
  s.flagWrite v 0 ||| s.flagWrite v 1 ||| s.flagWrite v 2 ||| s.flagWrite v 3

/-- The value bit that a write leaves of a flag that it makes an output. -/
def State.flagLeft (s : State) (v : Word) (k : Nat) : Bool :=
  if (v.getLsbD (2 * k + 1) != s.sys.flags.getLsbD (2 * k + 1)) && (v.getLsbD (2 * k) != s.sys.flag k) then
    Config.freeBit (s.slot (10 + k)) else v.getLsbD (2 * k)

theorem flagWrite_eq (s : State) (v : Word) (k : Nat) : s.flagWrite v k =
    flagBit (2 * k + 1) (v.getLsbD (2 * k + 1)) ||| flagBit (2 * k) (v.getLsbD (2 * k + 1) && s.flagLeft v k) := rfl

theorem flagsWritten_direction (s : State) (v : Word) (k : Fin 4) :
    (s.flagsWritten v).getLsbD (2 * k + 1) = v.getLsbD (2 * k + 1) := by
  simp only [State.flagsWritten, flagWrite_eq]
  fin_cases k <;> simp

theorem flagsWritten_value (s : State) (v : Word) (k : Fin 4) :
    (s.flagsWritten v).getLsbD (2 * k) = (v.getLsbD (2 * k + 1) && s.flagLeft v k) := by
  simp only [State.flagsWritten, flagWrite_eq]
  fin_cases k <;> simp

/-- What a write of FLAGS leaves of core flag `k` (R165). -/
theorem flag_written (s : State) (v : Word) (k : Fin 4) :
    let x := ((s.writeU (.sys .flags) v).readU (.sys .flags))
    x.getLsbD (2 * k + 1) = v.getLsbD (2 * k + 1) ∧
    (v.getLsbD (2 * k + 1) = true → s.sys.flags.getLsbD (2 * k + 1) = true → x.getLsbD (2 * k) = v.getLsbD (2 * k)) ∧
    (v.getLsbD (2 * k + 1) = false → x.getLsbD (2 * k) = s.sys.pins.getLsbD k) := by
  intro x
  have hx : x = ({ s.sys with flags := s.flagsWritten v } : Sys).flagsRead := rfl
  rw [hx]
  refine ⟨?_, fun h1 h2 => ?_, fun h1 => ?_⟩
  · rw [flagsRead_direction]
    exact flagsWritten_direction s v k
  · rw [flagsRead_getLsbD, Sys.flag, flagsWritten_direction, if_pos h1, flagsWritten_value, h1, State.flagLeft, h1, h2]
    rfl
  · rw [flagsRead_getLsbD, Sys.flag, flagsWritten_direction, h1]
    rfl

/-- STKYX reads its own sticky bits beside the state of the stacks. -/
theorem stkyx_written (s : State) (v : Word) :
    (s.writeU (.sys .stkyx) v).readU (.sys .stkyx) = (v &&& stkyxMask) ||| s.seq.stackBits := by
  change ((v &&& stkyxMask) &&& stkyxMask) ||| s.seq.stackBits = _
  rw [BitVec.and_assoc, BitVec.and_self]

/-- The stack bits of STKYX lie in bits 21 to 26. -/
theorem stackBits_outside (q : Seq) : q.stackBits &&& ~~~0x7E00000#32 = 0#32 := by
  unfold Seq.stackBits flagBit
  generalize q.loopStk.isEmpty = a
  generalize q.loopOv = b
  generalize q.stsStk.isEmpty = c
  generalize q.stsOv = d
  generalize (q.pcStk.isEmpty && !q.pcOv) = e
  generalize (q.pcOv || decide (30 ≤ q.pcStk.length)) = f
  revert a b c d e f
  decide

theorem stkyx_written_outside (s : State) (v : Word) :
    (s.writeU (.sys .stkyx) v).readU (.sys .stkyx) &&& ~~~0x7E00000#32 = v &&& 0x1E03E7#32 := by
  have hk := stackBits_outside s.seq
  rw [stkyx_written]
  apply BitVec.eq_of_getLsbD_eq
  intro i hi
  have hb := congrArg (·.getLsbD i) hk
  simp only [BitVec.getLsbD_and, BitVec.getLsbD_or, BitVec.getLsbD_zero] at hb ⊢
  rw [Bool.and_or_distrib_right, hb, Bool.or_false, Bool.and_assoc, ← BitVec.getLsbD_and (x := stkyxMask)]
  rfl

theorem mode1stk_written (s : State) (v : Word) (h : s.seq.stsStk ≠ []) :
    (s.writeU (.sys .mode1stk) v).readU (.sys .mode1stk) = v &&& 0xF9E1FCFF#32 := by
  change State.mode1stk { s with seq := s.seq.setMode1stk (v &&& mode1Mask) } = _
  unfold State.mode1stk Seq.setMode1stk
  cases hq : s.seq.stsStk with
  | nil => exact absurd hq h
  | cons e t => rfl

/-- Settles O49: each operation is one write or one test by definition; the writable bits go register by register. -/
theorem systemRegisters : Obligations.SystemRegisters := by
  unfold Obligations.SystemRegisters
  refine ⟨fun s r d => ⟨bitWrite_writes rfl, bitWrite_writes rfl, bitWrite_writes rfl, bitTest_tests rfl ?_,
    bitTest_tests rfl ?_⟩, fun s v => ?_⟩
  · simp only [bitTest_eq, Bool.or_false, Bool.false_and]
    rfl
  · rw [markXor_eq]
    rfl
  · intro after
    refine ⟨?_, ?_, rfl, ?_, rfl, rfl, rfl, stkyx_written_outside s v, ?_, ?_, ?_, mode1stk_written s v,
      fun k hk => flag_written s v ⟨k, hk⟩⟩
    · simp only [List.forall_mem_cons, List.not_mem_nil, false_imp_iff, implies_true, and_true]
      exact ⟨rfl, rfl, rfl, rfl⟩
    · simp only [List.forall_mem_cons, List.not_mem_nil, false_imp_iff, implies_true, and_true]
      exact ⟨rfl, rfl⟩
    · simp only [List.forall_mem_cons, List.not_mem_nil, false_imp_iff, implies_true, and_true]
      exact ⟨rfl, rfl, rfl⟩
    · simp only [after, stkyx_written]
      simp [Seq.stackBits, stkyxMask]
    · simp only [after, stkyx_written]
      simp [Seq.stackBits, stkyxMask]
    · simp only [after, stkyx_written]
      simp [Seq.stackBits, stkyxMask]

end Sys2Proof.Machine
end

section
/-! PROOFS. Writes of the sequencer's registers (R64, R65, R68 to R70). -/

namespace Sys2Proof.Machine

open Sys2Proof

/-! ### Moves that only write registers -/

/-- A move without a memory access is its register writes. -/
theorem applyFx_regs (s : State) (l : List (UReg × RegVal)) : s.applyFx { regs := l } = s.applyRegs l := by
  have hm : { s.applyRegs l with mem := s.mem } = s.applyRegs l := by rw [← State.applyRegs_mem s l]
  refine Eq.trans ?_ hm
  simp [State.applyFx, State.applyLatches, State.raiseIf, State.applyUpdate, State.applyMemory, State.useLines]

@[simp] theorem applyRegs_nil (s : State) : s.applyRegs [] = s := rfl

@[simp] theorem applyRegs_cons (s : State) (u : UReg) (x : RegVal) (l : List (UReg × RegVal)) :
    s.applyRegs ((u, x) :: l) = (s.writeVal u x).applyRegs l := rfl

/-- A constant to a register that has no complement is one write, in every mode (R628). -/
theorem exec_moveImm_alone (s : State) {u : UReg} (v : Word) (h : compOf u = none) : exec (.moveImm u v) s = .next (s.writeU u v) := by
  have hf : s.immFx u v = { regs := [(u, .w32 v)] } := by simp [State.immFx, h]
  change Host.Outcome.next (s.applyFx (s.immFx u v)) = _
  rw [hf, applyFx_regs, applyRegs_cons, applyRegs_nil, writeVal_w32]

/-! ### The refusals of writes of the sequencer's registers outside delay slots -/

theorem pcstkRefusal_none {q : Seq} (hb : q.branches = []) (h : ∀ e ∈ q.loopStk.head?, e.restored = .whole) :
    q.pcstkRefusal = none := by
  unfold Seq.pcstkRefusal
  cases hl : q.loopStk with
  | nil => simp [hb]
  | cons e rest => simp [hb, h e (by simp [hl])]

theorem laddrRefusal_none {q : Seq} (hb : q.branches = [])
    (h : ∀ e ∈ q.loopStk.head?, e.restored = .whole ∨ e.restored = .counted) : q.laddrRefusal = none := by
  unfold Seq.laddrRefusal
  cases hl : q.loopStk with
  | nil => simp [hb]
  | cons e rest => rcases h e (by simp [hl]) with h | h <;> simp [hb, h]

theorem curlcntrRefusal_none {q : Seq} (hb : q.branches = []) (h : ∀ e ∈ q.loopStk.head?, e.restored ≠ .tied) :
    q.curlcntrRefusal = none := by
  unfold Seq.curlcntrRefusal
  cases hl : q.loopStk with
  | nil => simp [hb]
  | cons e rest => simp [hb, h e (by simp [hl])]

theorem setPcstk_cons {q : Seq} {w : Word} {rest : List Word} (v : Word) (h : q.pcStk = w :: rest) :
    q.setPcstk v = { q with pcStk := if q.pcOv then w :: rest else v :: rest } := by
  unfold Seq.setPcstk
  split
  · rw [← h]
  · rw [h]

/-- A constant to a sequencer register whose write is not refused replaces the sequencer alone. -/
theorem moveImm_guarded {s : State} {u : UReg} {v : Word} {q q' : Seq} {r : Option Refusal} (hc : compOf u = none)
    (hw : s.writeU u v = s.guarded q r) (hr : r = none) (hq : q = q') :
    Completes (.moveImm u v) s fun t => t = { s with seq := q' } :=
  ⟨_, exec_moveImm_alone s v hc, by rw [hw, hr, hq]; rfl⟩

/-! ### A pending write of PCSTKP (R65) -/

/-- What a write of PCSTKP leaves once it takes effect. -/
theorem settlePcstkp_stack (s : State) (n : BitVec 5) :
    let u := s.settlePcstkp (some n)
    let depth := min n.toNat 30
    if s.seq.pcOv then u.seq.pcStk = s.seq.pcStk ∧ u.seq.pcOv = true
    else u.seq.pcOv = decide (n = 31#5) ∧
      (depth ≤ s.seq.pcStk.length → u.seq.pcStk = s.seq.pcStk.drop (s.seq.pcStk.length - depth)) ∧
      (s.seq.pcStk.length < depth → ∃ fresh, u.seq.pcStk = fresh ++ s.seq.pcStk ∧ u.seq.pcStk.length = depth) := by
  intro u depth
  cases hov : s.seq.pcOv with
  | true => exact ⟨by simp [u, State.settlePcstkp, hov], by simp [u, State.settlePcstkp, hov]⟩
  | false =>
    refine ⟨?_, fun h => ?_, fun h => ?_⟩
    · simp [u, State.settlePcstkp, hov, BitVec.toNat_eq]
    · simp only [u, State.settlePcstkp, hov, Bool.false_eq_true, if_false]
      rw [if_pos h]
    · have hle : ¬ depth ≤ s.seq.pcStk.length := by omega
      refine ⟨List.replicate (depth - s.seq.pcStk.length) (s.freeWord 22), ?_, ?_⟩
      · simp only [u, State.settlePcstkp, hov, Bool.false_eq_true, if_false]
        rw [if_neg hle]
      · simp only [u, State.settlePcstkp, hov, Bool.false_eq_true, if_false]
        rw [if_neg hle]
        simp only [List.length_append, List.length_replicate]
        omega

theorem loseLoops_pcStk (s : State) : s.loseLoops.seq.pcStk = s.seq.pcStk ∧ s.loseLoops.seq.pcOv = s.seq.pcOv ∧
    s.loseLoops.seq.pcStkpNew = s.seq.pcStkpNew := by
  unfold State.loseLoops
  split <;> exact ⟨rfl, rfl, rfl⟩

theorem passSlots_pcStk (q : Seq) : q.passSlots.pcStk = q.pcStk ∧ q.passSlots.pcOv = q.pcOv ∧ q.passSlots.pcStkpNew = q.pcStkpNew := by
  unfold Seq.passSlots
  dsimp only
  (repeat' split) <;> exact ⟨rfl, rfl, rfl⟩

theorem settlePcstkp_new (s : State) (w : Option (BitVec 5)) : (s.settlePcstkp w).seq.pcStkpNew = s.seq.pcStkpNew := by
  unfold State.settlePcstkp
  dsimp only
  (repeat' split) <;> rfl

/-- At the boundary the due write of PCSTKP has its effect, and nothing else moves the PC stack. -/
theorem finished_pcStk (s0 u : State) (len : Nat) :
    let v := u.settlePcstkp u.seq.pcStkpDue
    (s0.finished u len).seq.pcStk = v.seq.pcStk ∧ (s0.finished u len).seq.pcOv = v.seq.pcOv ∧
    (s0.finished u len).seq.pcStkpNew = u.seq.pcStkpNew ∧ (s0.finished u len).seq.pcStkpDue = none := by
  intro v
  obtain ⟨hl1, hl2, hl3⟩ := loseLoops_pcStk v
  obtain ⟨hs1, hs2, hs3⟩ := passSlots_pcStk v.loseLoops.seq
  simp only [State.finished, closeStep_seq, breakpoints_seq, State.passCalls, State.passLatencies]
  exact ⟨hs1.trans hl1, hs2.trans hl2, hs3.trans (hl3.trans (settlePcstkp_new u _)), trivial⟩

/-- Settles O34. -/
theorem sequencerRegisters : Obligations.SequencerRegisters := by
  refine ⟨fun s v hb => ?_, ?_⟩
  · intro sets
    refine ⟨fun w rest hw hl => ?_, fun hp hl => ?_, ?_, fun hl => ⟨?_, ?_⟩, fun e rest hl => ⟨fun h => ?_, fun h hc => ?_,
      fun h hc => ?_, fun h => ?_⟩, fun hl => ?_, fun c above hl => ?_⟩
    · refine moveImm_guarded rfl rfl (pcstkRefusal_none hb hl) ?_
      exact setPcstk_cons v hw
    · refine moveImm_guarded rfl rfl (pcstkRefusal_none hb hl) ?_
      simp [Seq.setPcstk, hp]
    · exact moveImm_guarded rfl rfl (by simp [Seq.slotRefusal, hb]) rfl
    · exact moveImm_guarded rfl rfl (laddrRefusal_none hb (by simp [hl])) (by simp [Seq.setLaddr, hl])
    · exact moveImm_guarded rfl rfl (curlcntrRefusal_none hb (by simp [hl])) (by simp [Seq.setCurlcntr, hl])
    · exact moveImm_guarded rfl rfl (laddrRefusal_none hb (by simpa [hl] using h)) (by simp [Seq.setLaddr, hl])
    · refine moveImm_guarded rfl rfl (curlcntrRefusal_none hb (by simp [hl, h])) ?_
      simp [Seq.setCurlcntr, hl, h, loopTerm, hc]
    · refine moveImm_guarded rfl rfl (curlcntrRefusal_none hb (by simp [hl, h])) ?_
      simp [Seq.setCurlcntr, hl, h, loopTerm, hc]
    · refine moveImm_guarded rfl rfl (curlcntrRefusal_none hb ?_) ?_
      · rcases h with h | h <;> simp [hl, h]
      · rcases h with h | h <;> simp [Seq.setCurlcntr, hl, h]
    · exact ⟨_, exec_moveImm_alone s v rfl, by simp [State.writeU, Seq.setLcntr, hl]⟩
    · exact ⟨_, exec_moveImm_alone s v rfl, by simp [State.writeU, Seq.setLcntr, hl]⟩
  · intro s t f i n ha hi hsr hf hs hd hl hb hn he ht hr htk
    have hq := begin_seq_noLoop f.len hl
    refine ⟨by rw [hq], by rw [hq], ?_⟩
    obtain ⟨-, -, hseq, hbdry, -⟩ := afterFetch_keeps (s.begin f.len) t f.bytes
    have hredirects : t.seq.redirects t.bdry.taken = false := by simp [Seq.redirects, ht, hq, hb, htk]
    have hstep := (step_outside ha hi hf hs hd hl he hr).2 hsr (.inl hredirects)
    obtain ⟨hstk, hov, hnew, hdue⟩ := finished_pcStk (s.begin f.len) ((s.begin f.len).afterFetch t f.bytes) f.len
    have hsettle := settlePcstkp_stack ((s.begin f.len).afterFetch t f.bytes) n
    have hnow : t.seq.pcStkpDue = some n := by rw [ht, hq]; exact hn
    rw [hseq, hnow] at hstk hov
    rw [hseq, ht, hq] at hsettle hnew
    refine ⟨_, hstep, hnew, hdue, ?_⟩
    rw [hstk, hov]
    exact hsettle

end Sys2Proof.Machine
end

section
/-! PROOFS. The ends of loops, their checks and the watch on calls (R590, R592). -/

namespace Sys2Proof.Machine

open Sys2Proof

/-! ### The check of an arithmetic loop -/

theorem condOf_notLce : ∀ term : BitVec 5, condOf term = .notLce → term = 0b01111#5 := by decide

/-- The conditions but NOT LCE see the status registers and the pointer of the bit FIFO alone. -/
theorem cond_congr {s t : State} (hsys : t.sys = s.sys) (hdata : t.data = s.data) (y : Bool) {c : Cond} (hc : c ≠ .notLce) :
    t.cond y c = s.cond y c := by
  cases c with
  | notLce => exact absurd rfl hc
  | _ => simp [State.cond, State.condAstat, State.mode, hsys, hdata]

/-- The condition that ends an arithmetic loop, from the status registers. -/
theorem loopCond_congr {s t : State} (hsys : t.sys = s.sys) (hdata : t.data = s.data) {e : LoopEntry}
    (he : e.laddr.extractLsb' 24 5 ≠ 0b01111#5) : t.loopCond (loopTerm e.laddr) = s.endsLoop e := by
  have hc : condOf (e.laddr.extractLsb' 24 5) ≠ .notLce := fun h => he (condOf_notLce _ h)
  simp only [State.loopCond, State.endsLoop, loopTerm, State.simd, State.mode, cond_congr hsys hdata _ hc, hsys]

theorem flagLate_cond {s : State} {term : BitVec 5} (h : s.flagLate term = true) : condOf term ∈ [.mv, .ms, .notMv, .notMs] := by
  unfold State.flagLate at h
  split at h <;> simp_all

theorem hasTurned_iff (c : CallMark) : c.hasTurned = true ↔ ∃ d, c = .turned d := by
  cases c <;> simp [CallMark.hasTurned]

/-- The check of a loop at its check instruction. -/
theorem checkLoop_checked {s t : State} (hsys : t.sys = s.sys) (hdata : t.data = s.data) (k n : Nat) {e : LoopEntry}
    (he : e.laddr.extractLsb' 24 5 ≠ 0b01111#5) : LoopChecked s n e (t.checkLoop k n e) := by
  unfold State.checkLoop
  dsimp only
  rw [loopCond_congr hsys hdata he]
  refine ⟨fun hm => by rw [if_pos hm], fun hm hc => by simp [hm, hc], fun hm hc => ?_⟩
  rw [if_neg (by simp [hm]), if_pos hc]
  split
  · rename_i h
    simp only [Bool.and_eq_true, Bool.or_eq_true] at h
    exact .inr ⟨rfl, h.1.symm.imp (hasTurned_iff _).1 flagLate_cond⟩
  · exact .inl rfl

/-- An arithmetic loop by its code. -/
theorem isArith_iff (e : LoopEntry) :
    e.isArith = true ↔ e.laddr.extractLsb' 24 5 ≠ 0b01111#5 ∧ e.laddr.extractLsb' 24 5 ≠ 0b11111#5 := by
  have hdef : e.isArith = (!decide (e.laddr.extractLsb' 24 5 = 0b01111#5) && e.laddr.extractLsb' 24 5 != 0b11111#5) := rfl
  rw [hdef]
  simp

theorem not_isArith {e : LoopEntry} (h : e.laddr.extractLsb' 24 5 = 0b01111#5 ∨ e.laddr.extractLsb' 24 5 = 0b11111#5) :
    e.isArith = false := by
  rw [Bool.eq_false_iff, Ne, isArith_iff]
  rintro ⟨h1, h2⟩
  exact h.elim h1 h2

/-- Where the innermost loop is checked, in words of its top. -/
theorem atLoopCheck_iff {q : Seq} {top : IAddr} (ht : q.loopTop = some top) (e : LoopEntry) :
    q.atLoopCheck e = true ↔
      if top.toNat + 2 * fullLen q.pc ≤ (e.laddr.truncate 24 : IAddr).toNat then
        q.pc.toNat + 2 * fullLen q.pc = (e.laddr.truncate 24 : IAddr).toNat
      else q.pc.toNat = (e.laddr.truncate 24 : IAddr).toNat := by
  have hdef : q.atLoopCheck e =
      if top.toNat + 2 * fullLen q.pc ≤ (e.laddr.truncate 24 : IAddr).toNat then
        decide (q.pc.toNat + 2 * fullLen q.pc = (e.laddr.truncate 24 : IAddr).toNat)
      else q.pc == (e.laddr.truncate 24 : IAddr) := by
    rw [Seq.atLoopCheck, ht]
    rfl
  rw [hdef]
  split
  · rw [decide_eq_true_iff]
  · rw [beq_iff_eq, BitVec.toNat_eq]

theorem exitsOf_eq {q : Seq} {top : IAddr} (ht : q.loopTop = some top) (e : LoopEntry) :
    q.exitsOf e =
      let body := ((e.laddr.truncate 24 : IAddr).toNat - top.toNat) / fullLen q.pc + 1
      if body = 1 then 3 else if body = 2 then 2 else 1 := by
  simp only [Seq.exitsOf, ht]
  rfl

/-- The state in which the instruction of `len` units starts, before the loops are checked. -/
def State.started (s : State) (len : Nat) : State :=
  { s with
    seq := { s.seq with npc := s.seq.pc + BitVec.ofNat 24 len, pcStkpDue := s.seq.pcStkpNew, pcStkpNew := none }
    bdry := State.reset.bdry }

theorem begin_loopStk {s : State} (len : Nat) {e : LoopEntry} {t : List LoopEntry} (h : s.seq.loopStk = e :: t) :
    (s.begin len).seq.loopStk = (s.started len).checkInner e :: t.mapIdx fun k o => (s.started len).checkOuter (k + 1) o := by
  change (s.started len).loopCheck.seq.loopStk = _
  have h' : (s.started len).seq.loopStk = e :: t := h
  simp [State.loopCheck, h']

/-- The check of the innermost loop. -/
theorem checkInner_cases (s : State) (len : Nat) (e : LoopEntry) {top : IAddr} (ht : s.seq.loopTop = some top) :
    let u := fullLen s.seq.pc
    let last := (e.laddr.truncate 24 : IAddr).toNat
    let body := (last - top.toNat) / u + 1
    let test := if top.toNat + 2 * u ≤ last then s.seq.pc.toNat + 2 * u = last else s.seq.pc.toNat = last
    let e' := (s.started len).checkInner e
    ((e.laddr.extractLsb' 24 5 = 0b01111#5 ∨ e.laddr.extractLsb' 24 5 = 0b11111#5 ∨ e.exits ≠ 0 ∨ ¬ test) → e' = e) ∧
    (e.laddr.extractLsb' 24 5 ≠ 0b01111#5 → e.laddr.extractLsb' 24 5 ≠ 0b11111#5 → e.exits = 0 → test →
      LoopChecked s (if body = 1 then 3 else if body = 2 then 2 else 1) e e') := by
  intro u last body test e'
  have ht' : (s.started len).seq.loopTop = some top := ht
  have hcheck : (s.started len).seq.atLoopCheck e = true ↔ test := atLoopCheck_iff ht' e
  refine ⟨fun h => ?_, fun h1 h2 hx htest => ?_⟩
  · have hn : (e.isArith && decide (e.exits = 0) && (s.started len).seq.atLoopCheck e) = false := by
      rcases h with h | h | h | h
      · simp [not_isArith (.inl h)]
      · simp [not_isArith (.inr h)]
      · simp [h]
      · simp [mt hcheck.1 h]
    simp only [e', State.checkInner, hn, Bool.false_eq_true, if_false]
  · have hy : (e.isArith && decide (e.exits = 0) && (s.started len).seq.atLoopCheck e) = true := by
      simp [(isArith_iff e).2 ⟨h1, h2⟩, hx, hcheck.2 htest]
    simp only [e', State.checkInner, hy, if_true, exitsOf_eq ht' e]
    exact checkLoop_checked (s := s) (t := s.started len) rfl rfl 0 _ h1

/-- The check of an enclosing loop. -/
theorem checkOuter_cases (s : State) (len k : Nat) (o : LoopEntry) :
    let here := s.seq.pc.toNat + 2 * fullLen s.seq.pc = (o.laddr.truncate 24 : IAddr).toNat
    let o' := (s.started len).checkOuter k o
    (o.laddr.extractLsb' 24 5 = 0b01111#5 ∨ o.laddr.extractLsb' 24 5 = 0b11111#5 ∨ o.exits ≠ 0 ∨ ¬ here → o' = o) ∧
    (o.laddr.extractLsb' 24 5 ≠ 0b01111#5 → o.laddr.extractLsb' 24 5 ≠ 0b11111#5 → o.exits = 0 → here → LoopChecked s 1 o o') := by
  intro here o'
  have hdef : o' = if o.isArith && decide (o.exits = 0) && decide here then (s.started len).checkLoop k 1 o else o := rfl
  rw [hdef]
  refine ⟨fun h => if_neg ?_, fun h1 h2 hx hh => ?_⟩
  · rcases h with h | h | h | h
    · simp [not_isArith (.inl h)]
    · simp [not_isArith (.inr h)]
    · simp [h]
    · simp [h]
  · rw [if_pos (by simp [(isArith_iff o).2 ⟨h1, h2⟩, hx, hh])]
    exact checkLoop_checked (s := s) (t := s.started len) rfl rfl k 1 h1

/-! ### The watch on calls -/

/-- The loops that a CALL from `s0` starts to watch, entry by entry. -/
theorem markCalls_getElem (depth : Nat) (off : LoopEntry → Bool) (inner : Bool) (l : List LoopEntry) (k : Nat) :
    (markCalls depth off inner l)[k]? = l[k]?.map fun e =>
      if (inner || (l.take k).any LoopEntry.isArith) && e.isArith && e.call == .none && off e then { e with call := .during depth }
      else e := by
  induction l generalizing inner k with
  | nil => simp [markCalls]
  | cons e t ih =>
    cases k with
    | zero => simp [markCalls]
    | succ k => simp [markCalls, ih, Bool.or_assoc]

/-- A loop entry under a mark. -/
def LoopEntry.markedBy (e : LoopEntry) (starts : Bool) (depth : Nat) : LoopEntry :=
  if starts then { e with call := .during depth } else e

theorem passCalls_getElem (s0 s : State) {k : Nat} {e : LoopEntry} (h : s.seq.loopStk[k]? = some e) :
    (s0.passCalls s).seq.loopStk[k]? = some (s.watchCall (e.markedBy (s.bdry.called &&
      ((s.seq.loopStk.take k).any LoopEntry.isArith && e.isArith && e.call == .none && !s0.endsLoop e)) s0.seq.pcstkp)) := by
  unfold State.passCalls LoopEntry.markedBy
  dsimp only
  rw [List.getElem?_map]
  cases s.bdry.called with
  | true =>
    rw [if_pos rfl, markCalls_getElem, h]
    rfl
  | false =>
    rw [if_neg (by simp), h]
    rfl

@[simp] theorem watchCall_unmarked (s : State) (e : LoopEntry) : (s.watchCall e).unmarked = e.unmarked := by
  unfold State.watchCall
  split <;> rfl

@[simp] theorem markedBy_unmarked (e : LoopEntry) (b : Bool) (d : Nat) : (e.markedBy b d).unmarked = e.unmarked := by
  unfold LoopEntry.markedBy
  split <;> rfl

/-- The mark of a watched loop one instruction on. -/
theorem watchCall_call {s : State} {e : LoopEntry} {d : Nat} (h : e.call = .during d ∨ e.call = .turned d) :
    (s.endsLoop e = true → (s.watchCall e).call = .turned d) ∧
    (s.endsLoop e = false → d < s.seq.pcstkp ∨ s.seq.branches ≠ [] → (s.watchCall e).call = .during d) ∧
    (s.endsLoop e = false → ¬ (d < s.seq.pcstkp ∨ s.seq.branches ≠ []) → (s.watchCall e).call = .none) := by
  have hw : (s.watchCall e).call = if s.endsLoop e then .turned d
      else if decide (d < s.seq.pcstkp) || !s.seq.branches.isEmpty then .during d else .none := by
    unfold State.watchCall
    rcases h with h | h <;> rw [h] <;> rfl
  have hb : (decide (d < s.seq.pcstkp) || !s.seq.branches.isEmpty) = true ↔ d < s.seq.pcstkp ∨ s.seq.branches ≠ [] := by
    simp
  rw [hw]
  refine ⟨fun hn => if_pos hn, fun hn ha => ?_, fun hn ha => ?_⟩
  · rw [if_neg (by simp [hn]), if_pos (hb.2 ha)]
  · rw [if_neg (by simp [hn]), if_neg (mt hb.1 ha)]

theorem endsLoop_markedBy (s : State) (e : LoopEntry) (b : Bool) (d : Nat) : s.endsLoop (e.markedBy b d) = s.endsLoop e := by
  unfold LoopEntry.markedBy
  split <;> rfl

/-- One loop entry over the boundary. -/
theorem watchCall_watched (s0 s : State) (e : LoopEntry) (inner : Bool) :
    CallsWatched s0 s e (s.watchCall (e.markedBy (s.bdry.called &&
      (inner && e.isArith && e.call == .none && !s0.endsLoop e)) s0.seq.pcstkp)) inner := by
  generalize hb : (s.bdry.called && (inner && e.isArith && e.call == .none && !s0.endsLoop e)) = b
  refine ⟨by simp, ?_⟩
  intro now away starts
  have hstarts : b = true ↔ starts := by
    rw [← hb]
    simp [starts, and_assoc]
  refine ⟨fun hc hn => ?_, fun d hd => ?_⟩
  · have hbf : b = false := by simpa using mt hstarts.1 hn
    simp [LoopEntry.markedBy, hbf, State.watchCall, hc]
  · have hcall : (e.markedBy b s0.seq.pcstkp).call = .during d ∨ (e.markedBy b s0.seq.pcstkp).call = .turned d := by
      by_cases hs : starts
      · have hnone := hs.2.2.2.1
        rcases hd with ⟨-, rfl⟩ | hd | hd
        · exact .inl (by simp [LoopEntry.markedBy, hstarts.2 hs])
        · exact absurd (hnone.symm.trans hd) (by simp)
        · exact absurd (hnone.symm.trans hd) (by simp)
      · have hbf : b = false := by simpa using mt hstarts.1 hs
        simpa [LoopEntry.markedBy, hbf, hs] using hd
    have hw := watchCall_call (s := s) hcall
    rw [endsLoop_markedBy] at hw
    exact hw

/-! ### Going back and leaving -/

/-- The check of a loop keeps its address. -/
theorem checkLoop_laddr (s : State) (k n : Nat) (e : LoopEntry) : (s.checkLoop k n e).laddr = e.laddr := by
  unfold State.checkLoop
  dsimp only
  (repeat' split) <;> rfl

theorem checkInner_laddr (s : State) (e : LoopEntry) : (s.checkInner e).laddr = e.laddr := by
  unfold State.checkInner
  split
  · exact checkLoop_laddr _ _ _ _
  · rfl

/-- The innermost loop before its check has the address of the one after it. -/
theorem begin_innermost {s : State} {len : Nat} {e : LoopEntry} {t : List LoopEntry} (h : (s.begin len).seq.loopStk = e :: t) :
    ∃ e0 t0, s.seq.loopStk = e0 :: t0 ∧ e0.laddr = e.laddr := by
  cases hl : s.seq.loopStk with
  | nil =>
    rw [begin_seq_noLoop len hl] at h
    exact absurd (h.symm.trans hl) (by simp)
  | cons e0 t0 =>
    rw [begin_loopStk len hl] at h
    obtain ⟨rfl, -⟩ := List.cons.inj h
    exact ⟨e0, t0, rfl, (checkInner_laddr _ _).symm⟩

/-- Where the compressed instructions of a loop's end are refused, before and after the checks. -/
theorem begin_compressedAtEnd (s : State) (len n : Nat) : (s.begin len).compressedAtEnd n = s.compressedAtEnd n := by
  unfold State.compressedAtEnd
  cases hl : (s.begin len).seq.loopStk with
  | nil =>
    cases hl0 : s.seq.loopStk with
    | nil => rfl
    | cons e0 t0 =>
      rw [begin_loopStk len hl0] at hl
      exact absurd hl (by simp)
  | cons e t =>
    obtain ⟨e0, t0, hl0, hladdr⟩ := begin_innermost hl
    have hpc : (s.begin len).seq.pcStk = s.seq.pcStk := by rw [begin_seq]
    have hlast : (s.begin len).seq.amongLast e 11 = s.seq.amongLast e0 11 := by
      simp only [Seq.amongLast, LoopEntry.last, hladdr, begin_pc]
    rw [hl0, hpc]
    cases s.seq.pcStk with
    | nil => rfl
    | cons w stk =>
      dsimp only
      rw [hlast, begin_pc]

/-- A loop left after its last instruction (R590, R592). -/
def Seq.loopLeft (q : Seq) (e : LoopEntry) (t : List LoopEntry) (stk : List Word) : Seq :=
  { q with loopStk := t, loopOv := false, lcntrs := e.start :: q.lcntrs, pcStk := stk }

/-- A loop whose end goes back to the top. -/
def Seq.loopedBack (q : Seq) (e : LoopEntry) (t : List LoopEntry) (top : IAddr) : Seq :=
  { q with loopStk := e :: t, npc := top }

/-- What a loop's end does: leaves it, or goes back with the loop's entry as `some`. -/
def LoopEntry.next (e : LoopEntry) : Option LoopEntry :=
  if e.laddr.extractLsb' 24 5 = 0b01111#5 then
    if e.count = 1#32 then none else some { e with count := e.count - 1#32 }
  else if e.laddr.extractLsb' 24 5 = 0b11111#5 then some e
  else
    match e.exits with
    | 0 => some e
    | 1 => none
    | n + 2 => some { e with exits := n + 1 }

theorem loopEnd_eq {s : State} {e : LoopEntry} {t : List LoopEntry} {w : Word} {stk : List Word} (hl : s.seq.loopStk = e :: t)
    (hp : s.seq.pcStk = w :: stk) (ho : s.seq.pcOv = false) : s.loopEnd =
      match e.next with
      | none => .ok { s with seq := s.seq.loopLeft e t stk }
      | some e' => if s.seq.btbHold ≠ 0 then refuse .btbWindow else .ok { s with seq := s.seq.loopedBack e' t (w.truncate 24) } := by
  have htop : s.pcstk s.seq = w := by simp [State.pcstk, ho, hp]
  have hout : State.popPc { s with seq := s.seq.dropLoop } = .ok { s with seq := s.seq.loopLeft e t stk } := by
    simp [State.popPc, Seq.dropLoop, hl, hp, Seq.dropPc, ho, Seq.loopLeft]
  unfold State.loopEnd
  rw [hl]
  dsimp only
  rw [hout, htop]
  by_cases h1 : e.laddr.extractLsb' 24 5 = 0b01111#5
  · have hc : e.isCounter = true := by simp [LoopEntry.isCounter, loopTerm, h1]
    rw [if_pos hc, LoopEntry.next, if_pos h1]
    split <;> rfl
  · have hc : e.isCounter = false := decide_eq_false h1
    by_cases h2 : e.laddr.extractLsb' 24 5 = 0b11111#5
    · rw [hc, not_isArith (.inr h2), LoopEntry.next, if_neg h1, if_pos h2]
      rfl
    · rw [hc, (isArith_iff e).2 ⟨h1, h2⟩, LoopEntry.next, if_neg h1, if_neg h2]
      simp only [Bool.false_eq_true, if_false, if_true]
      cases e.exits with
      | zero => rfl
      | succ n => cases n <;> rfl

/-- The watch on calls changes nothing of a loop but its mark. -/
theorem passCalls_unmarked (s0 s : State) :
    (s0.passCalls s).seq.loopStk.map LoopEntry.unmarked = s.seq.loopStk.map LoopEntry.unmarked := by
  have hlen : (s0.passCalls s).seq.loopStk.length = s.seq.loopStk.length := by
    simp only [State.passCalls, List.length_map]
    split
    · exact markCalls_length _ _ _ _
    · rfl
  apply List.ext_getElem?
  intro k
  rw [List.getElem?_map, List.getElem?_map]
  cases hk : s.seq.loopStk[k]? with
  | some e =>
    rw [passCalls_getElem s0 s hk]
    simp
  | none =>
    rw [List.getElem?_eq_none_iff] at hk
    rw [List.getElem?_eq_none_iff.2 (hlen ▸ hk)]

/-- The boundary after a loop's last instruction: but for the marks of watched calls, what the loop's end left. -/
theorem finished_loops (s0 : State) {u : State} (len : Nat) (hd : u.seq.pcStkpDue = none) (hl : u.bdry.loopFree = false)
    (hb : u.seq.branches = []) :
    (s0.finished u len).seq.pc = u.seq.npc ∧
    (s0.finished u len).seq.loopStk.map LoopEntry.unmarked = u.seq.loopStk.map LoopEntry.unmarked ∧
    (s0.finished u len).seq.pcStk = u.seq.pcStk ∧ (s0.finished u len).seq.lcntrs = u.seq.lcntrs := by
  have hslots : u.seq.passSlots = u.seq := by simp [Seq.passSlots, hb]
  have hu : (u.settlePcstkp u.seq.pcStkpDue).loseLoops = u := by simp [hd, State.settlePcstkp, State.loseLoops, hl]
  simp only [State.finished, hu, hslots, closeStep_seq, breakpoints_seq, passCalls_unmarked]
  exact ⟨rfl, rfl, rfl, rfl⟩

/-- One step at a loop's end, by what the end does. -/
theorem step_loopEnd {s0 s : State} {f : Fetched} {i : Instr} {e : LoopEntry} {t : List LoopEntry} {w : Word} {stk : List Word}
    (hf : s0.fetch s0.seq.pc = some f) (hs : s0.fetchStop = none) (hd : f.decode = .ok i) (ha : s0.accept = none)
    (hi : s0.seq.idle = false) (hsr : s0.seq.srst ≠ 1) (hp : s0.seq.pcStk = w :: stk) (ho : s0.seq.pcOv = false)
    (hlast : e.laddr.truncate 24 = s0.seq.pc) (hb : s0.seq.branches = []) (hn : s0.seq.pcStkpNew = none)
    (hc : s0.compressedAtEnd f.len = false) (hl : (s0.begin f.len).seq.loopStk = e :: t)
    (he : exec i (s0.begin f.len) = .next s) (hq : s.seq = (s0.begin f.len).seq) (htk : s.bdry.taken = false)
    (hr : s.bdry.refused = none) (hlf : s.bdry.loopFree = false) :
    let goes := fun (npc : IAddr) (loops : List LoopEntry) (pcs cnts : List Word) =>
      ∃ u, step s0 = .next u ∧ u.seq.pc = npc ∧ u.seq.loopStk.map LoopEntry.unmarked = loops.map LoopEntry.unmarked ∧
        u.seq.pcStk = pcs ∧ u.seq.lcntrs = cnts
    (e.next = none → goes (s0.seq.pc + BitVec.ofNat 24 f.len) t stk (e.start :: s0.seq.lcntrs)) ∧
    ∀ e', e.next = some e' → if s0.seq.btbHold = 0 then goes (w.truncate 24) (e' :: t) (w :: stk) s0.seq.lcntrs
      else step s0 = .refused .btbWindow := by
  intro goes
  obtain ⟨-, -, hseq, hbdry, -⟩ := afterFetch_keeps (s0.begin f.len) s f.bytes
  generalize hu : (s0.begin f.len).afterFetch s f.bytes = u at hseq hbdry
  have hbs := begin_seq s0 f.len
  have hstep : step s0 = ((s0.begin f.len).finish u f.len).outcome := by
    rw [step_run ha hi, ← hu]
    exact (runInstr_fetched hf hs).1 s (by rw [execute_decoded hd, he])
  have huq : u.seq = { s0.seq with
      npc := s0.seq.pc + BitVec.ofNat 24 f.len, pcStkpDue := none, pcStkpNew := none, loopStk := e :: t } := by
    rw [hseq, hq, hbs, hl, hn]
  have hclose : (s0.begin f.len).closeLoop u f.len = u.loopEnd := by
    have hat : (s0.begin f.len).atLoopEnd = true := by simp [State.atLoopEnd, hl, LoopEntry.last, hlast]
    have hbb : (s0.begin f.len).seq.branches = [] := by rw [hbs]; exact hb
    unfold State.closeLoop
    rw [begin_compressedAtEnd, hc, hat]
    simp [hbdry, htk, hbb, hseq, hq]
  have hend : u.loopEnd = _ := loopEnd_eq (s := u) (e := e) (t := t) (w := w) (stk := stk) (by rw [huq]) (by rw [huq]; exact hp)
    (by rw [huq]; exact ho)
  have hr' : u.bdry.refused = none := by rw [hbdry, hr]
  have hgo : ∀ q : Seq, u.loopEnd = .ok { u with seq := q } → q.branches = [] → q.pcStkpDue = none →
      goes q.npc q.loopStk q.pcStk q.lcntrs := by
    intro q hok hqb hqd
    have hfin := finish_next hr' (hclose.trans hok) (by simpa using hsr)
      (.inl (by simp [Seq.redirects, hqb, hbdry, htk]))
    obtain ⟨h1, h2, h3, h4⟩ := finished_loops (s0.begin f.len) (u := { u with seq := q }) f.len hqd (by rw [← hlf, ← hbdry]) hqb
    exact ⟨_, by rw [hstep, hfin]; rfl, h1, h2, h3, h4⟩
  refine ⟨fun hnone => ?_, fun e' hsome => ?_⟩
  · rw [hnone] at hend
    have hg := hgo _ hend (by rw [Seq.loopLeft, huq]; exact hb) (by rw [Seq.loopLeft, huq])
    rw [Seq.loopLeft, huq] at hg
    exact hg
  · rw [hsome] at hend
    have hhold : u.seq.btbHold = s0.seq.btbHold := by rw [huq]
    by_cases hz : s0.seq.btbHold = 0
    · rw [if_pos hz]
      rw [hhold, hz] at hend
      have hg := hgo _ hend (by rw [Seq.loopedBack, huq]; exact hb) (by rw [Seq.loopedBack, huq])
      rw [Seq.loopedBack, huq] at hg
      simpa only [hp] using hg
    · rw [if_neg hz]
      simp only [hhold, ne_eq, hz, not_false_eq_true, if_true] at hend
      have hfin : (s0.begin f.len).finish u f.len = refuse .btbWindow := by
        unfold State.finish
        rw [hr', hclose, hend]
        rfl
      rw [hstep, hfin]
      rfl

/-- Settles O45. -/
theorem loopEnds : Obligations.LoopEnds := by
  refine ⟨?_, ?_, fun s0 s k e h => ⟨_, passCalls_getElem s0 s h, watchCall_watched s0 s e _⟩⟩
  · intro s0 s f i e t w stk hf hs hd ha hi hsr hp ho hlast hb hn hc hl he hq htk hr hlf go back out code
    obtain ⟨hout, hback⟩ := step_loopEnd hf hs hd ha hi hsr hp ho hlast hb hn hc hl he hq htk hr hlf
    refine ⟨fun h1 h2 => hback _ ?_, fun h1 h2 => hout ?_, fun h1 => hback _ ?_, fun h1 h2 =>
      ⟨fun hx => hback _ ?_, fun hx => hout ?_, fun n hx => hback _ ?_⟩⟩
    · rw [LoopEntry.next, if_pos h1, if_neg h2]
    · rw [LoopEntry.next, if_pos h1, if_pos h2]
    · rw [LoopEntry.next, if_neg (by rw [show e.laddr.extractLsb' 24 5 = _ from h1]; decide), if_pos h1]
    · rw [LoopEntry.next, if_neg h1, if_neg h2, hx]
    · rw [LoopEntry.next, if_neg h1, if_neg h2, hx]
    · rw [LoopEntry.next, if_neg h1, if_neg h2, hx]
  · intro s len e t top hl ht u last body test
    obtain ⟨hstay, hcheck⟩ := checkInner_cases s len e ht
    refine ⟨_, _, begin_loopStk len hl, by simp, hstay, hcheck, fun k o o' ho ho' => ?_⟩
    have hko : o' = (s.started len).checkOuter (k + 1) o := by
      rw [List.getElem?_mapIdx, ho] at ho'
      exact (Option.some.inj ho').symm
    rw [hko]
    exact checkOuter_cases s len (k + 1) o

end Sys2Proof.Machine
end

section
/-! PROOFS. Register moves, swaps, constants and PX (R49, R55 to R59, R524 to R528, R628). -/

namespace Sys2Proof.Machine

open Sys2Proof

/-! ### The moves as register writes -/

/-- The empty computation completes and changes nothing. -/
theorem compute_none (s : State) (cx cy : Bool) (busy : List UReg) : s.compute .none cx cy busy = .ok s := by
  have hp (y : Bool) : s.pe y .none = {} := rfl
  simp [State.compute, State.computeAllowed, State.runPe, hp, applyPe_empty]

/-- Without a computation the effects of a move are put into the state as they are. -/
theorem computeFx_none (s : State) (f : Fx) (cx cy : Bool) : s.computeFx .none f cx cy = .ok (s.applyFx f) := by
  rw [State.computeFx, compute_none]

/-- Both forms of a register move, without a computation, are the register writes of the move. -/
theorem exec_regMove {i : Instr} {cond : Cond} {dst src : UReg}
    (hi : i ∈ [Instr.moveUreg cond .none dst src, .moveUregShort cond dst src]) (s : State) :
    exec i s = .next (s.applyRegs (s.regMoveFx dst src (s.cx cond) (s.cy cond)).regs) := by
  have happly : s.applyFx (s.regMoveFx dst src (s.cx cond) (s.cy cond)) =
      s.applyRegs (s.regMoveFx dst src (s.cx cond) (s.cy cond)).regs := applyFx_regs s _
  simp only [List.mem_cons, List.not_mem_nil, or_false] at hi
  rcases hi with rfl | rfl
  · change (s.computeFx .none _ _ _).outcome = _
    rw [computeFx_none, happly]
    rfl
  · change Host.Outcome.next (s.applyFx _) = _
    rw [happly]

/-- One half of a register move: what `src` carries, as it stood in `s`, goes to `dst` in `t`. -/
def State.moved (s t : State) (dst src : UReg) : State := t.writeVal dst (s.moveVal dst src)

/-- A move to a register without a complement has no implicit half. -/
theorem regMove_alone (s : State) {dst : UReg} (src : UReg) (cx cy : Bool) (h : compOf dst = none) :
    s.applyRegs (s.regMoveFx dst src cx cy).regs = if cx then s.moved s dst src else s := by
  cases cx <;> simp [State.regMoveFx, h, State.moved]

/-- A move to a register with a complement: the complements, or the lone source, move under the condition of PEy. -/
theorem regMove_pair (s : State) {dst d : UReg} (src : UReg) (cx cy : Bool) (h : compOf dst = some d) :
    s.applyRegs (s.regMoveFx dst src cx cy).regs =
      let s1 := if cx then s.moved s dst src else s
      if s.simd && cy && !(src == .px && isUstat dst) then s.moved s1 d ((compOf src).getD src) else s1 := by
  have hlone : ∀ c, compOf src = some c → (src == .px) = false := by
    rintro c hc
    rw [beq_eq_false_iff_ne]
    rintro rfl
    exact absurd hc (by simp [compOf])
  cases hm : s.simd && cy with
  | false => cases cx <;> simp [State.regMoveFx, h, hm, State.moved]
  | true =>
    cases hc : compOf src with
    | some c =>
      cases cx <;> simp [State.regMoveFx, h, hm, hc, hlone c hc, State.moved]
    | none =>
      have hpx : compOf UReg.px = none := rfl
      by_cases hx : src = .px <;> cases hu : isUstat dst <;> cases cx <;>
        simp [State.regMoveFx, h, hm, hc, hx, hu, State.moved, hpx]

/-! ### What a half carries -/

theorem compOf_ne_px {u d : UReg} (h : compOf u = some d) : d ≠ .px := by
  rintro rfl
  cases u with
  | sys r => cases r <;> simp [compOf] at h
  | _ => simp [compOf] at h

theorem compOf_dregOf {u d : UReg} (h : compOf u = some d) (hu : dregOf u = none) : dregOf d = none := by
  cases u with
  | r n => simp [dregOf] at hu
  | s n => simp [dregOf] at hu
  | sys r => cases r <;> simp [compOf] at h <;> subst h <;> rfl
  | _ => simp [compOf] at h <;> subst h <;> rfl

theorem source_ne_px {src : UReg} (h : src ≠ .px) : (compOf src).getD src ≠ .px := by
  cases hc : compOf src with
  | none => exact h
  | some c => exact compOf_ne_px hc

/-- Away from PX a half moves 40 bits between data registers, else 32 bits. -/
theorem moved_eq (s t : State) {d x : UReg} (hd : d ≠ .px) (hx : x ≠ .px) : s.moved t d x =
    match dregOf d, dregOf x with
    | some (y, n), some (z, k) => t.setDreg y n (s.dreg z k)
    | _, _ => t.writeU d (s.readU x) := by
  cases d with
  | px => exact absurd rfl hd
  | r n =>
    cases x with
    | px => exact absurd rfl hx
    | _ => rfl
  | s n =>
    cases x with
    | px => exact absurd rfl hx
    | _ => rfl
  | _ => rfl

/-- From PX: 40 bits to a data register, the lower word to any other. -/
theorem moved_from_px (s t : State) {d : UReg} (hd : d ≠ .px) : s.moved t d .px =
    match dregOf d with
    | some (y, n) => t.setDreg y n (s.data.px.extractLsb' 24 40)
    | none => t.writeU d (s.data.px.truncate 32) := by
  cases d with
  | px => exact absurd rfl hd
  | _ => rfl

/-- What PX takes from a register: 40 bits of a data register, else the register and its pair partner, or itself, or PX whole. -/
def State.pxFrom (s : State) (x : UReg) : Long :=
  match dregOf x with
  | some (y, n) => s.dreg y n ++ 0#24
  | none => if x = .px then s.data.px else s.readU ((compOf x).getD x) ++ s.readU x

theorem moved_to_px (s t : State) (x : UReg) : s.moved t .px x = { t with data := { t.data with px := s.pxFrom x } } := by
  cases x with
  | sys r => cases r <;> rfl
  | _ => rfl

/-! ### Register moves -/

theorem moves_any {i : Instr} {cond : Cond} {dst src : UReg}
    (hi : i ∈ [Instr.moveUreg cond .none dst src, .moveUregShort cond dst src]) (s : State) :
    MovesTo i s (s.cx cond) (s.cy cond) dst src := by
  intro hd hs one
  refine ⟨_, exec_regMove hi s, ?_⟩
  cases hc : compOf dst with
  | none =>
    rw [regMove_alone s src _ _ hc, moved_eq s s hd hs]
    cases s.simd && s.cy cond <;> rfl
  | some d =>
    have hpx : (src == .px) = false := by simpa using hs
    rw [regMove_pair s src _ _ hc, hpx, moved_eq s s hd hs]
    dsimp only
    rw [moved_eq s _ (compOf_ne_px hc) (source_ne_px hs)]
    cases s.simd && s.cy cond <;> rfl

theorem moves_from_px {i : Instr} {cond : Cond} {dst : UReg} (hd : dregOf dst = none) (hp : dst ≠ .px)
    (hi : i ∈ [Instr.moveUreg cond .none dst .px, .moveUregShort cond dst .px]) (s : State) :
    Completes i s fun t =>
      let v := s.data.px.truncate 32
      let s1 := if s.cx cond then s.writeU dst v else s
      t = match s.simd && s.cy cond && !isUstat dst, compOf dst with
        | true, some d => s1.writeU d v
        | _, _ => s1 := by
  refine ⟨_, exec_regMove hi s, ?_⟩
  cases hc : compOf dst with
  | none =>
    rw [regMove_alone s _ _ _ hc, moved_from_px s s hp, hd]
    cases s.simd && s.cy cond && !isUstat dst <;> rfl
  | some d =>
    rw [regMove_pair s _ _ _ hc, moved_from_px s s hp, hd]
    dsimp only
    rw [show (compOf UReg.px).getD .px = .px from rfl, moved_from_px s _ (compOf_ne_px hc), compOf_dregOf hc hd]
    cases s.simd && s.cy cond <;> cases isUstat dst <;> rfl

theorem moves_to_px {i : Instr} {cond : Cond} {src : UReg}
    (hi : i ∈ [Instr.moveUreg cond .none .px src, .moveUregShort cond .px src]) (s : State) :
    exec i s = .next (if s.cx cond then s.moved s .px src else s) := by
  rw [exec_regMove hi s, regMove_alone s src _ _ rfl]

theorem moves_px_dreg {i : Instr} {cond : Cond} (y : Bool) (n : RegNo)
    (hi : i ∈ [Instr.moveUreg cond .none (if y then .s n else .r n) .px, .moveUregShort cond (if y then .s n else .r n) .px]) (s : State) :
    Completes i s fun t =>
      let v := s.data.px.extractLsb' 24 40
      let s1 := if s.cx cond then s.setDreg y n v else s
      t = if s.simd && s.cy cond then s1.setDreg (!y) n v else s1 := by
  refine ⟨_, exec_regMove hi s, ?_⟩
  cases y with
  | false =>
    rw [regMove_pair s _ _ _ (d := .s n) rfl]
    cases s.simd && s.cy cond <;> rfl
  | true =>
    rw [regMove_pair s _ _ _ (d := .r n) rfl]
    cases s.simd && s.cy cond <;> rfl

/-- Both forms of a swap. -/
theorem swaps_any {i : Instr} {cond : Cond} {n k : RegNo} (hi : i ∈ [Instr.swapDreg cond .none n k, .swapDregShort cond n k])
    (s : State) : Completes i s fun t =>
      let s1 := if s.cx cond then s.setDreg false n (s.dreg true k) else s
      t = if s.cy cond then s1.setDreg true k (s.dreg false n) else s1 := by
  have happly : s.applyFx (s.swapFx n k (s.cx cond) (s.cy cond)) = s.applyRegs (s.swapFx n k (s.cx cond) (s.cy cond)).regs :=
    applyFx_regs s _
  have hexec : exec i s = .next (s.applyRegs (s.swapFx n k (s.cx cond) (s.cy cond)).regs) := by
    simp only [List.mem_cons, List.not_mem_nil, or_false] at hi
    rcases hi with rfl | rfl
    · change (s.computeFx .none _ _ _).outcome = _
      rw [computeFx_none, happly]
      rfl
    · change Host.Outcome.next (s.applyFx _) = _
      rw [happly]
  refine ⟨_, hexec, ?_⟩
  cases s.cx cond <;> cases s.cy cond <;> rfl

/-- A constant to a register, and to its complement in SIMD mode. -/
theorem applyFx_immFx (s : State) (dst : UReg) (v : Word) : s.applyFx (s.immFx dst v) =
    match s.simd, compOf dst with
    | true, some d => (s.writeU dst v).writeU d v
    | _, _ => s.writeU dst v := by
  have happly : s.applyFx (s.immFx dst v) = s.applyRegs (s.immFx dst v).regs := applyFx_regs s _
  rw [happly]
  cases hc : compOf dst <;> cases hm : s.simd <;> simp [State.immFx, hc, hm, writeVal_w32]

/-! ### The DAG registers -/

/-- An index register after a write of one. -/
theorem ireg_setI (s : State) (n : RegNo) (v : Word) (j : RegNo) : (s.setI n v).ireg j = if j = n then v else s.ireg j := by
  unfold State.ireg
  rw [altDag_congr (s := s) (t := s.setI n v) (by simp)]
  unfold State.setI
  by_cases h : j = n
  · subst h
    cases hj : s.altDag j <;> simp
  · cases hj : s.altDag j <;> cases hn : s.altDag n <;> simp [h, rget_rset_other]

theorem mreg_setM (s : State) (n : RegNo) (v : Word) (j : RegNo) : (s.setM n v).mreg j = if j = n then v else s.mreg j := by
  unfold State.mreg
  rw [altDag_congr (s := s) (t := s.setM n v) (by simp)]
  unfold State.setM
  by_cases h : j = n
  · subst h
    cases hj : s.altDag j <;> simp
  · cases hj : s.altDag j <;> cases hn : s.altDag n <;> simp [h, rget_rset_other]

theorem lreg_setL (s : State) (n : RegNo) (v : Word) (j : RegNo) : (s.setL n v).lreg j = if j = n then v else s.lreg j := by
  unfold State.lreg
  rw [altDag_congr (s := s) (t := s.setL n v) (by simp)]
  unfold State.setL
  by_cases h : j = n
  · subst h
    cases hj : s.altDag j <;> simp
  · cases hj : s.altDag j <;> cases hn : s.altDag n <;> simp [h, rget_rset_other]

theorem breg_setBOnly (s : State) (n : RegNo) (v : Word) (j : RegNo) :
    (s.setBOnly n v).breg j = if j = n then v else s.breg j := by
  unfold State.breg
  rw [altDag_congr (s := s) (t := s.setBOnly n v) (by simp)]
  unfold State.setBOnly
  by_cases h : j = n
  · subst h
    cases hj : s.altDag j <;> simp
  · cases hj : s.altDag j <;> cases hn : s.altDag n <;> simp [h, rget_rset_other]

/-- The other files of the DAGs, and everything outside them, keep their contents under a write of an index register. -/
theorem setI_keeps (s : State) (n : RegNo) (v : Word) : s.setI n v = { s with dag := (s.setI n v).dag } ∧
    (∀ j, (s.setI n v).mreg j = s.mreg j) ∧ (∀ j, (s.setI n v).lreg j = s.lreg j) ∧ ∀ j, (s.setI n v).breg j = s.breg j := by
  unfold State.setI
  split <;> exact ⟨rfl, fun _ => rfl, fun _ => rfl, fun _ => rfl⟩

theorem setM_keeps (s : State) (n : RegNo) (v : Word) : s.setM n v = { s with dag := (s.setM n v).dag } ∧
    (∀ j, (s.setM n v).ireg j = s.ireg j) ∧ (∀ j, (s.setM n v).lreg j = s.lreg j) ∧ ∀ j, (s.setM n v).breg j = s.breg j := by
  unfold State.setM
  split <;> exact ⟨rfl, fun _ => rfl, fun _ => rfl, fun _ => rfl⟩

theorem setL_keeps (s : State) (n : RegNo) (v : Word) : s.setL n v = { s with dag := (s.setL n v).dag } ∧
    (∀ j, (s.setL n v).ireg j = s.ireg j) ∧ (∀ j, (s.setL n v).mreg j = s.mreg j) ∧ ∀ j, (s.setL n v).breg j = s.breg j := by
  unfold State.setL
  split <;> exact ⟨rfl, fun _ => rfl, fun _ => rfl, fun _ => rfl⟩

theorem setBOnly_keeps (s : State) (n : RegNo) (v : Word) : s.setBOnly n v = { s with dag := (s.setBOnly n v).dag } ∧
    (∀ j, (s.setBOnly n v).ireg j = s.ireg j) ∧ (∀ j, (s.setBOnly n v).mreg j = s.mreg j) ∧
    ∀ j, (s.setBOnly n v).lreg j = s.lreg j := by
  unfold State.setBOnly
  split <;> exact ⟨rfl, fun _ => rfl, fun _ => rfl, fun _ => rfl⟩

/-- A write of a base register is a write of the index register too (R275). -/
theorem setB_keeps (s : State) (n : RegNo) (v : Word) : s.setB n v = { s with dag := (s.setB n v).dag } ∧
    (∀ j, (s.setB n v).ireg j = if j = n then v else s.ireg j) ∧ (∀ j, (s.setB n v).mreg j = s.mreg j) ∧
    (∀ j, (s.setB n v).lreg j = s.lreg j) ∧ ∀ j, (s.setB n v).breg j = if j = n then v else s.breg j := by
  obtain ⟨-, hbi, hbm, hbl⟩ := setBOnly_keeps s n v
  obtain ⟨-, him, hil, hib⟩ := setI_keeps (s.setBOnly n v) n v
  refine ⟨?_, fun j => ?_, fun j => (him j).trans (hbm j), fun j => (hil j).trans (hbl j),
    fun j => (hib j).trans (breg_setBOnly s n v j)⟩
  · unfold State.setB State.setI State.setBOnly
    (repeat' split) <;> rfl
  · rw [← hbi]
    exact ireg_setI _ n v j

/-! ### The halves of PX -/

theorem low_append (a b : Word) : (a ++ b : Long).truncate 32 = b := by
  apply BitVec.eq_of_toNat_eq
  have h : (a ++ b : Long).toNat = a.toNat * 2 ^ 32 + b.toNat := append_toNat a b
  have hb := b.isLt
  rw [BitVec.truncate_eq_setWidth, BitVec.toNat_setWidth, h]
  omega

theorem high_append (a b : Word) : (a ++ b : Long).extractLsb' 32 32 = a := by
  apply BitVec.eq_of_toNat_eq
  have h : (a ++ b : Long).toNat = a.toNat * 2 ^ 32 + b.toNat := append_toNat a b
  have ha := a.isLt
  have hb := b.isLt
  rw [BitVec.extractLsb'_toNat, h, Nat.shiftRight_eq_div_pow]
  omega

/-- A constant to a register, whole. -/
theorem exec_moveImm (s : State) (u : UReg) (v : Word) : exec (.moveImm u v) s = .next (s.applyFx (s.immFx u v)) := rfl

/-- A constant to one half of PX in SIMD mode reaches both (R628). -/
theorem moveImm_px_half {s : State} (hs : s.simd = true) (v : Word) {u : UReg} (hu : u ∈ [UReg.px1, .px2]) :
    exec (.moveImm u v) s = .next { s with data := { s.data with px := v ++ v } } := by
  rw [exec_moveImm, applyFx_immFx, hs]
  simp only [List.mem_cons, List.not_mem_nil, or_false] at hu
  rcases hu with rfl | rfl
  · simp only [compOf, State.writeU, low_append]
  · simp only [compOf, State.writeU, high_append]

/-- Settles O33. -/
theorem registerMoves : Obligations.RegisterMoves := by
  refine ⟨fun s cond dst src n k data d16 => ?_, fun s n v => ?_⟩
  · intro cx cy loads
    refine ⟨moves_any (by simp) s, moves_any (by simp) s, fun i hi => swaps_any hi s, ⟨_, rfl, applyFx_immFx s dst data⟩,
      ⟨_, rfl, applyFx_immFx s dst _⟩, fun hd hp i hi => moves_from_px hd hp hi s, fun hd i hi => ?_, fun y => ?_⟩
    · refine ⟨_, moves_to_px hi s, ?_⟩
      rw [moved_to_px, State.pxFrom, hd]
    · intro u w
      refine ⟨fun i hi => ⟨_, moves_to_px hi s, ?_⟩, fun i hi => moves_px_dreg y n hi s⟩
      rw [moved_to_px, State.pxFrom]
      cases y <;> rfl
  · intro writes dag put low high
    obtain ⟨hi, him, hil, hib⟩ := setI_keeps s n v
    obtain ⟨hm, hmi, hml, hmb⟩ := setM_keeps s n v
    obtain ⟨hl, hli, hlm, hlb⟩ := setL_keeps s n v
    have one : ∀ u, compOf u = none → writes u fun t => t = s.writeU u v := fun u hu => ⟨_, exec_moveImm_alone s v hu, rfl⟩
    refine ⟨⟨_, exec_moveImm_alone s v rfl, hi, ireg_setI s n v, him, hil, hib⟩,
      ⟨_, exec_moveImm_alone s v rfl, hm, hmi, mreg_setM s n v, hml, hmb⟩,
      ⟨_, exec_moveImm_alone s v rfl, hl, hli, hlm, lreg_setL s n v, hlb⟩,
      ⟨_, exec_moveImm_alone s v rfl, setB_keeps s n v⟩, fun hs => ?_, fun hs u hu => ⟨_, moveImm_px_half hs v hu, rfl⟩,
      one _ rfl, one _ rfl, one _ rfl, ?_⟩
    · have sisd : ∀ u, writes u fun t => t = s.writeU u v := fun u => ⟨_, exec_moveImm s u v, by rw [applyFx_immFx, hs]⟩
      exact ⟨sisd _, sisd _, sisd _, sisd _⟩
    · simp only [List.forall_mem_cons, List.not_mem_nil, false_imp_iff, implies_true, and_true]
      exact ⟨one _ rfl, one _ rfl, one _ rfl, one _ rfl, one _ rfl⟩

end Sys2Proof.Machine
end

section
/-! PROOFS. Accesses over the system crossbar (R58, R339, R346). -/

namespace Sys2Proof.Machine

open Sys2Proof

/-! ### Locations behind the crossbar -/

/-- The targets behind the crossbar lie in byte space, above the blocks of L1. -/
theorem system_region : ∀ r ∈ Config.regions, isSystem r.target = true → r.space = .bw ∧ 0x3A0000 ≤ r.phys := by decide

/-- No block of L1, and so no cache storage, lies above the last block. -/
theorem inCache_above (s : State) {p : Nat} (h : 0x3A0000 ≤ p) : s.inCache p = false := by
  have hb : blockOf p = none := by
    have hlast : ∀ b : Fin 4, Config.blockBase b + Config.blockSize b ≤ 0x3A0000 := by decide
    refine List.find?_eq_none.2 fun b _ hd => ?_
    have hle := hlast b
    have hlt := (of_decide_eq_true hd).2
    omega
  rw [State.inCache, hb]

theorem imdw_system (s : State) {r : Config.Region} (h : isSystem r.target = true) : s.imdw r = false := by
  unfold State.imdw
  cases ht : r.target <;> simp_all [isSystem]

/-- The element of a 32-bit access behind the crossbar. -/
theorem element_system {s : State} {ea : Word} {l : Loc} (hl : locate ea.toNat = some l) (ht : isSystem l.region.target = true)
    (ho : l.off + 4 ≤ l.region.count) (hh : s.seq.cacheHold = 0) :
    s.element ea l.region l.off .w32 = .ok ⟨l.region, l.region.phys + l.off, .w32⟩ := by
  obtain ⟨-, hmem, -, -⟩ := locate_some hl
  obtain ⟨hsp, hp⟩ := system_region l.region hmem ht
  refine element_ok ?_ ?_ ⟨inCache_above s (by omega), inCache_above s ?_⟩ (.inl hh) ?_
  · simp [physOf, placeIn, bwPlace, hsp]
  · simp only [Width.bytes, Config.Region.bytes, Config.Space.unit, hsp]
    omega
  · simp only [Width.bytes]
    omega
  · unfold State.rangeStop isExternal
    cases htt : l.region.target <;> simp_all [isSystem]

/-- The register that moves with the crossbar: PX as its half PX1 (R58). -/
def crossed (u : UReg) : UReg := if u = .px then .px1 else u

theorem crossed_ne_px (u : UReg) : crossed u ≠ .px := by
  unfold crossed
  split
  · simp
  · assumption

theorem at_system {m : Move} {t : Config.Target} {u : UReg} (ht : isSystem t = true) (hw : m.what = .reg u) :
    (m.at t).what = .reg (crossed u) ∧ (m.at t).store = m.store ∧ (m.at t).ex = m.ex ∧
    (m.at t).slot = m.slot := by
  unfold Move.at crossed
  by_cases hu : u = .px
  · simp [ht, hw, hu]
  · simp [hw, hu]

/-- The one transfer of a 32-bit access behind the crossbar in SISD mode. -/
theorem memoryFx_system {s : State} {m : Move} {ea : Word} {l : Loc} {u : UReg} {z : Size} (hl : locate ea.toNat = some l)
    (ht : isSystem l.region.target = true) (ho : l.off + 4 ≤ l.region.count) (hh : s.seq.cacheHold = 0) (hq : s.simd = false)
    (hw : m.what = .reg u) (he : m.ex = false) (hd : m.dual = false) (hb : s.isBroadcast m = false)
    (hz : z = .none ∨ (u = .px ∧ l.region.target = .device)) :
    s.memoryFx m ⟨ea, z, false, none⟩ l true true =
      .ok { s.transfer (m.at l.region.target) (.reg (crossed u)) ⟨l.region, l.region.phys + l.off, .w32⟩ (s.signed .bw z) false
          m.slot with
        u64ma := false, iira := l.region.target == .smmr && s.sys.mode2.getLsbD 20 } := by
  obtain ⟨-, hmem, -, -⟩ := locate_some hl
  obtain ⟨hsp, -⟩ := system_region l.region hmem ht
  obtain ⟨hwhat, -, -, hslot⟩ := at_system ht hw
  have hsize : m.sizeAt l.region.target z = .none := by
    rcases hz with rfl | ⟨rfl, -⟩
    · simp [Move.sizeAt]
    · simp [Move.sizeAt, ht, hw]
  have hwidth : (Mover.reg (crossed u)).width .none .bw false = .w32 := by
    simp [Mover.width, crossed_ne_px u]
  have hrow : s.row m .w32 false = .single := by simp [State.row, hb, hq]
  have hsm : (l.region.target == .smmr && (z != .none)) = false := by
    rcases hz with rfl | ⟨-, hdev⟩
    · simp
    · simp [hdev]
  have hbound : boundary .bw .w32 false (Row.single == Row.pair) = 1 := rfl
  have hform : (l.region.target == .smmr && (true || ((Row.single == Row.pair) && true)) &&
      (m.dual || z != .none || (Width.w32 != Width.w32) || (Row.single == Row.pair))) = false := by
    simpa [hd] using hsm
  unfold State.memoryFx
  simp only [hsp, imdw_system s ht, hwhat, hsize, hwidth, hrow, hbound, Nat.mod_one, Nat.sub_zero, element_system hl ht ho hh,
    explicitGate, State.gated, State.exclAllowed, he, State.rowFx, hform, hslot]
  simp

/-! ### Putting the access into the state -/

theorem touch_system (s : State) (m : Memory) {t : Config.Target} (h : isSystem t = true) : s.touch m t = m := by
  unfold State.touch
  cases t <;> simp_all [isSystem]

/-- Effects that only load and read over the crossbar: registers, the bus, and the notes of the caches and breakpoints. -/
theorem applyFx_reads (s : State) {f : Fx} (hs : f.stores = []) (hm : f.mmr = none) (ha : f.az = []) (hn : f.monitor = none)
    (ht : ∀ t ∈ f.touched, ∀ (u : State) (m : Memory), u.touch m t = m) :
    let u := ((s.applyLatches f).applyUpdate f.update).applyRegs f.regs
    ButHits { u with bus := f.bus ++ u.bus } (s.applyFx f) := by
  intro u
  have htouch : ∀ (l : List Config.Target) (v : State) (m : Memory), (∀ t ∈ l, ∀ (u : State) (m : Memory), u.touch m t = m) →
      l.foldl v.touch m = m := by
    intro l v m hl
    induction l generalizing m with
    | nil => rfl
    | cons t l ih =>
      rw [List.foldl, hl t (by simp)]
      exact ih m fun t ht => hl t (by simp [ht])
  refine ⟨u.bdry.hits ||| f.hits, { u.useLines f.lines u.cache with near := if f.near then 13 else u.cache.near }, ?_⟩
  change State.applyMemory u f = _
  unfold State.applyMemory
  rw [hs, hm, ha, hn]
  simp only [List.foldl, htouch f.touched _ _ ht]
  rfl

/-- The latches of an access that is legal and aligned. -/
theorem applyLatches_unintended (s : State) {f : Fx} (hl : f.iladi = false) (hu : f.u64ma = false) :
    s.applyLatches f = if f.iira then { s with sys := { s.sys with
      stkyx := s.sys.stkyx ||| 0x80000#32, irptl := s.sys.irptl ||| 0x40#32 } } else s := by
  unfold State.applyLatches
  rw [hl, hu]
  cases f.iira <;> rfl

/-- The latches of an access behind the crossbar: the unintended access of a system memory-mapped register (R339). -/
theorem unintended_eq (s : State) (t : Config.Target) :
    (if t = .smmr then s.unintended else s) = if t == .smmr && s.sys.mode2.getLsbD 20 then { s with sys := { s.sys with
      stkyx := s.sys.stkyx ||| 0x80000#32, irptl := s.sys.irptl ||| 0x40#32 } } else s := by
  unfold State.unintended
  by_cases h : t = .smmr
  · simp [h]
  · simp [h]

/-- The effects of a Type 14a move behind the crossbar. -/
theorem moveFx_system {s : State} {pm long store : Bool} {u : UReg} {addr : Word} {l : Loc}
    (hlong : long = true → u = .px ∧ l.region.target = .device) (hl : locate addr.toNat = some l)
    (ht : isSystem l.region.target = true) (ho : l.off + 4 ≤ l.region.count) (hq : s.simd = false) (hh : s.seq.cacheHold = 0) :
    let m : Move := { pm := pm, addr := .direct addr, store := store, what := .reg u, size := longSize long }
    ∃ h, s.moveFx m true true =
      .ok { s.transfer (m.at l.region.target) (.reg (crossed u)) ⟨l.region, l.region.phys + l.off, .w32⟩
          (s.signed .bw (longSize long)) false m.slot with
        u64ma := false, iira := l.region.target == .smmr && s.sys.mode2.getLsbD 20, update := none, iladi := false, hits := h } := by
  intro m
  obtain ⟨-, hmem, -, -⟩ := locate_some hl
  obtain ⟨hsp, -⟩ := system_region l.region hmem ht
  have hr : s.resolve m = .ok ⟨addr, longSize long, false, none⟩ := by
    cases long <;> simp [m, State.resolve, longSize, spaceOf_locate hl, hsp, sizeLegal]
  have hz : longSize long = .none ∨ (u = .px ∧ l.region.target = .device) := by
    cases long with
    | false => exact .inl rfl
    | true => exact .inr (hlong rfl)
  have hb : s.isBroadcast m = false := by simp [m, State.isBroadcast]
  have hf := memoryFx_system (z := longSize long) hl ht ho hh hq (m := m) (u := u) rfl rfl rfl hb hz
  exact ⟨_, moveFx_ok hr hl hf⟩

theorem readU_crossed (s : State) (u : UReg) : s.readU (crossed u) = s.readU u := by
  unfold crossed
  split
  · rename_i h
    rw [h]
    rfl
  · rfl

/-- A store takes the 32 bits of its register. -/
theorem storeVal_word (s : State) {u : UReg} (h : u ≠ .px) (slot : Nat) : s.storeVal (.reg u) .w32 slot = (s.readU u).toNat := by
  cases u with
  | px => exact absurd rfl h
  | _ => rfl

theorem loadVal_word (s : State) {u : UReg} (h : u ≠ .px) (sgn : Bool) (v slot : Nat) :
    s.loadVal u .w32 sgn v slot = .w32 (BitVec.ofNat 32 v) := by
  cases u with
  | px => exact absurd rfl h
  | _ => rfl

/-- A 32-bit load from behind the crossbar. -/
theorem transfer_load_system {s : State} {m : Move} {u : UReg} {r : Config.Region} {p : Nat} (hst : m.store = false)
    (hex : m.ex = false) (hu : u ≠ .px) (ht : isSystem r.target = true) (sgn : Bool) (slot : Nat) :
    s.transfer m (.reg u) ⟨r, p, .w32⟩ sgn false slot =
      { regs := [(u, .w32 (BitVec.ofNat 32 (s.readElement m ⟨r, p, .w32⟩ slot)))], touched := [r.target], bus := [.read p 4]
        lines := s.elementUses m ⟨r, p, .w32⟩ } := by
  simp [State.transfer, hst, State.loadFx, hex, loadVal_word s hu, ht, Width.bytes]

/-- A 32-bit store behind the crossbar. -/
theorem transfer_store_system {s : State} {m : Move} {u : UReg} {r : Config.Region} {p : Nat} (hst : m.store = true)
    (hex : m.ex = false) (hu : u ≠ .px) (sgn : Bool) (slot : Nat) :
    s.transfer m (.reg u) ⟨r, p, .w32⟩ sgn false slot =
      { stores := [⟨⟨r, p, .w32⟩, (s.readU u).toNat, s.elementUses m ⟨r, p, .w32⟩⟩], touched := [r.target] } := by
  simp [State.transfer, hst, State.storeFx, hex, storeVal_word s hu]

/-- The effects of a Type 14a load behind the crossbar. -/
theorem moveFx_load_system {s : State} {pm long : Bool} {u : UReg} {addr : Word} {l : Loc}
    (hlong : long = true → u = .px ∧ l.region.target = .device) (hl : locate addr.toNat = some l)
    (ht : isSystem l.region.target = true) (ho : l.off + 4 ≤ l.region.count) (hq : s.simd = false) (hh : s.seq.cacheHold = 0) :
    ∃ v lines h, s.moveFx { pm := pm, addr := .direct addr, store := false, what := .reg u, size := longSize long } true true =
      .ok { regs := [(crossed u, .w32 v)], touched := [l.region.target], iira := l.region.target == .smmr && s.sys.mode2.getLsbD 20,
            bus := [.read (l.region.phys + l.off) 4], lines := lines, hits := h } := by
  obtain ⟨h, hf⟩ := moveFx_system (pm := pm) (store := false) hlong hl ht ho hq hh
  obtain ⟨-, hst, hex, -⟩ := at_system (m := { pm := pm, addr := .direct addr, store := false, what := .reg u, size := longSize long })
    ht rfl
  rw [transfer_load_system hst hex (crossed_ne_px u) ht] at hf
  exact ⟨_, _, h, hf⟩

/-- The effects of a Type 14a store behind the crossbar. -/
theorem moveFx_store_system {s : State} {pm long : Bool} {u : UReg} {addr : Word} {l : Loc}
    (hlong : long = true → u = .px ∧ l.region.target = .device) (hl : locate addr.toNat = some l)
    (ht : isSystem l.region.target = true) (ho : l.off + 4 ≤ l.region.count) (hq : s.simd = false) (hh : s.seq.cacheHold = 0) :
    ∃ uses h, s.moveFx { pm := pm, addr := .direct addr, store := true, what := .reg u, size := longSize long } true true =
      .ok { stores := [⟨⟨l.region, l.region.phys + l.off, .w32⟩, (s.readU u).toNat, uses⟩], touched := [l.region.target],
            iira := l.region.target == .smmr && s.sys.mode2.getLsbD 20, hits := h } := by
  obtain ⟨h, hf⟩ := moveFx_system (pm := pm) (store := true) hlong hl ht ho hq hh
  obtain ⟨-, hst, hex, -⟩ := at_system (m := { pm := pm, addr := .direct addr, store := true, what := .reg u, size := longSize long })
    ht rfl
  rw [transfer_store_system hst hex (crossed_ne_px u), readU_crossed] at hf
  exact ⟨_, h, hf⟩

/-- A Type 14a move is its effects, put into the state. -/
theorem exec_direct {s : State} {pm long store : Bool} {u : UReg} {addr : Word} {f : Fx}
    (h : s.moveFx { pm := pm, addr := .direct addr, store := store, what := .reg u, size := longSize long } true true = .ok f) :
    exec (if store then .storeUregDirect pm long u addr else .loadUregDirect pm long u addr) s = .next (s.applyFx f) := by
  have hm : s.moveOnly { pm := pm, addr := .direct addr, store := store, what := .reg u, size := longSize long } true true =
      .ok (s.applyFx f) := by rw [State.moveOnly, h]
  cases store with
  | false => exact congrArg Res.outcome hm
  | true => exact congrArg Res.outcome hm

/-- A load from behind the crossbar, put into the state. -/
theorem applyFx_load_system (s : State) {u : UReg} {v : Word} {t : Config.Target} {p : Nat} {lines : List LineUse} {b : Bool}
    {h : BitVec 3} (ht : isSystem t = true) :
    let s1 := if b then { s with sys := { s.sys with
      stkyx := s.sys.stkyx ||| 0x80000#32, irptl := s.sys.irptl ||| 0x40#32 } } else s
    ButHits { s1.writeU u v with bus := .read p 4 :: s.bus } (s.applyFx
      { regs := [(u, .w32 v)], touched := [t], iira := b, bus := [.read p 4], lines := lines, hits := h }) := by
  intro s1
  have ha := applyFx_reads s (f := { regs := [(u, .w32 v)], touched := [t], iira := b, bus := [.read p 4], lines := lines, hits := h })
    rfl rfl rfl rfl (by
      intro x hx w m
      rw [List.mem_singleton.1 hx]
      exact touch_system w m ht)
  rw [applyLatches_unintended s rfl rfl] at ha
  have hbus : s1.bus = s.bus := by
    simp only [s1]
    split <;> rfl
  have hregs : State.applyRegs s1 [(u, .w32 v)] = s1.writeU u v := by rw [applyRegs_cons, applyRegs_nil, writeVal_w32]
  have hu : (State.applyUpdate s1 none).applyRegs [(u, .w32 v)] = s1.writeU u v := hregs
  simp only at ha
  change ButHits { (State.applyUpdate s1 none).applyRegs [(u, .w32 v)] with
    bus := [.read p 4] ++ ((State.applyUpdate s1 none).applyRegs [(u, .w32 v)]).bus } _ at ha
  rw [hu, State.writeU_bus, hbus] at ha
  exact ha

/-- A store behind the crossbar, put into the state. -/
theorem applyFx_store_system (s : State) {r : Config.Region} {p : Nat} {v : Word} {uses : List LineUse} {b : Bool} {h : BitVec 3}
    (ht : isSystem r.target = true) :
    let s1 := if b then { s with sys := { s.sys with
      stkyx := s.sys.stkyx ||| 0x80000#32, irptl := s.sys.irptl ||| 0x40#32 } } else s
    ButHits { s1 with bus := .write p 4 v.toNat :: s.bus, excl := dropMonitor s.excl p 4 }
      (s.applyFx { stores := [⟨⟨r, p, .w32⟩, v.toNat, uses⟩], touched := [r.target], iira := b, hits := h }) := by
  intro s1
  have hs1 : s.applyLatches { stores := [⟨⟨r, p, .w32⟩, v.toNat, uses⟩], touched := [r.target], iira := b, hits := h } = s1 :=
    applyLatches_unintended s rfl rfl
  have hv : v.toNat % 256 ^ 4 = v.toNat := Nat.mod_eq_of_lt v.isLt
  have hbus : s1.bus = s.bus ∧ s1.excl = s.excl := by
    simp only [s1]
    split <;> exact ⟨rfl, rfl⟩
  unfold State.applyFx
  rw [hs1]
  simp only [State.applyUpdate, State.applyRegs, List.foldl, State.applyMemory, State.applyStore, ht, if_true, touch_system _ _ ht,
    Width.bytes, hv, hbus]
  exact ⟨_, _, rfl⟩

/-- Settles O37. -/
theorem crossbarAccesses : Obligations.CrossbarAccesses := by
  intro s pm long u addr l hlong hl htarget ho hq hh p s1
  have ht : isSystem l.region.target = true := by rcases htarget with h | h <;> rw [h] <;> rfl
  have hs1 : s1 = _ := unintended_eq s l.region.target
  refine ⟨?_, ?_⟩
  · obtain ⟨v, lines, h, hf⟩ := moveFx_load_system (pm := pm) hlong hl ht ho hq hh
    refine ⟨_, exec_direct (store := false) hf, v, ?_⟩
    rw [hs1]
    exact applyFx_load_system s ht
  · obtain ⟨uses, h, hf⟩ := moveFx_store_system (pm := pm) hlong hl ht ho hq hh
    refine ⟨_, exec_direct (store := true) hf, ?_⟩
    rw [hs1]
    exact applyFx_store_system s ht

end Sys2Proof.Machine
end

section
/-! PROOFS. A computation beside a move (R48, R80, R302, R505, R510). -/

namespace Sys2Proof.Machine

open Sys2Proof

/-! ### Results kept back for registers that a move writes -/

/-- Registers `j` and `k` belong to one result: the same register or, of a pair result, the two of a pair. -/
def sameResult (wide : Bool) (j k : RegNo) : Prop := j = k ∨ (wide = true ∧ j = k ^^^ 1#4)

theorem sameResult_symm {wide : Bool} {j k : RegNo} (h : sameResult wide j k) : sameResult wide k j := by
  rcases h with rfl | ⟨hw, rfl⟩
  · exact .inl rfl
  · refine .inr ⟨hw, ?_⟩
    rw [BitVec.xor_assoc, BitVec.xor_self, BitVec.xor_zero]

/-- Each unit of results consists of whole results: one register each, or whole pairs. -/
def WholeResults (wide : Bool) (us : List (List (RegNo × Reg40))) : Prop :=
  ∀ u ∈ us, ∀ k, (∃ q ∈ u, q.1 = k) → ∀ j, (∃ q ∈ u, q.1 = j) ↔ sameResult wide j k

/-- Some register of the result of `k` is taken. -/
def Taken (wide y : Bool) (busy : List UReg) (k : RegNo) : Prop := ∃ j, sameResult wide j k ∧ peReg y j ∈ busy

theorem peReg_inj {y : Bool} {j k : RegNo} (h : peReg y j = peReg y k) : j = k := by
  cases y <;> simpa [peReg] using h

/-- A register that no result of the unit names keeps its value. -/
theorem setUnit_other {y : Bool} {k : RegNo} (u : List (RegNo × Reg40)) (t : State) (h : ∀ q ∈ u, q.1 ≠ k) :
    (u.foldl (fun t q => t.setDreg y q.1 q.2) t).dreg y k = t.dreg y k := by
  induction u generalizing t with
  | nil => rfl
  | cons q u ih =>
    rw [List.foldl_cons, ih _ fun q' hq' => h q' (by simp [hq']), State.dreg_setDreg, if_neg]
    exact fun e => h q (by simp) e.2.symm

/-- The results of a unit depend on the register they replace alone. -/
theorem setUnit_congr {y : Bool} {k : RegNo} (u : List (RegNo × Reg40)) {t t' : State} (h : t.dreg y k = t'.dreg y k) :
    (u.foldl (fun t q => t.setDreg y q.1 q.2) t).dreg y k = (u.foldl (fun t q => t.setDreg y q.1 q.2) t').dreg y k := by
  induction u generalizing t t' with
  | nil => exact h
  | cons q u ih => exact ih (by rw [State.dreg_setDreg, State.dreg_setDreg, h])

/-- A unit that names `k` is kept back if and only if the result of `k` is taken. -/
theorem unit_blocked {wide y : Bool} {u : List (RegNo × Reg40)} {us : List (List (RegNo × Reg40))} (hw : WholeResults wide us)
    (hu : u ∈ us) {k : RegNo} (hk : ∃ q ∈ u, q.1 = k) (busy : List UReg) :
    (u.any fun q => busy.contains (peReg y q.1)) = true ↔ Taken wide y busy k := by
  simp only [List.any_eq_true, List.contains_iff_mem]
  constructor
  · rintro ⟨q, hq, hb⟩
    exact ⟨q.1, (hw u hu k hk q.1).1 ⟨q, hq, rfl⟩, hb⟩
  · rintro ⟨j, hj, hb⟩
    obtain ⟨q, hq, rfl⟩ := (hw u hu k hk j).2 hj
    exact ⟨q, hq, hb⟩

/-- A unit that does not name `k` takes no register of its result. -/
theorem taken_other {wide y : Bool} {u : List (RegNo × Reg40)} {us : List (List (RegNo × Reg40))} (hw : WholeResults wide us)
    (hu : u ∈ us) {k : RegNo} (hk : ¬ ∃ q ∈ u, q.1 = k) (busy : List UReg) :
    Taken wide y (u.map (fun q => peReg y q.1) ++ busy) k ↔ Taken wide y busy k := by
  constructor
  · rintro ⟨j, hj, hb⟩
    rcases List.mem_append.1 hb with hb | hb
    · obtain ⟨q, hq, he⟩ := List.mem_map.1 hb
      have hqj : q.1 = j := peReg_inj he
      exact absurd ((hw u hu j ⟨q, hq, hqj⟩ k).2 (sameResult_symm hj)) hk
    · exact ⟨j, hj, hb⟩
  · rintro ⟨j, hj, hb⟩
    exact ⟨j, hj, List.mem_append_right _ hb⟩

/-- A unit that does not name `k` changes nothing of it. -/
theorem writeUnit_other {wide y : Bool} {u : List (RegNo × Reg40)} {us : List (List (RegNo × Reg40))} (hw : WholeResults wide us)
    (hu : u ∈ us) {k : RegNo} (hk : ¬ ∃ q ∈ u, q.1 = k) (p : State × List UReg) :
    (State.writeUnit y p u).1.dreg y k = p.1.dreg y k ∧
    (Taken wide y (State.writeUnit y p u).2 k ↔ Taken wide y p.2 k) := by
  unfold State.writeUnit
  split
  · exact ⟨rfl, Iff.rfl⟩
  · exact ⟨setUnit_other u p.1 fun q hq e => hk ⟨q, hq, e⟩, taken_other hw hu hk p.2⟩

/-- A unit that names `k` is written if its result is not taken, and takes it. -/
theorem writeUnit_named {wide y : Bool} {u : List (RegNo × Reg40)} {us : List (List (RegNo × Reg40))} (hw : WholeResults wide us)
    (hu : u ∈ us) {k : RegNo} (hk : ∃ q ∈ u, q.1 = k) (p : State × List UReg) :
    (Taken wide y p.2 k → State.writeUnit y p u = p) ∧
    (¬ Taken wide y p.2 k → (State.writeUnit y p u).1 = u.foldl (fun t q => t.setDreg y q.1 q.2) p.1 ∧
      Taken wide y (State.writeUnit y p u).2 k) := by
  have hb := unit_blocked hw hu hk p.2 (y := y)
  refine ⟨fun h => if_pos (hb.2 h), fun h => ?_⟩
  have hwrite : State.writeUnit y p u = (u.foldl (fun t q => t.setDreg y q.1 q.2) p.1, u.map (fun q => peReg y q.1) ++ p.2) :=
    if_neg (mt hb.1 h)
  obtain ⟨q, hq, hqk⟩ := hk
  rw [hwrite]
  exact ⟨rfl, k, .inl rfl, List.mem_append_left _ (List.mem_map.2 ⟨q, hq, by rw [hqk]⟩)⟩

/-- A register after the results depends on its value before and on whether its result is taken alone. -/
theorem writeUnits_congr {wide y : Bool} {k : RegNo} {us : List (List (RegNo × Reg40))} (hw : WholeResults wide us)
    {p p' : State × List UReg} (ht : p.1.dreg y k = p'.1.dreg y k) (hb : Taken wide y p.2 k ↔ Taken wide y p'.2 k) :
    (us.foldl (State.writeUnit y) p).1.dreg y k = (us.foldl (State.writeUnit y) p').1.dreg y k := by
  induction us generalizing p p' with
  | nil => exact ht
  | cons u us ih =>
    have hw' : WholeResults wide us := fun v hv => hw v (by simp [hv])
    have hu : u ∈ u :: us := by simp
    rw [List.foldl_cons, List.foldl_cons]
    by_cases hk : ∃ q ∈ u, q.1 = k
    · by_cases hc : Taken wide y p.2 k
      · rw [(writeUnit_named hw hu hk p).1 hc, (writeUnit_named hw hu hk p').1 (hb.1 hc)]
        exact ih hw' ht hb
      · obtain ⟨h1, h2⟩ := (writeUnit_named hw hu hk p).2 hc
        obtain ⟨h3, h4⟩ := (writeUnit_named hw hu hk p').2 (mt hb.2 hc)
        exact ih hw' (by rw [h1, h3]; exact setUnit_congr u ht) (iff_of_true h2 h4)
    · obtain ⟨h1, h2⟩ := writeUnit_other hw hu hk p (y := y)
      obtain ⟨h3, h4⟩ := writeUnit_other hw hu hk p' (y := y)
      exact ih hw' (by rw [h1, h3, ht]) (h2.trans (hb.trans h4.symm))

/-- A result that is taken is not written at all (R48, R1002). -/
theorem writeUnits_taken {wide y : Bool} {k : RegNo} {us : List (List (RegNo × Reg40))} (hw : WholeResults wide us)
    {p : State × List UReg} (hb : Taken wide y p.2 k) : (us.foldl (State.writeUnit y) p).1.dreg y k = p.1.dreg y k := by
  induction us generalizing p with
  | nil => rfl
  | cons u us ih =>
    have hw' : WholeResults wide us := fun v hv => hw v (by simp [hv])
    have hu : u ∈ u :: us := by simp
    rw [List.foldl_cons]
    by_cases hk : ∃ q ∈ u, q.1 = k
    · rw [(writeUnit_named hw hu hk p).1 hb]
      exact ih hw' hb
    · obtain ⟨h1, h2⟩ := writeUnit_other hw hu hk p (y := y)
      rw [ih hw' (h2.2 hb), h1]

/-! ### The elements together -/

/-- Element `y` executes. -/
def State.executes (s : State) (cx cy y : Bool) : Bool := if y then s.simd && cy else cx

/-- A data register after a computation: the results of its element. -/
theorem runPe_dreg {s : State} {cx cy : Bool} {busy : List UReg} {f : Bool → PeOut} {wide : Bool}
    (hw : ∀ y, WholeResults wide (f y).units) (y : Bool) (k : RegNo) :
    (s.runPe cx cy busy f).dreg y k =
      if s.executes cx cy y then ((f y).units.foldl (State.writeUnit y) (s, busy)).1.dreg y k else s.dreg y k := by
  have hx : ∀ z : Bool, z ≠ false → (if cx then s.applyPe false busy (f false) else s).dreg z k = s.dreg z k := by
    intro z hz
    split
    · rw [applyPe_dreg, writeUnits_other _ _ _ (.inl hz)]
    · rfl
  unfold State.runPe State.executes
  dsimp only
  cases y with
  | false =>
    have h1 : (if cx then s.applyPe false busy (f false) else s).dreg false k =
        if cx then ((f false).units.foldl (State.writeUnit false) (s, busy)).1.dreg false k else s.dreg false k := by
      cases cx
      · rfl
      · exact applyPe_dreg _ _ _ _ _ _
    refine Eq.trans ?_ h1
    split
    · rw [applyPe_dreg, writeUnits_other _ _ _ (.inl (by simp))]
    · rfl
  | true =>
    rw [if_pos rfl]
    split
    · rw [applyPe_dreg]
      exact writeUnits_congr (hw true) (hx true (by simp)) Iff.rfl
    · exact hx true (by simp)

/-- Beside a move: a result that the move takes is not written, every other one is (R48, R302, R1002). -/
theorem runPe_busy {s : State} {cx cy : Bool} {busy : List UReg} {f : Bool → PeOut} {wide : Bool}
    (hw : ∀ y, WholeResults wide (f y).units) (y : Bool) (k : RegNo) :
    (Taken wide y busy k → (s.runPe cx cy busy f).dreg y k = s.dreg y k) ∧
    (¬ Taken wide y busy k → (s.runPe cx cy busy f).dreg y k = (s.runPe cx cy [] f).dreg y k) := by
  rw [runPe_dreg hw, runPe_dreg hw]
  refine ⟨fun h => ?_, fun h => ?_⟩
  · rw [writeUnits_taken (hw y) h, ite_self]
  · have hn : ¬ Taken wide y [] k := by rintro ⟨j, -, hj⟩; exact absurd hj (by simp)
    rw [writeUnits_congr (hw y) (p := (s, busy)) (p' := (s, [])) rfl (iff_of_false h hn)]

theorem runPe_astat (s : State) (cx cy : Bool) (busy : List UReg) (f : Bool → PeOut) (y : Bool) :
    (s.runPe cx cy busy f).astat y = if s.executes cx cy y then (f y).astat (s.astat y) else s.astat y := by
  unfold State.runPe State.executes
  dsimp only
  cases cx <;> cases h : s.simd && cy <;> cases y <;> simp [applyPe_astat]

theorem runPe_stky (s : State) (cx cy : Bool) (busy : List UReg) (f : Bool → PeOut) (y : Bool) :
    (s.runPe cx cy busy f).stky y = if s.executes cx cy y then (f y).sticky.apply (s.stky y) else s.stky y := by
  unfold State.runPe State.executes
  dsimp only
  cases cx <;> cases h : s.simd && cy <;> cases y <;> simp [applyPe_stky]

/-- No sticky bit is cleared. -/
theorem runPe_stky_keeps (s : State) (cx cy : Bool) (busy : List UReg) (f : Bool → PeOut) (y : Bool) :
    (s.runPe cx cy busy f).stky y ||| s.stky y = (s.runPe cx cy busy f).stky y := by
  rw [runPe_stky]
  split
  · simp only [Sticky.apply]
    ext i hi
    simp +contextual
  · rw [BitVec.or_self]

theorem runPe_mrPhys (s : State) (cx cy : Bool) (busy : List UReg) (f : Bool → PeOut) (z bg : Bool) :
    (s.runPe cx cy busy f).data.mrPhys z bg = (s.runPe cx cy [] f).data.mrPhys z bg := by
  unfold State.runPe
  dsimp only
  cases cx <;> cases s.simd && cy <;> simp [applyPe_mrPhys]

theorem runPe_fifo (s : State) (cx cy : Bool) (busy : List UReg) (f : Bool → PeOut) :
    SameFifo (s.runPe cx cy [] f) (s.runPe cx cy busy f) := by
  have one : ∀ (t t' : State) (y : Bool) (b b' : List UReg), SameFifo t t' → SameFifo (t.applyPe y b (f y)) (t'.applyPe y b' (f y)) := by
    rintro t t' y b b' ⟨h1, h2⟩
    have e1 := applyPe_fifo t y b (f y)
    have e2 := applyPe_fifo t' y b' (f y)
    rw [h1, h2, ← e1] at e2
    exact ⟨congrArg Prod.fst e2, congrArg Prod.snd e2⟩
  unfold State.runPe
  dsimp only
  have h1 : SameFifo (if cx then s.applyPe false [] (f false) else s) (if cx then s.applyPe false busy (f false) else s) := by
    cases cx
    · exact ⟨rfl, rfl⟩
    · exact one _ _ _ _ _ ⟨rfl, rfl⟩
  cases s.simd && cy
  · exact h1
  · exact one _ _ _ _ _ h1

theorem runPe_px (s : State) (cx cy : Bool) (busy : List UReg) (f : Bool → PeOut) : (s.runPe cx cy busy f).data.px = s.data.px := by
  unfold State.runPe
  dsimp only
  cases cx <;> cases s.simd && cy <;> simp [applyPe_px]

theorem runPe_hidden (s : State) (cx cy : Bool) (busy : List UReg) (f : Bool → PeOut) (y : Bool) (n : RegNo) :
    (s.runPe cx cy busy f).hiddenDreg y n = s.hiddenDreg y n := by
  unfold State.runPe
  dsimp only
  cases cx <;> cases s.simd && cy <;> simp [applyPe_hiddenDreg]

/-! ### The results of each computation -/

/-- Each unit is one register. -/
def Singles (us : List (List (RegNo × Reg40))) : Prop := ∀ u ∈ us, ∃ n v, u = [(n, v)]

/-- Each unit is a pair. -/
def PairUnits (us : List (List (RegNo × Reg40))) : Prop := ∀ u ∈ us, ∃ p v, u = pairUnit p v

theorem singles_nil : Singles [] := fun _ h => absurd h (by simp)

theorem singles_one (n : RegNo) (v : Reg40) : Singles [[(n, v)]] := fun _ h => ⟨n, v, List.mem_singleton.1 h⟩

theorem singles_two (n m : RegNo) (v w : Reg40) : Singles [[(n, v)], [(m, w)]] := fun u h => by
  rcases List.mem_cons.1 h with rfl | h
  · exact ⟨n, v, rfl⟩
  · exact ⟨m, w, List.mem_singleton.1 h⟩

theorem pairUnits_one (p : Pair) (v : Long) : PairUnits [pairUnit p v] := fun _ h => ⟨p, v, List.mem_singleton.1 h⟩

/-- Two operations at once have the units of both. -/
theorem parallel_units {P : List (RegNo × Reg40) → Prop} {a m : PeOut} (ha : ∀ u ∈ a.units, P u) (hm : ∀ u ∈ m.units, P u) :
    ∀ u ∈ (parallelOut a m).units, P u := by
  intro u hu
  simp only [parallelOut, List.mem_append] at hu
  rcases hu with (hu | hu) | hu
  · exact ha u (List.mem_of_mem_take hu)
  · exact hm u hu
  · exact ha u (List.mem_of_mem_drop hu)

theorem compare_singles (f : Fmt) (a b : Nat) : Singles (f.compare a b).units := by
  unfold Fmt.compare
  split <;> exact singles_nil

theorem bitdepOut_singles (s : State) (x : Word) (len : Nat) : Singles (s.bitdepOut x len).units := by
  unfold State.bitdepOut
  dsimp only
  split <;> exact singles_nil

theorem bitextOut_singles (s : State) (nu : Bool) (rn : RegNo) (len : Nat) : Singles (s.bitextOut nu rn len).units := by
  unfold State.bitextOut
  dsimp only
  split <;> exact singles_one _ _

theorem mfFixAlu_singles (s : State) (y : Bool) (op : MfFixAlu) (ra : RegNo) (q : MfIn) : Singles (s.mfFixAlu y op ra q).units := by
  cases op <;> exact singles_one _ _

theorem mfFixMul_singles (s : State) (y : Bool) (op : MfFixMul) (rm : RegNo) (q : MfIn) : Singles (s.mfFixMul y op rm q).units := by
  cases op <;> exact singles_one _ _

theorem mfFltAlu_singles (s : State) (y : Bool) (op : MfFltAlu) (ra : RegNo) (q : MfIn) : Singles (s.mfFltAlu y op ra q).units := by
  cases op <;> exact singles_one _ _

/-- A computation without a pair result writes single registers. -/
theorem pe_singles (s : State) (y : Bool) {c : Compute} (h : pairResult c = false) : Singles (s.pe y c).units := by
  cases c with
  | none | btst | mulMr | rndMr | satMr | clrMr | writeMr | setBffwrp => exact singles_nil
  | fixComp unsigned => cases unsigned <;> exact singles_nil
  | fltComp | dblComp => exact compare_singles _ _ _
  | bitdep => exact bitdepOut_singles _ _ _
  | bitext => exact bitextOut_singles _ _ _ _
  | fixAddSub | fltAddSub => exact singles_two _ _ _ _
  | mfFix => exact parallel_units (mfFixAlu_singles _ _ _ _ _) (mfFixMul_singles _ _ _ _ _)
  | mfMac => exact parallel_units (mfFixAlu_singles _ _ _ _ _) singles_nil
  | mfFlt => exact parallel_units (mfFltAlu_singles _ _ _ _ _) (singles_one _ _)
  | mfFixAddSub | mfFltAddSub => exact parallel_units (singles_two _ _ _ _) (singles_one _ _)
  | dbl2 | dbl1 | dblFloat | dblFloatBy | dblFromFlt | dblScalb | dblMul | dblMulFlt | dblMulFlt2 | mfDbl => exact absurd h (by simp [pairResult])
  | _ => exact singles_one _ _

/-- A computation with a pair result writes pairs. -/
theorem pe_pairs (s : State) (y : Bool) {c : Compute} (h : pairResult c = true) : PairUnits (s.pe y c).units := by
  cases c with
  | dbl2 | dbl1 | dblFloat | dblFloatBy | dblFromFlt | dblScalb | dblMul | dblMulFlt | dblMulFlt2 => exact pairUnits_one _ _
  | mfDbl => exact parallel_units (pairUnits_one _ _) (pairUnits_one _ _)
  | _ => exact absurd h (by simp [pairResult])

theorem peShift_singles (s : State) (y : Bool) (sh : ShiftImm) : Singles (s.peShift y sh).units := by
  cases sh with
  | btst | setBffwrp => exact singles_nil
  | bitdep => exact bitdepOut_singles _ _ _
  | bitext => exact bitextOut_singles _ _ _ _
  | _ => exact singles_one _ _

theorem singles_whole {us : List (List (RegNo × Reg40))} (h : Singles us) : WholeResults false us := by
  intro u hu k hk j
  obtain ⟨n, v, rfl⟩ := h u hu
  obtain ⟨q, hq, rfl⟩ := hk
  rw [List.mem_singleton.1 hq]
  simp [sameResult, eq_comm]

/-- The names of a pair are each other's partner. -/
theorem pair_partner : ∀ (p : Pair) (k j : RegNo), (oddOf p = k ∨ evenOf p = k) →
    ((oddOf p = j ∨ evenOf p = j) ↔ (j = k ∨ j = k ^^^ 1#4)) := by decide

theorem pairs_whole {us : List (List (RegNo × Reg40))} (h : PairUnits us) : WholeResults true us := by
  have hmem : ∀ (p : Pair) (v : Long) (k : RegNo), (∃ q ∈ pairUnit p v, q.1 = k) ↔ (oddOf p = k ∨ evenOf p = k) := by
    intro p v k
    simp [pairUnit]
  intro u hu k hk j
  obtain ⟨p, v, rfl⟩ := h u hu
  rw [hmem] at hk ⊢
  rw [pair_partner p k j hk]
  simp [sameResult]

theorem pe_whole (s : State) (c : Compute) (y : Bool) : WholeResults (pairResult c) (s.pe y c).units := by
  cases h : pairResult c with
  | false => exact singles_whole (pe_singles s y h)
  | true => exact pairs_whole (pe_pairs s y h)

/-! ### A move in a state that a computation has changed -/

/-- The state without what a computation may write: the data registers and the arithmetic status. -/
def State.core (s : State) : State :=
  { s with
    data := State.reset.data
    sys := { s.sys with astatx := 0#32, astaty := 0#32, stkyx := 0#32, stkyy := 0#32 } }

theorem computed_core {s t : State} (h : Computed s t) : t.core = s.core := by
  obtain ⟨d, ax, ay, kx, ky, rfl⟩ := h
  rfl

/-- What a step does outside the data registers and the arithmetic status does not depend on them. -/
def ByCore (op : State → State) : Prop := ∀ s, (op s).core = (op s.core).core

theorem ByCore.comp {f g : State → State} (hf : ByCore f) (hg : ByCore g) : ByCore fun s => g (f s) := by
  intro s
  change (g (f s)).core = (g (f s.core)).core
  rw [hg (f s), hf s, ← hg (f s.core)]

theorem ByCore.congr {op : State → State} (h : ByCore op) {s t : State} (hc : t.core = s.core) : (op t).core = (op s).core := by
  rw [h t, h s, hc]

theorem byCore_fold {α : Type} {op : State → α → State} (h : ∀ a, ByCore fun s => op s a) (l : List α) :
    ByCore fun s => l.foldl op s := by
  induction l with
  | nil => exact fun _ => rfl
  | cons a l ih => exact (h a).comp ih

theorem byCore_setDreg (y : Bool) (n : RegNo) (v : Reg40) : ByCore fun s => s.setDreg y n v := by
  intro s
  dsimp only
  unfold State.setDreg
  (repeat' split) <;> rfl

theorem byCore_setI (n : RegNo) (v : Word) : ByCore fun s => s.setI n v := by
  intro s
  have h : s.core.altDag n = s.altDag n := rfl
  dsimp only [State.setI]
  rw [h]
  split <;> rfl

theorem byCore_setM (n : RegNo) (v : Word) : ByCore fun s => s.setM n v := by
  intro s
  have h : s.core.altDag n = s.altDag n := rfl
  dsimp only [State.setM]
  rw [h]
  split <;> rfl

theorem byCore_setL (n : RegNo) (v : Word) : ByCore fun s => s.setL n v := by
  intro s
  have h : s.core.altDag n = s.altDag n := rfl
  dsimp only [State.setL]
  rw [h]
  split <;> rfl

theorem byCore_setBOnly (n : RegNo) (v : Word) : ByCore fun s => s.setBOnly n v := by
  intro s
  have h : s.core.altDag n = s.altDag n := rfl
  dsimp only [State.setBOnly]
  rw [h]
  split <;> rfl

theorem core_guarded (s : State) (q : Seq) (r : Option Refusal) : (s.guarded q r).core = (s.core.guarded q r).core := by
  cases r <;> rfl

theorem byCore_writeSys (r : SysReg) (v : Word) : ByCore fun s => s.writeSys r v := by
  intro s
  cases r <;> rfl

theorem byCore_writeU (u : UReg) (v : Word) : ByCore fun s => s.writeU u v := by
  cases u with
  | r n | s n => exact byCore_setDreg _ _ _
  | i n => exact byCore_setI _ _
  | m n => exact byCore_setM _ _
  | l n => exact byCore_setL _ _
  | b n => exact (byCore_setBOnly n v).comp (byCore_setI n v)
  | sys r => exact byCore_writeSys r v
  | pcstk => exact fun s => core_guarded s (s.seq.setPcstk v) s.seq.pcstkRefusal
  | pcstkp => exact fun s => core_guarded s { s.seq with pcStkpNew := some (v.truncate 5) } s.seq.slotRefusal
  | laddr => exact fun s => core_guarded s (s.seq.setLaddr v) s.seq.laddrRefusal
  | curlcntr => exact fun s => core_guarded s (s.seq.setCurlcntr v) s.seq.curlcntrRefusal
  | _ => exact fun _ => rfl

theorem byCore_writeVal (u : UReg) (x : RegVal) : ByCore fun s => s.writeVal u x := by
  cases x with
  | w32 v =>
    intro s
    simp only [writeVal_w32]
    exact byCore_writeU u v s
  | w40 v =>
    cases u with
    | r n | s n => exact byCore_setDreg _ _ _
    | px => exact fun _ => rfl
    | _ => exact byCore_writeU _ (hi32 v)
  | w64 v =>
    cases u with
    | px => exact fun _ => rfl
    | _ => exact byCore_writeU _ (v.truncate 32)

theorem byCore_applyRegs (l : List (UReg × RegVal)) : ByCore fun s => s.applyRegs l :=
  byCore_fold (op := fun (s : State) (p : UReg × RegVal) => s.writeVal p.1 p.2) (fun p => byCore_writeVal p.1 p.2) l

/-! ### Latches as marks -/

/-- Sticky bits of STKYX and latch bits set. -/
def State.marked (s : State) (sticks raises : Word) : State :=
  { s with sys := { s.sys with stkyx := s.sys.stkyx ||| sticks, irptl := s.sys.irptl ||| raises } }

/-- The sticky bits an access sets before its transfer (R311, R339). -/
def Fx.sticks (f : Fx) : Word := flagBit 19 f.iira ||| flagBit 20 f.u64ma

/-- The interrupts an access latches before its transfer (R311, R338, R339). -/
def Fx.raises (f : Fx) (mode2 : Word) : Word := flagBit 8 f.iladi ||| flagBit 6 (f.iira || (f.u64ma && mode2.getLsbD 21))

theorem applyLatches_eq (s : State) (f : Fx) : s.applyLatches f = s.marked f.sticks (f.raises s.sys.mode2) := by
  unfold State.applyLatches State.marked Fx.sticks Fx.raises State.raiseIf State.raise State.stick
  cases hm : s.sys.mode2.getLsbD 21 <;> have hm' : s.sys.mode2[21] = _ := hm <;>
    cases f.iladi <;> cases f.iira <;> cases f.u64ma <;> simp [hm', flagBit, Irq.num, BitVec.or_assoc]

/-- The sticky bit and the latch of a circular buffer overflow (R286). -/
def IndexWrite.sticks (w : IndexWrite) : Word := flagBit 17 (w.wrapped && w.a == 7#4) ||| flagBit 18 (w.wrapped && w.a == 15#4)

def IndexWrite.raises (w : IndexWrite) : Word :=
  flagBit Irq.cb7i.num (w.wrapped && w.a == 7#4) ||| flagBit Irq.cb15i.num (w.wrapped && w.a == 15#4)

theorem applyIndex_eq (s : State) (w : IndexWrite) : s.applyIndex w = (s.setI w.a w.value).marked w.sticks w.raises := by
  unfold State.applyIndex State.marked IndexWrite.sticks IndexWrite.raises State.raise State.stick
  cases w.wrapped with
  | false => simpa [flagBit] using (setI_keeps s w.a w.value).1
  | true =>
    by_cases h7 : w.a = 7#4
    · simp [h7, flagBit]
    · by_cases h15 : w.a = 15#4
      · simp [h15, flagBit]
      · simpa [h7, h15, flagBit] using (setI_keeps s w.a w.value).1

theorem byCore_raiseIf (b : Bool) (k : Irq) : ByCore fun s => s.raiseIf b k := by
  cases b <;> exact fun _ => rfl

theorem byCore_marked (k q : Word) : ByCore fun s => s.marked k q := fun _ => rfl

theorem byCore_applyLatches (f : Fx) : ByCore fun s => s.applyLatches f := by
  intro s
  dsimp only
  rw [applyLatches_eq, applyLatches_eq]
  rfl

theorem byCore_applyUpdate (w : Option IndexWrite) : ByCore fun s => s.applyUpdate w := by
  cases w with
  | none => exact fun _ => rfl
  | some w =>
    intro s
    change (s.applyIndex w).core = (s.core.applyIndex w).core
    rw [applyIndex_eq, applyIndex_eq]
    exact ((byCore_setI w.a w.value).comp (byCore_marked w.sticks w.raises)) s

theorem byCore_applyStore (x : Stored) : ByCore fun s => s.applyStore x := by
  intro s
  dsimp only
  unfold State.applyStore
  dsimp only
  split <;> rfl

theorem byCore_writeMmr (r : CoreMmr) (v : Word) : ByCore fun s => s.writeMmr r v := by
  intro s
  have hg : s.core.gov = s.gov := rfl
  have hm : s.core.mmr = s.mmr := rfl
  dsimp only
  unfold State.writeMmr State.storeMmr State.writeSysctl State.writeGperr
  rw [hg, hm]
  cases r <;> dsimp only <;> (repeat' split) <;> rfl

theorem byCore_applyAz (p : Bool × Bool) : ByCore fun s => s.applyAz p := by
  intro s
  dsimp only [State.applyAz]
  split <;> rfl

/-- The state after a move's stores, with the blocks it woke, its cache lines, its mark, its reads on the crossbar and its
breakpoint hits; `s` is the state before the stores. -/
def State.accessed (s s1 : State) (f : Fx) : State :=
  { s1 with
    mem := f.touched.foldl s1.touch s1.mem
    cache := { s.useLines f.lines s1.cache with near := if f.near then 13 else s1.cache.near }
    excl := f.monitor <|> s1.excl
    bus := f.bus ++ s1.bus
    bdry := { s1.bdry with hits := s1.bdry.hits ||| f.hits } }

/-- The write of a memory-mapped register, if the move makes one. -/
def State.storesMmr (s : State) (x : Option (CoreMmr × Word)) : State :=
  match x with
  | none => s
  | some (r, v) => s.writeMmr r v

theorem applyMemory_eq (s : State) (f : Fx) : s.applyMemory f =
    f.az.foldl State.applyAz ((s.accessed (f.stores.foldl State.applyStore s) f).storesMmr f.mmr) := rfl

theorem accessed_core (s s1 : State) (f : Fx) : (s.accessed s1 f).core = (s.core.accessed s1.core f).core := rfl

theorem byCore_storesMmr (x : Option (CoreMmr × Word)) : ByCore fun s => s.storesMmr x := by
  cases x with
  | none => exact fun _ => rfl
  | some p => exact byCore_writeMmr p.1 p.2

theorem byCore_applyMemory (f : Fx) : ByCore fun s => s.applyMemory f := by
  have hmid : ByCore fun s => s.accessed (f.stores.foldl State.applyStore s) f := by
    intro s
    have hs := byCore_fold (op := State.applyStore) byCore_applyStore f.stores s
    dsimp only at hs ⊢
    rw [accessed_core, hs]
    exact (accessed_core s.core _ f).symm
  exact hmid.comp ((byCore_storesMmr f.mmr).comp (byCore_fold byCore_applyAz f.az))

/-- The registers that the PM load of a dual move writes: none if it moves 64 bits and the DM load names one of them. -/
def Fx.unblocked (pm dm : Fx) : List (UReg × RegVal) :=
  if pm.long && pm.dests.any fun u => dm.dests.contains u then [] else pm.regs

theorem byCore_applyConvert (src dst : RegNo) (toByte breg go : Bool) : ByCore fun s => s.applyConvert src dst toByte breg go := by
  cases go with
  | false => exact fun _ => rfl
  | true =>
    cases breg with
    | false =>
      exact fun s => ((byCore_raiseIf (convert toByte (s.ireg src)).2 .iladi).comp
        (byCore_setI dst (convert toByte (s.ireg src)).1)) s
    | true =>
      exact fun s => ((byCore_raiseIf (convert toByte (s.breg src)).2 .iladi).comp
        (byCore_setBOnly dst (convert toByte (s.breg src)).1)) s

/-! ### What register writes leave of the data registers and the arithmetic status -/

/-- What a transferred value leaves in a data register (R49). -/
def RegVal.to40 : RegVal → Reg40
  | .w32 v => reg40 v
  | .w40 v => v
  | .w64 v => reg40 (v.truncate 32)

/-- What a transferred value leaves in a 32-bit register (R49). -/
def RegVal.to32 : RegVal → Word
  | .w32 v => v
  | .w40 v => hi32 v
  | .w64 v => v.truncate 32

/-- A value for a register that is neither a data register nor PX is written as 32 bits. -/
theorem writeVal_eq (s : State) {u : UReg} (x : RegVal) (h : dregOf u = none) (hp : u ≠ .px) : s.writeVal u x = s.writeU u x.to32 := by
  cases x with
  | w32 v => exact writeVal_w32 s u v
  | _ =>
    cases u with
    | r n | s n => exact absurd h (by simp [dregOf])
    | px => exact absurd rfl hp
    | _ => rfl

theorem writeVal_dreg_self (s : State) (y : Bool) (n : RegNo) (x : RegVal) : s.writeVal (peReg y n) x = s.setDreg y n x.to40 := by
  cases y <;> cases x <;> rfl

theorem writeVal_r (s : State) (n : RegNo) (x : RegVal) : s.writeVal (.r n) x = s.setDreg false n x.to40 := writeVal_dreg_self s false n x

theorem writeVal_s (s : State) (n : RegNo) (x : RegVal) : s.writeVal (.s n) x = s.setDreg true n x.to40 := writeVal_dreg_self s true n x

/-- A write of a register that is no data register and no half of PX changes no data. -/
theorem writeU_data (s : State) {u : UReg} (v : Word) (h : dregOf u = none) (hp : u ≠ .px) (h1 : u ≠ .px1) (h2 : u ≠ .px2) :
    (s.writeU u v).data = s.data := by
  cases u with
  | r n | s n => exact absurd h (by simp [dregOf])
  | px => exact absurd rfl hp
  | px1 => exact absurd rfl h1
  | px2 => exact absurd rfl h2
  | _ => simp [State.writeU, State.setB]

/-- A register write changes a data register, or of the data nothing but PX. -/
theorem writeVal_data (s : State) (u : UReg) (x : RegVal) :
    (∃ y n, u = peReg y n ∧ s.writeVal u x = s.setDreg y n x.to40) ∨
    ((∀ y n, u ≠ peReg y n) ∧ ∃ p, (s.writeVal u x).data = { s.data with px := p }) := by
  cases u with
  | r n => exact .inl ⟨false, n, rfl, writeVal_dreg_self s false n x⟩
  | s n => exact .inl ⟨true, n, rfl, writeVal_dreg_self s true n x⟩
  | px | px1 | px2 => exact .inr ⟨fun y n => by cases y <;> simp [peReg], by cases x <;> exact ⟨_, rfl⟩⟩
  | _ =>
    refine .inr ⟨fun y n => by cases y <;> simp [peReg], s.data.px, ?_⟩
    rw [writeVal_eq s x rfl (by simp), writeU_data s _ rfl (by simp) (by simp) (by simp)]

theorem writeU_mode1Act (s : State) (u : UReg) (v : Word) : (s.writeU u v).sys.mode1Act = s.sys.mode1Act := by
  cases u with
  | sys r => cases r <;> rfl
  | _ => simp [State.writeU, State.setB]

theorem writeVal_mode1Act (s : State) (u : UReg) (x : RegVal) : (s.writeVal u x).sys.mode1Act = s.sys.mode1Act := by
  rcases writeVal_data s u x with ⟨y, n, -, h⟩ | ⟨h, -⟩
  · rw [h]
    simp
  · cases u with
    | r n => exact absurd rfl (h false n)
    | s n => exact absurd rfl (h true n)
    | px => cases x <;> rfl
    | _ =>
      rw [writeVal_eq s x rfl (by simp)]
      exact writeU_mode1Act s _ _

theorem peReg_eq_iff {y z : Bool} {n k : RegNo} : peReg z k = peReg y n ↔ y = z ∧ n = k := by
  cases y <;> cases z <;> simp [peReg, eq_comm]

/-- The data registers, the multiplier and the bit FIFO do not depend on PX. -/
theorem dreg_px {s t : State} (hm : t.sys.mode1Act = s.sys.mode1Act) {p : Long} (hd : t.data = { s.data with px := p }) :
    (∀ y n, t.dreg y n = s.dreg y n) ∧ (∀ y n, t.hiddenDreg y n = s.hiddenDreg y n) ∧ SameMr s t ∧ SameFifo s t := by
  refine ⟨fun y n => ?_, fun y n => ?_, fun y bg => ?_, ?_, ?_⟩
  · simp [State.dreg, altData_congr hm, hd]
  · simp [State.hiddenDreg, altData_congr hm, hd]
  · rw [hd]
    cases y <;> cases bg <;> rfl
  · rw [hd]
  · rw [hd]

theorem writeVal_dreg (t : State) (u : UReg) (x : RegVal) (y : Bool) (n : RegNo) :
    (t.writeVal u x).dreg y n = if u = peReg y n then x.to40 else t.dreg y n := by
  rcases writeVal_data t u x with ⟨z, k, rfl, h⟩ | ⟨h, p, hd⟩
  · rw [h, State.dreg_setDreg]
    simp only [peReg_eq_iff]
  · rw [if_neg (h y n), (dreg_px (writeVal_mode1Act t u x) hd).1]

/-- A register write leaves the registers of the hidden set, the multiplier and the bit FIFO alone. -/
theorem writeVal_keeps (t : State) (u : UReg) (x : RegVal) :
    (∀ y n, (t.writeVal u x).hiddenDreg y n = t.hiddenDreg y n) ∧ SameMr t (t.writeVal u x) ∧ SameFifo t (t.writeVal u x) := by
  rcases writeVal_data t u x with ⟨z, k, rfl, h⟩ | ⟨-, p, hd⟩
  · rw [h]
    exact ⟨fun y n => by simp, fun y bg => by simp, by simp [SameFifo]⟩
  · exact (dreg_px (writeVal_mode1Act t u x) hd).2

theorem writeVal_px {s t : State} (h : t.data.px = s.data.px) (u : UReg) (x : RegVal) :
    (t.writeVal u x).data.px = (s.writeVal u x).data.px := by
  cases u with
  | px | px1 | px2 => cases x <;> simp [State.writeVal, State.writeU, h]
  | r n =>
    rw [writeVal_r, writeVal_r]
    simpa using h
  | s n =>
    rw [writeVal_s, writeVal_s]
    simpa using h
  | _ =>
    rw [writeVal_eq t x rfl (by simp), writeVal_eq s x rfl (by simp), writeU_data t _ rfl (by simp) (by simp) (by simp),
      writeU_data s _ rfl (by simp) (by simp) (by simp), h]

/-- ASTAT and STKY of an element as system registers. -/
def astatReg (y : Bool) : UReg := .sys (if y then .astaty else .astatx)

def stkyReg (y : Bool) : UReg := .sys (if y then .stkyy else .stkyx)

/-- A write of a register that is no system register leaves the arithmetic status alone. -/
theorem writeVal_status (t : State) {u : UReg} (x : RegVal) (h : ∀ r, u ≠ .sys r) (y : Bool) :
    (t.writeVal u x).astat y = t.astat y ∧ (t.writeVal u x).stky y = t.stky y := by
  have hsys : ∀ s : State, s.sys.astatx = t.sys.astatx → s.sys.astaty = t.sys.astaty → s.sys.stkyx = t.sys.stkyx →
      s.sys.stkyy = t.sys.stkyy → s.astat y = t.astat y ∧ s.stky y = t.stky y := by
    intro s h1 h2 h3 h4
    simp [State.astat, State.stky, h1, h2, h3, h4]
  cases u with
  | sys r => exact absurd rfl (h r)
  | r n =>
    rw [writeVal_r]
    exact hsys _ (by simp) (by simp) (by simp) (by simp)
  | s n =>
    rw [writeVal_s]
    exact hsys _ (by simp) (by simp) (by simp) (by simp)
  | px => cases x <;> exact ⟨rfl, rfl⟩
  | _ =>
    rw [writeVal_eq t x rfl (by simp)]
    exact hsys _ (by simp [State.writeU, State.setB]) (by simp [State.writeU, State.setB]) (by simp [State.writeU, State.setB])
      (by simp [State.writeU, State.setB])

theorem writeVal_astat (t : State) (u : UReg) (x : RegVal) (y : Bool) :
    (t.writeVal u x).astat y = if u = astatReg y then x.to32 &&& astatMask else t.astat y := by
  by_cases h : ∃ r, u = .sys r
  · obtain ⟨r, rfl⟩ := h
    rw [writeVal_eq t x rfl (by simp)]
    cases r <;> cases y <;> rfl
  · have hu : u ≠ astatReg y := fun e => h ⟨_, e⟩
    rw [if_neg hu, (writeVal_status t x (fun r hr => h ⟨r, hr⟩) y).1]

theorem writeVal_stky (t : State) (u : UReg) (x : RegVal) (y : Bool) :
    (t.writeVal u x).stky y = if u = stkyReg y then x.to32 &&& (if y then stkyyMask else stkyxMask) else t.stky y := by
  by_cases h : ∃ r, u = .sys r
  · obtain ⟨r, rfl⟩ := h
    rw [writeVal_eq t x rfl (by simp)]
    cases r <;> cases y <;> rfl
  · have hu : u ≠ stkyReg y := fun e => h ⟨_, e⟩
    rw [if_neg hu, (writeVal_status t x (fun r hr => h ⟨r, hr⟩) y).2]

/-- After a move's register writes: what they write does not depend on the state, everything else they keep. -/
theorem applyRegs_field {α : Type} {φ : State → α} {r : UReg} {g : RegVal → α}
    (h : ∀ t u x, φ (State.writeVal t u x) = if u = r then g x else φ t) (s t : State) (l : List (UReg × RegVal)) :
    φ (t.applyRegs l) = if r ∈ l.map Prod.fst then φ (s.applyRegs l) else φ t := by
  induction l generalizing s t with
  | nil => simp
  | cons p l ih =>
    obtain ⟨u, x⟩ := p
    have h1 := ih (s.writeVal u x) (t.writeVal u x)
    have h2 := ih (s.writeVal u x) (s.writeVal u x)
    rw [applyRegs_cons, applyRegs_cons, h1]
    by_cases hr : r ∈ l.map Prod.fst
    · simp [hr]
    · rw [if_neg hr] at h2 ⊢
      rw [h2, h, h]
      by_cases hu : u = r
      · simp [hu]
      · have hu' : r ≠ u := fun e => hu e.symm
        simp [hu, hu', hr]

theorem applyRegs_keep {α : Type} {φ : State → α} (h : ∀ t u x, φ (State.writeVal t u x) = φ t) (t : State)
    (l : List (UReg × RegVal)) : φ (t.applyRegs l) = φ t := by
  induction l generalizing t with
  | nil => rfl
  | cons p l ih => rw [applyRegs_cons, ih, h]

theorem applyRegs_px {s t : State} (h : t.data.px = s.data.px) (l : List (UReg × RegVal)) :
    (t.applyRegs l).data.px = (s.applyRegs l).data.px := by
  induction l generalizing s t with
  | nil => exact h
  | cons p l ih =>
    rw [applyRegs_cons, applyRegs_cons]
    exact ih (writeVal_px h _ _)

/-! ### What the rest of a move leaves of them -/

theorem writeMmr_sys (s : State) (r : CoreMmr) (v : Word) : ∃ q, (s.writeMmr r v).sys = { s.sys with irptl := q } := by
  unfold State.writeMmr State.storeMmr State.writeSysctl State.writeGperr
  cases r <;> dsimp only <;> (repeat' split) <;> exact ⟨_, rfl⟩

theorem writeMmr_data (s : State) (r : CoreMmr) (v : Word) : (s.writeMmr r v).data = s.data := by
  unfold State.writeMmr State.storeMmr State.writeSysctl State.writeGperr
  cases r <;> dsimp only <;> (repeat' split) <;> rfl

theorem applyStores_data_sys (s : State) (l : List Stored) :
    (l.foldl State.applyStore s).data = s.data ∧ (l.foldl State.applyStore s).sys = s.sys := by
  induction l generalizing s with
  | nil => exact ⟨rfl, rfl⟩
  | cons x l ih =>
    obtain ⟨h1, h2⟩ := ih (s.applyStore x)
    exact ⟨h1.trans (by simp), h2.trans (by simp)⟩

/-- Without an exclusive access the transfer with memory changes no data and of the status at most the latches. -/
theorem applyMemory_data_sys (s : State) {f : Fx} (ha : f.az = []) :
    (s.applyMemory f).data = s.data ∧ ∃ q, (s.applyMemory f).sys = { s.sys with irptl := q } := by
  obtain ⟨h1, h2⟩ := applyStores_data_sys s f.stores
  rw [applyMemory_eq, ha, List.foldl_nil]
  cases f.mmr with
  | none => exact ⟨h1, s.sys.irptl, h2⟩
  | some p =>
    obtain ⟨q, hq⟩ := writeMmr_sys (s.accessed (f.stores.foldl State.applyStore s) f) p.1 p.2
    refine ⟨(writeMmr_data _ p.1 p.2).trans h1, q, hq.trans ?_⟩
    change { (f.stores.foldl State.applyStore s).sys with irptl := q } = _
    rw [h2]

/-! ### What putting a move into the state leaves of a computation -/

/-- `op` writes the registers `written`, whatever a computation left in them, and keeps the other results of a computation; of
the sticky bits it may set more. -/
structure ActsOn (op : State → State) (written : List UReg) : Prop where
  core : ByCore op
  dreg : ∀ s t, t.core = s.core → ∀ y n, (op t).dreg y n = if peReg y n ∈ written then (op s).dreg y n else t.dreg y n
  astat : ∀ s t, t.core = s.core → ∀ y, (op t).astat y = if astatReg y ∈ written then (op s).astat y else t.astat y
  stky : ∀ s, ∃ mark : Bool → Word, ∀ t, t.core = s.core → ∀ y,
    (op t).stky y = if stkyReg y ∈ written then (op s).stky y else t.stky y ||| mark y
  px : ∀ s t, t.core = s.core → t.data.px = s.data.px → (op t).data.px = (op s).data.px
  rest : ∀ t, (∀ y n, (op t).hiddenDreg y n = t.hiddenDreg y n) ∧ SameMr t (op t) ∧ SameFifo t (op t)

theorem ite_mem_append {α : Type} {u : UReg} {a b : List UReg} {x y z : α} (h : u ∉ b → x = y) :
    (if u ∈ b then x else if u ∈ a then y else z) = if u ∈ a ++ b then x else z := by
  by_cases hb : u ∈ b
  · simp [hb]
  · simp [hb, h hb]

theorem ActsOn.comp {f g : State → State} {a b : List UReg} (hf : ActsOn f a) (hg : ActsOn g b) :
    ActsOn (fun s => g (f s)) (a ++ b) where
  core := hf.core.comp hg.core
  dreg s t h y n := by
    have hfc := hf.core.congr h
    rw [hg.dreg (f s) (f t) hfc y n, hf.dreg s t h y n]
    exact ite_mem_append fun hb => (hg.dreg (f s) (f s) rfl y n).trans (if_neg hb)
  astat s t h y := by
    have hfc := hf.core.congr h
    rw [hg.astat (f s) (f t) hfc y, hf.astat s t h y]
    exact ite_mem_append fun hb => (hg.astat (f s) (f s) rfl y).trans (if_neg hb)
  stky s := by
    obtain ⟨k, hk⟩ := hf.stky s
    obtain ⟨l, hl⟩ := hg.stky (f s)
    refine ⟨fun y => k y ||| l y, fun t h y => ?_⟩
    have hgs : stkyReg y ∉ b → (g (f s)).stky y = (f s).stky y ||| l y := fun hb => (hl (f s) rfl y).trans (if_neg hb)
    rw [hl (f t) (hf.core.congr h) y, hk t h y, apply_ite (· ||| l y), BitVec.or_assoc]
    exact ite_mem_append hgs
  px s t h hp := hg.px (f s) (f t) (hf.core.congr h) (hf.px s t h hp)
  rest t := by
    obtain ⟨h1, m1, f1, f2⟩ := hf.rest t
    obtain ⟨h2, m2, g1, g2⟩ := hg.rest (f t)
    exact ⟨fun y n => (h2 y n).trans (h1 y n), fun y bg => (m2 y bg).trans (m1 y bg), g1.trans f1, g2.trans f2⟩

/-- What changes no data and of the status at most the latches and sticky bits, which it sets. -/
theorem actsOn_marks {op : State → State} (hc : ByCore op) {k : Word}
    (h : ∀ t, (op t).data = t.data ∧ ∃ q, (op t).sys = { t.sys with stkyx := t.sys.stkyx ||| k, irptl := q }) : ActsOn op [] where
  core := hc
  dreg s t _ y n := by
    obtain ⟨hd, q, hs⟩ := h t
    exact (dreg_px (by rw [hs]) (p := t.data.px) hd).1 y n
  astat s t _ y := by
    obtain ⟨hd, q, hs⟩ := h t
    simp [State.astat, hs]
  stky s := by
    refine ⟨fun y => if y then 0#32 else k, fun t _ y => ?_⟩
    obtain ⟨hd, q, hs⟩ := h t
    cases y <;> simp [State.stky, hs]
  px s t _ hp := by rw [(h t).1, (h s).1, hp]
  rest t := by
    obtain ⟨hd, q, hs⟩ := h t
    exact (dreg_px (by rw [hs]) (p := t.data.px) hd).2

theorem actsOn_latches (f : Fx) : ActsOn (fun s => s.applyLatches f) [] :=
  actsOn_marks (byCore_applyLatches f) (k := f.sticks) fun t => by
    rw [applyLatches_eq]
    exact ⟨rfl, _, rfl⟩

theorem actsOn_update (w : Option IndexWrite) : ActsOn (fun s => s.applyUpdate w) [] := by
  cases w with
  | none => exact actsOn_marks (fun _ => rfl) (k := 0#32) fun t => ⟨rfl, t.sys.irptl, by simp [State.applyUpdate]⟩
  | some w =>
    refine actsOn_marks (byCore_applyUpdate (some w)) (k := w.sticks) fun t => ?_
    change (t.applyIndex w).data = _ ∧ ∃ q, (t.applyIndex w).sys = _
    rw [applyIndex_eq]
    exact ⟨by simp [State.marked], t.sys.irptl ||| w.raises, by simp [State.marked]⟩

theorem actsOn_memory {f : Fx} (ha : f.az = []) : ActsOn (fun s => s.applyMemory f) [] :=
  actsOn_marks (byCore_applyMemory f) (k := 0#32) fun t => by
    obtain ⟨hd, q, hs⟩ := applyMemory_data_sys t ha
    exact ⟨hd, q, by simpa using hs⟩

theorem actsOn_regs (l : List (UReg × RegVal)) : ActsOn (fun s => s.applyRegs l) (l.map Prod.fst) where
  core := byCore_applyRegs l
  dreg s t _ y n := applyRegs_field (φ := fun t => t.dreg y n) (fun t u x => writeVal_dreg t u x y n) s t l
  astat s t _ y := applyRegs_field (φ := fun t => t.astat y) (fun t u x => writeVal_astat t u x y) s t l
  stky s := ⟨fun _ => 0#32, fun t _ y => by
    simpa using applyRegs_field (φ := fun t => t.stky y) (fun t u x => writeVal_stky t u x y) s t l⟩
  px s t _ hp := applyRegs_px hp l
  rest t := by
    refine ⟨fun y n => ?_, fun y bg => ?_, ?_, ?_⟩
    · exact applyRegs_keep (φ := fun t => t.hiddenDreg y n) (fun t u x => (writeVal_keeps t u x).1 y n) t l
    · exact applyRegs_keep (φ := fun t => t.data.mrPhys y bg) (fun t u x => (writeVal_keeps t u x).2.1 y bg) t l
    · exact applyRegs_keep (φ := fun t => t.data.bff) (fun t u x => (writeVal_keeps t u x).2.2.1) t l
    · exact applyRegs_keep (φ := fun t => t.data.bffwrp) (fun t u x => (writeVal_keeps t u x).2.2.2) t l

theorem actsOn_applyFx {f : Fx} (ha : f.az = []) : ActsOn (fun s => s.applyFx f) f.dests := by
  have h := (actsOn_latches f).comp ((actsOn_update f.update).comp ((actsOn_regs f.regs).comp (actsOn_memory ha)))
  rw [← List.append_nil f.dests]
  exact h

theorem actsOn_applyDual {f g : Fx} (hf : f.az = []) (hg : g.az = []) :
    ActsOn (fun s => s.applyDual f g) ((g.unblocked f).map Prod.fst ++ f.dests) := by
  have h := (actsOn_latches f).comp ((actsOn_latches g).comp ((actsOn_update f.update).comp ((actsOn_update g.update).comp
    ((actsOn_regs (g.unblocked f)).comp ((actsOn_regs f.regs).comp ((actsOn_memory hf).comp (actsOn_memory hg)))))))
  rw [← List.append_nil f.dests]
  exact h

theorem actsOn_convert (src dst : RegNo) (toByte breg go : Bool) : ActsOn (fun s => s.applyConvert src dst toByte breg go) [] := by
  refine actsOn_marks (byCore_applyConvert src dst toByte breg go) (k := 0#32) fun t => ?_
  have hraise : ∀ b : Bool, (t.raiseIf b .iladi).data = t.data ∧
      ∃ q, (t.raiseIf b .iladi).sys = { t.sys with stkyx := t.sys.stkyx ||| 0#32, irptl := q } := by
    intro b
    cases b
    · exact ⟨rfl, t.sys.irptl, by simp [State.raiseIf]⟩
    · exact ⟨rfl, (t.raise .iladi).sys.irptl, by simp [State.raiseIf, State.raise]⟩
  unfold State.applyConvert
  split
  · split
    · simpa using hraise (convert toByte (t.breg src)).2
    · simpa using hraise (convert toByte (t.ireg src)).2
  · exact ⟨rfl, t.sys.irptl, by simp⟩

/-! ### Together with the computation -/

theorem taken_iff {wide y : Bool} {busy : List UReg} {k : RegNo} :
    Taken wide y busy k ↔ peReg y k ∈ busy ∨ (wide = true ∧ peReg y (k ^^^ 1#4) ∈ busy) := by
  constructor
  · rintro ⟨j, rfl | ⟨hw, rfl⟩, hb⟩
    · exact .inl hb
    · exact .inr ⟨hw, hb⟩
  · rintro (hb | ⟨hw, hb⟩)
    · exact ⟨k, .inl rfl, hb⟩
    · exact ⟨_, .inr ⟨hw, rfl⟩, hb⟩

/-- A move put into the state after the computation: both from the state before (R48). The registers `dests` are kept free of the
computation's results; a data register among them that the move does not write after all keeps its value. -/
theorem combined_of {op : State → State} {written dests : List UReg} (ho : ActsOn op written) {wide : Bool} {f : Bool → PeOut}
    (hw : ∀ y, WholeResults wide (f y).units) (hsub : ∀ u ∈ written, u ∈ dests)
    (hsys : ∀ r, UReg.sys r ∈ dests → UReg.sys r ∈ written) (s : State) (cx cy : Bool) :
    Combined s (s.runPe cx cy [] f) (op s) (op (s.runPe cx cy dests f)) dests wide := by
  generalize hu : s.runPe cx cy dests f = u'
  have hc : u'.core = s.core := by rw [← hu]; exact computed_core (runPe_computed ..)
  have hcore {α : Type} (φ : State → α) : φ (op u').core = φ (op s).core := congrArg φ (ho.core.congr hc)
  have hmem {r : SysReg} : UReg.sys r ∈ written ↔ UReg.sys r ∈ dests := ⟨hsub _, hsys r⟩
  obtain ⟨hhidden, hmr, hfifo⟩ := ho.rest u'
  exact {
    dag := hcore State.dag
    seq := hcore State.seq
    mem := hcore State.mem
    mmr := hcore State.mmr
    cache := hcore State.cache
    posted := hcore State.posted
    excl := hcore State.excl
    bus := hcore State.bus
    bdry := hcore State.bdry
    free := hcore State.free
    px := ho.px s u' hc (by rw [← hu, runPe_px])
    sys := hcore (α := Sys) fun t => { t.sys with
      astatx := (op s).sys.astatx, astaty := (op s).sys.astaty, stkyx := (op s).sys.stkyx, stkyy := (op s).sys.stkyy }
    mr := fun y bg => by rw [hmr y bg, ← hu, runPe_mrPhys]
    fifo := by
      have h := runPe_fifo s cx cy dests f
      rw [hu] at h
      exact ⟨hfifo.1.trans h.1, hfifo.2.trans h.2⟩
    hidden := fun y n => by rw [hhidden, ← hu, runPe_hidden]
    astat := fun y => by
      have h := ho.astat s u' hc y
      rw [h, ← hu, runPe_astat, runPe_astat s cx cy []]
      exact if_congr hmem rfl rfl
    stky := fun y => by
      obtain ⟨k, hk⟩ := ho.stky s
      have hsame : u'.stky y = (s.runPe cx cy [] f).stky y := by rw [← hu, runPe_stky, runPe_stky]
      rw [hk u' hc y]
      by_cases hd : stkyReg y ∈ written
      · rw [if_pos hd]
        exact (if_pos (hmem.1 hd)).symm
      · have hv := hk s rfl y
        rw [if_neg hd] at hv ⊢
        refine Eq.trans ?_ (if_neg (mt hmem.2 hd)).symm
        rw [hv, hsame, ← BitVec.or_assoc, runPe_stky_keeps]
    dregs := fun y n => by
      obtain ⟨htaken, hfree⟩ := runPe_busy (s := s) (cx := cx) (cy := cy) (busy := dests) hw y n
      rw [hu, taken_iff] at htaken hfree
      have ht := ho.dreg s u' hc y n
      have hv := ho.dreg s s rfl y n
      by_cases hd : peReg y n ∈ dests
      · rw [if_pos hd, ht]
        split
        · rfl
        · rename_i hn
          rw [hv, if_neg hn, htaken (.inl hd)]
      · rw [if_neg hd, ht, if_neg (mt (hsub _) hd)]
        split
        · rename_i hp
          exact htaken (.inr hp)
        · rename_i hp
          exact hfree (by simp only [hd, hp, or_self, not_false_eq_true]) }

/-! ### The registers that a move writes, and its exclusive results -/

/-- The mover is a data register or a constant. -/
def Mover.onlyData (x : Mover) : Prop := ∀ u, x = .reg u → (dregOf u).isSome = true

/-- Two effects write the same registers as one unit or not, without an exclusive result; where `data` holds, they are data
registers. -/
structure Fx.Agree (data : Prop) (f f' : Fx) : Prop where
  dests : f'.dests = f.dests
  long : f'.long = f.long
  az : f.az = []
  data : data → ∀ u ∈ f.dests, (dregOf u).isSome = true

theorem agree_empty (d : Prop) : Fx.Agree d {} {} := ⟨rfl, rfl, rfl, fun _ _ h => absurd h (by simp [Fx.dests])⟩

theorem Fx.Agree.both {d : Prop} {f f' g g' : Fx} (hf : f.Agree d f') (hg : g.Agree d g') : (f.both g).Agree d (f'.both g') where
  dests := by
    have h1 := hf.dests
    have h2 := hg.dests
    simp only [Fx.dests, Fx.both, List.map_append] at h1 h2 ⊢
    rw [h1, h2]
  long := rfl
  az := by simp [Fx.both, hf.az, hg.az]
  data h u hu := by
    simp only [Fx.dests, Fx.both, List.map_append, List.mem_append] at hu
    exact hu.elim (hf.data h u) (hg.data h u)

/-- The register numbers of a pair, the neighbour or the complement: the registers of a 64-bit load, whatever it brings. -/
theorem loadLong_dests (s : State) (u : UReg) (x y : Long) : (s.loadLong u x).map Prod.fst = (s.loadLong u y).map Prod.fst := by
  cases u with
  | sys | px1 | px2 =>
    simp only [State.loadLong]
    cases compOf _ with
    | none => rfl
    | some c => cases s.simd <;> rfl
  | _ => rfl

theorem loadLong_data (s : State) {u : UReg} (x : Long) (h : (dregOf u).isSome = true) :
    ∀ v ∈ (s.loadLong u x).map Prod.fst, (dregOf v).isSome = true := by
  have hpair : ∀ a b : UReg, (dregOf a).isSome = true → (dregOf b).isSome = true → ∀ v ∈ [a, b], (dregOf v).isSome = true := by
    intro a b ha hb v hv
    rcases List.mem_cons.1 hv with rfl | hv
    · exact ha
    · rwa [List.mem_singleton.1 hv]
  cases u with
  | r n | s n => exact hpair _ _ rfl rfl
  | _ => exact absurd h Bool.false_ne_true

theorem comp_data {u : UReg} (h : (dregOf u).isSome = true) : (dregOf ((compOf u).getD u)).isSome = true := by
  cases u with
  | r n | s n => rfl
  | _ => exact absurd h (by simp [dregOf])

/-- The registers of a 64-bit load with their values, of both complementary pairs if it is a broadcast load (R296, R298). -/
def State.longRegs (s : State) (broadcast : Bool) (u : UReg) : Nat → List (UReg × RegVal) := fun v =>
  s.loadLong u (BitVec.ofNat 64 v) ++ if broadcast then s.loadLong ((compOf u).getD u) (BitVec.ofNat 64 v) else []

theorem longRegs_dests (s : State) (b : Bool) (u : UReg) (v w : Nat) :
    (s.longRegs b u v).map Prod.fst = (s.longRegs b u w).map Prod.fst := by
  cases b <;> simp only [State.longRegs, List.map_append, loadLong_dests s _ (BitVec.ofNat 64 v) (BitVec.ofNat 64 w), ↓reduceIte,
    Bool.false_eq_true]

theorem longRegs_data (s : State) (b : Bool) {u : UReg} (v : Nat) (h : (dregOf u).isSome = true) :
    ∀ x ∈ (s.longRegs b u v).map Prod.fst, (dregOf x).isSome = true := by
  intro x hx
  unfold State.longRegs at hx
  rw [List.map_append, List.mem_append] at hx
  rcases hx with hx | hx
  · exact loadLong_data s _ h x hx
  · split at hx
    · exact loadLong_data s _ (comp_data h) x hx
    · exact absurd hx (by simp)

theorem transfer_store {s : State} {m : Move} (hs : m.store = true) (x : Mover) (e : Element) (sgn y : Bool) (slot : Nat) :
    s.transfer m x e sgn y slot = s.storeFx m e y (s.storeVal x e.width slot) := if_pos hs

theorem transfer_imm {s : State} {m : Move} (hs : m.store = false) (v : Word) (e : Element) (sgn y : Bool) (slot : Nat) :
    s.transfer m (.imm v) e sgn y slot = {} := by
  simp only [State.transfer, hs, Bool.false_eq_true, ↓reduceIte]

theorem transfer_load {s : State} {m : Move} (hs : m.store = false) (u : UReg) (e : Element) (sgn y : Bool) (slot : Nat) :
    s.transfer m (.reg u) e sgn y slot = s.loadFx m e y slot fun v => [(u, s.loadVal u e.width sgn v slot)] := by
  simp only [State.transfer, hs, Bool.false_eq_true, ↓reduceIte]

theorem transferLong_load {s : State} {m : Move} {u : UReg} (hs : m.store = false) (hx : m.what = .reg u) (e : Element) (slot : Nat) :
    s.transferLong m e slot = { s.loadFx m e false slot (s.longRegs (s.isBroadcast m) u) with long := true } := by
  have hregs : s.longRegs (s.isBroadcast m) u = fun v => s.loadLong u (BitVec.ofNat 64 v) ++
      if s.isBroadcast m then s.loadLong ((compOf u).getD u) (BitVec.ofNat 64 v) else [] := rfl
  rw [hregs]
  simp only [State.transferLong, hs, hx, Bool.false_eq_true, ↓reduceIte]

theorem transferLong_store {s : State} {m : Move} (hs : m.store = true) (e : Element) (slot : Nat) :
    s.transferLong m e slot = s.storeFx m e false (s.storeLong m.what).toNat := if_pos hs

theorem transferLong_imm {s : State} {m : Move} {v : Word} (hs : m.store = false) (hx : m.what = .imm v) (e : Element) (slot : Nat) :
    s.transferLong m e slot = {} := by
  simp only [State.transferLong, hs, hx, Bool.false_eq_true, ↓reduceIte]

/-- The move with these lines going through to the memory (R362). -/
def Move.past (m : Move) (l : List Nat) : Move := { m with through := l }

section
variable {s : State} {m : Move} (l : List Nat)

theorem storeFx_agree (d : Prop) (he : m.ex = false) (e : Element) (y : Bool) (v : Nat) :
    (s.storeFx m e y v).Agree d (s.storeFx (m.past l) e y v) := by
  refine ⟨rfl, rfl, ?_, fun _ _ h => absurd h (by simp [Fx.dests, State.storeFx])⟩
  simp [State.storeFx, he]

theorem transfer_agree (he : m.ex = false) (x : Mover) (e : Element) (sgn y : Bool) (slot : Nat) :
    (s.transfer m x e sgn y slot).Agree x.onlyData (s.transfer (m.past l) x e sgn y slot) := by
  by_cases hs : m.store = true
  · rw [transfer_store hs, transfer_store (m := m.past l) hs]
    exact storeFx_agree l _ he e y _
  · have hs : m.store = false := by simpa using hs
    cases x with
    | imm v =>
      rw [transfer_imm hs, transfer_imm (m := m.past l) hs]
      exact agree_empty _
    | reg u =>
      rw [transfer_load hs, transfer_load (m := m.past l) hs]
      have hd (n : Move) : (s.loadFx n e y slot fun v => [(u, s.loadVal u e.width sgn v slot)]).dests = [u] := rfl
      refine ⟨(hd _).trans (hd _).symm, rfl, by simp [State.loadFx, he], fun h v hv => ?_⟩
      rw [hd] at hv
      rw [List.mem_singleton.1 hv]
      exact h u rfl

theorem transferLong_agree (he : m.ex = false) (e : Element) (slot : Nat) :
    (s.transferLong m e slot).Agree m.what.onlyData (s.transferLong (m.past l) e slot) := by
  by_cases hs : m.store = true
  · rw [transferLong_store hs, transferLong_store (m := m.past l) hs]
    exact storeFx_agree l _ he e false _
  · have hs : m.store = false := by simpa using hs
    cases hx : m.what with
    | imm v =>
      rw [transferLong_imm hs hx, transferLong_imm (m := m.past l) hs hx]
      exact agree_empty _
    | reg u =>
      rw [transferLong_load hs hx, transferLong_load (m := m.past l) hs hx]
      exact ⟨longRegs_dests .., rfl, by simp [State.loadFx, he], fun h => longRegs_data s _ _ (h u rfl)⟩

theorem transferBroadcast_agree (he : m.ex = false) (e : Element) (sgn : Bool) (slot : Nat) :
    (s.transferBroadcast m e sgn slot).Agree m.what.onlyData (s.transferBroadcast (m.past l) e sgn slot) := by
  have h := transfer_agree (s := s) l he m.what e sgn false slot
  have hc : ∀ f : Fx, ({ f with regs := f.regs ++ f.regs.map fun p => ((compOf p.1).getD p.1, p.2) } : Fx).dests =
      f.dests ++ f.dests.map fun u => (compOf u).getD u := by
    intro f
    simp [Fx.dests, Function.comp_def]
  refine ⟨?_, h.long, h.az, fun hd v hv => ?_⟩
  · refine (hc _).trans (Eq.trans ?_ (hc _).symm)
    have hd : (s.transfer (m.past l) (m.past l).what e sgn false slot).dests = _ := h.dests
    rw [hd]
  · rcases List.mem_append.1 ((hc _) ▸ hv) with hv | hv
    · exact h.data hd v hv
    · obtain ⟨u, hu, rfl⟩ := List.mem_map.1 hv
      exact comp_data (h.data hd u hu)

theorem rowFx_agree (he : m.ex = false) (row : Row) (sgn : Bool) (e : Element) :
    (s.rowFx m row sgn e).Agree m.what.onlyData (s.rowFx (m.past l) row sgn e) := by
  cases row with
  | long => exact transferLong_agree l he e m.slot
  | broadcast => exact transferBroadcast_agree l he e sgn m.slot
  | single | pair | alone => exact transfer_agree l he m.what e sgn false m.slot

/-- Two transfers under one gate. -/
theorem gated_agree {d : Prop} (he : m.ex = false) {ea : Word} {go : Bool} {r : Res Element} {x x' : Element → Fx}
    (hx : ∀ e, (x e).Agree d (x' e)) {f f' : Fx} (h : s.gated m ea go r x = .ok f) (h' : s.gated (m.past l) ea go r x' = .ok f') :
    f.Agree d f' := by
  unfold State.gated at h h'
  have hex : ∀ e, s.exclAllowed m ea e = .ok () := fun e => by simp [State.exclAllowed, he]
  have hex' : ∀ e, s.exclAllowed (m.past l) ea e = .ok () := hex
  cases go with
  | false =>
    obtain rfl : {} = f := by simpa using h
    obtain rfl : {} = f' := by simpa using h'
    exact agree_empty d
  | true =>
    cases r with
    | error z => exact absurd h (by simp)
    | ok e =>
      obtain rfl : x e = f := by simpa [hex] using h
      obtain rfl : x' e = f' := by simpa [hex'] using h'
      exact hx e

/-- The latches of an access do not touch its registers. -/
theorem Fx.Agree.latch {d : Prop} {f f' : Fx} (h : f.Agree d f') (a b a' b' : Bool) :
    Fx.Agree d { f with u64ma := a, iira := b } { f' with u64ma := a', iira := b' } := ⟨h.dests, h.long, h.az, h.data⟩

theorem Mover.comp_onlyData {x : Mover} (h : x.onlyData) : x.comp.onlyData := by
  cases x with
  | imm v => exact h
  | reg u =>
    intro w hw
    obtain rfl : (compOf u).getD u = w := by simpa [Mover.comp] using hw
    exact comp_data (h u rfl)

theorem Move.at_onlyData {m : Move} (t : Config.Target) (h : m.what.onlyData) : (m.at t).what.onlyData := by
  unfold Move.at
  split
  · rename_i hp
    exact absurd (h .px hp.2) Bool.false_ne_true
  · exact h

end

/-- The width of an access to location `l`, the row of R290 that governs it and how far it lies past the boundary it needs. -/
def State.memWidth (s : State) (m : Move) (q : Resolved) (l : Loc) : Width :=
  (m.at l.region.target).what.width (m.sizeAt l.region.target q.size) l.region.space (s.imdw l.region)

def State.memRow (s : State) (m : Move) (q : Resolved) (l : Loc) : Row := s.row m (s.memWidth m q l) (s.imdw l.region)

def State.memPad (s : State) (m : Move) (q : Resolved) (l : Loc) : Nat :=
  l.off % boundary l.region.space (s.memWidth m q l) m.ex (s.memRow m q l == .pair)

/-- The explicit transfer of an access to memory, under its gate. -/
def State.explicitFx (s : State) (m : Move) (q : Resolved) (l : Loc) (cx cy : Bool) : Res Fx :=
  s.gated m q.ea (explicitGate (s.memRow m q l) m.store cx cy)
    (s.element q.ea l.region (l.off - s.memPad m q l) (s.memWidth m q l))
    (s.rowFx (m.at l.region.target) (s.memRow m q l) (s.signed l.region.space q.size))

/-- The implicit transfer of a SIMD access to memory, under its gate. -/
def State.implicitFx (s : State) (m : Move) (q : Resolved) (l : Loc) (cy : Bool) : Res Fx :=
  s.gated m q.ea cy
    (s.elementAt (q.ea - BitVec.ofNat 32 (s.memPad m q l) + implicitStep l.region.space (s.memWidth m q l)) (s.memWidth m q l))
    fun e => s.transfer m m.what.comp e (s.signed l.region.space q.size) true (m.slot + 1)

/-- An access to memory is its explicit transfer, and in the pair row its implicit one with it. -/
theorem memoryFx_parts {s : State} {m : Move} {q : Resolved} {l : Loc} {cx cy : Bool} {f : Fx} (h : s.memoryFx m q l cx cy = .ok f) :
    ∃ f0 i, s.explicitFx m q l cx cy = .ok f0 ∧
      ((s.memRow m q l ≠ .pair ∧ f = { f0 with u64ma := s.memPad m q l != 0, iira := i }) ∨
       (s.memRow m q l = .pair ∧ ∃ g0, s.implicitFx m q l cy = .ok g0 ∧
         f = { f0.both g0 with u64ma := s.memPad m q l != 0, iira := i })) := by
  unfold State.memoryFx at h
  dsimp only at h
  split at h
  · exact absurd h (by simp [refuse])
  · change (match s.explicitFx m q l cx cy with | .error e => _ | .ok f => _) = _ at h
    cases hx : s.explicitFx m q l cx cy with
    | error e => rw [hx] at h; exact absurd h (by simp)
    | ok f0 =>
      rw [hx] at h
      dsimp only at h
      split at h
      · rename_i hr
        change (match s.implicitFx m q l cy with | .error e => _ | .ok g => _) = _ at h
        cases hg : s.implicitFx m q l cy with
        | error e => rw [hg] at h; exact absurd h (by simp)
        | ok g0 =>
          rw [hg] at h
          exact ⟨f0, _, rfl, .inr ⟨hr, g0, rfl, (Except.ok.inj h).symm⟩⟩
      · rename_i hr
        exact ⟨f0, _, rfl, .inl ⟨hr, (Except.ok.inj h).symm⟩⟩

section
variable {s : State} {m : Move} {lines : List Nat}

theorem at_past (t : Config.Target) : (m.past lines).at t = (m.at t).past lines := by
  by_cases h : isSystem t ∧ m.what = .reg .px
  · have h' : isSystem t ∧ (m.past lines).what = .reg .px := h
    rw [Move.at, if_pos h', Move.at, if_pos h]
    rfl
  · have h' : ¬ (isSystem t ∧ (m.past lines).what = .reg .px) := h
    rw [Move.at, if_neg h', Move.at, if_neg h]

theorem memWidth_past (q : Resolved) (l : Loc) : s.memWidth (m.past lines) q l = s.memWidth m q l := by
  unfold State.memWidth
  rw [at_past]
  rfl

theorem memRow_past (q : Resolved) (l : Loc) : s.memRow (m.past lines) q l = s.memRow m q l := by
  unfold State.memRow
  rw [memWidth_past]
  rfl

theorem memPad_past (q : Resolved) (l : Loc) : s.memPad (m.past lines) q l = s.memPad m q l := by
  unfold State.memPad
  rw [memWidth_past, memRow_past]
  rfl

theorem memoryFx_agree (he : m.ex = false) {q : Resolved} {l : Loc} {cx cy : Bool} {f f' : Fx}
    (h : s.memoryFx m q l cx cy = .ok f) (h' : s.memoryFx (m.past lines) q l cx cy = .ok f') : f.Agree m.what.onlyData f' := by
  have hatex : (m.at l.region.target).ex = false := by
    unfold Move.at
    split <;> exact he
  have hrow : ∀ e, (s.rowFx (m.at l.region.target) (s.memRow m q l) (s.signed l.region.space q.size) e).Agree m.what.onlyData
      (s.rowFx ((m.past lines).at l.region.target) (s.memRow m q l) (s.signed l.region.space q.size) e) := by
    intro e
    rw [at_past]
    have hr := rowFx_agree (s := s) lines hatex (s.memRow m q l) (s.signed l.region.space q.size) e
    exact ⟨hr.dests, hr.long, hr.az, fun hd => hr.data (Move.at_onlyData _ hd)⟩
  obtain ⟨f0, i, hf0, hf⟩ := memoryFx_parts h
  obtain ⟨f0', i', hf0', hf'⟩ := memoryFx_parts h'
  unfold State.explicitFx at hf0 hf0'
  rw [memRow_past, memPad_past, memWidth_past] at hf0'
  rw [memRow_past] at hf'
  have h0 : f0.Agree m.what.onlyData f0' := gated_agree lines he hrow hf0 hf0'
  rcases hf with ⟨hp, rfl⟩ | ⟨hp, g0, hg0, rfl⟩
  · rcases hf' with ⟨-, rfl⟩ | ⟨hp', -⟩
    · exact h0.latch _ _ _ _
    · exact absurd hp' hp
  · rcases hf' with ⟨hp', -⟩ | ⟨-, g0', hg0', rfl⟩
    · exact absurd hp hp'
    · have hg : g0.Agree m.what.onlyData g0' := by
        unfold State.implicitFx at hg0 hg0'
        rw [memPad_past, memWidth_past] at hg0'
        refine gated_agree lines he (fun e => ?_) hg0 hg0'
        have ht := transfer_agree (s := s) lines he m.what.comp e (s.signed l.region.space q.size) true (m.slot + 1)
        exact ⟨ht.dests, ht.long, ht.az, fun hd => ht.data (Mover.comp_onlyData hd)⟩
      exact (h0.both hg).latch _ _ _ _

/-- An access to a core memory-mapped register fills no cache line. -/
theorem mmrFx_agree (he : m.ex = false) {q : Resolved} {cx cy : Bool} {f f' : Fx}
    (h : s.mmrFx m q cx cy = .ok f) (h' : s.mmrFx (m.past lines) q cx cy = .ok f') : f.Agree m.what.onlyData f' := by
  obtain rfl : f = f' := by
    have hsame : s.mmrFx (m.past lines) q cx cy = s.mmrFx m q cx cy := rfl
    rw [hsame, h] at h'
    simpa using h'
  unfold State.mmrFx at h
  dsimp only at h
  split at h
  · obtain rfl : {} = f := Except.ok.inj h
    exact agree_empty _
  split at h
  · exact absurd h (by simp [refuse])
  rw [if_neg (by simp [he])] at h
  split at h
  · exact absurd h (by simp [refuse])
  split at h
  · exact absurd h (by simp [refuse])
  split at h
  · obtain rfl := Except.ok.inj h
    exact ⟨rfl, rfl, rfl, fun _ _ hu => absurd hu (by simp [Fx.dests])⟩
  · obtain rfl := Except.ok.inj h
    exact ⟨rfl, rfl, rfl, fun _ _ hu => absurd hu (by simp [Fx.dests])⟩
  · rename_i u hs hu
    obtain rfl := Except.ok.inj h
    refine ⟨rfl, rfl, rfl, fun hd v hv => ?_⟩
    have hdata : (dregOf u).isSome = true := hd u hu
    have hpx : u ≠ .px := by rintro rfl; exact absurd hdata Bool.false_ne_true
    rcases List.mem_cons.1 hv with rfl | hv
    · rwa [if_neg hpx]
    · split at hv
      · obtain rfl := List.mem_singleton.1 hv
        exact comp_data hdata
      · exact absurd hv (by simp)

end

/-- The transfers of a move at its address. -/
def State.access (s : State) (m : Move) (q : Resolved) (cx cy : Bool) : Res Fx :=
  if Config.inCmmrRange q.ea.toNat then s.mmrFx m q cx cy
  else
    match locate q.ea.toNat with
    | none => if s.reaches m q cx cy then .error (.fault (.busHang q.ea.toNat)) else .ok {}
    | some l => s.memoryFx m q l cx cy

/-- A move that executes is the transfers at its address, with its index update, its ILADI and its breakpoint hits. -/
theorem moveFx_parts {s : State} {m : Move} {cx cy : Bool} {f : Fx} (hg : (cx || cy) = true) (h : s.moveFx m cx cy = .ok f) :
    ∃ q f0, s.resolve m = .ok q ∧ s.access m q cx cy = .ok f0 ∧
      f = { f0 with update := q.update, iladi := q.iladi, hits := if f0.performed then s.dataHits m.pm m.store q.ea else 0#3 } := by
  unfold State.moveFx at h
  rw [hg, if_neg (by simp)] at h
  cases hq : s.resolve m with
  | error e => rw [hq] at h; exact absurd h (by simp)
  | ok q =>
    rw [hq] at h
    dsimp only at h
    change (match s.access m q cx cy with | .error e => _ | .ok f => _) = _ at h
    cases ha : s.access m q cx cy with
    | error e => rw [ha] at h; exact absurd h (by simp)
    | ok f0 =>
      rw [ha] at h
      exact ⟨q, f0, rfl, ha, (Except.ok.inj h).symm⟩

/-- A move that no element executes does nothing. -/
theorem moveFx_idle {s : State} {m : Move} {cx cy : Bool} (hg : (cx || cy) = false) : s.moveFx m cx cy = .ok {} := by
  unfold State.moveFx
  simp [hg]

section
variable {s : State} {m : Move} {lines : List Nat}

theorem access_agree (he : m.ex = false) {q : Resolved} {cx cy : Bool} {f f' : Fx} (h : s.access m q cx cy = .ok f)
    (h' : s.access (m.past lines) q cx cy = .ok f') : f.Agree m.what.onlyData f' := by
  unfold State.access at h h'
  split at h
  · rename_i hc
    rw [if_pos hc] at h'
    exact mmrFx_agree he h h'
  · rename_i hc
    rw [if_neg hc] at h'
    cases hl : locate q.ea.toNat with
    | none =>
      rw [hl] at h h'
      have hr : s.reaches (m.past lines) q cx cy = s.reaches m q cx cy := rfl
      dsimp only at h h'
      rw [hr] at h'
      split at h
      · exact absurd h (by simp)
      · rename_i hn
        rw [if_neg hn] at h'
        obtain rfl := Except.ok.inj h
        obtain rfl := Except.ok.inj h'
        exact agree_empty _
    | some l =>
      rw [hl] at h h'
      exact memoryFx_agree he h h'

/-- What a move without an exclusive access writes does not depend on the lines that go through to the memory. -/
theorem moveFx_agree (he : m.ex = false) {cx cy : Bool} {f f' : Fx}
    (h : s.moveFx m cx cy = .ok f) (h' : s.moveFx (m.past lines) cx cy = .ok f') : f.Agree m.what.onlyData f' := by
  cases hg : (cx || cy) with
  | false =>
    rw [moveFx_idle hg] at h h'
    obtain rfl := Except.ok.inj h
    obtain rfl := Except.ok.inj h'
    exact agree_empty _
  | true =>
    obtain ⟨q, f0, hq, ha, rfl⟩ := moveFx_parts hg h
    obtain ⟨q', f0', hq', ha', rfl⟩ := moveFx_parts hg h'
    have hsame : s.resolve (m.past lines) = s.resolve m := rfl
    rw [hsame, hq] at hq'
    obtain rfl := Except.ok.inj hq'
    have hf := access_agree he ha ha'
    exact ⟨hf.dests, hf.long, hf.az, hf.data⟩

theorem moveFx_az (he : m.ex = false) {cx cy : Bool} {f : Fx} (h : s.moveFx m cx cy = .ok f) : f.az = [] :=
  (moveFx_agree (lines := m.through) he h h).az

end

/-! ### Each instruction -/

/-- A computation that completes alone is its results, and completes with results kept back, too. -/
theorem compute_busy {s u : State} {c : Compute} {cx cy : Bool} (h : s.compute c cx cy [] = .ok u) (busy : List UReg) :
    u = s.runPe cx cy [] (fun y => s.pe y c) ∧ s.compute c cx cy busy = .ok (s.runPe cx cy busy fun y => s.pe y c) := by
  refine ⟨compute_ok h, ?_⟩
  unfold State.compute at h ⊢
  split at h
  · exact absurd h (by simp)
  · rfl

theorem shiftImm_busy {s u : State} {sh : ShiftImm} {cx cy : Bool} (h : s.shiftImm sh cx cy [] = .ok u) (busy : List UReg) :
    u = s.runPe cx cy [] (fun y => s.peShift y sh) ∧ s.shiftImm sh cx cy busy = .ok (s.runPe cx cy busy fun y => s.peShift y sh) := by
  refine ⟨shiftImm_ok h, ?_⟩
  unfold State.shiftImm at h ⊢
  split at h
  · exact absurd h (by simp)
  · rfl

/-- The effects of one move after a computation or a shift. -/
theorem combined_fx {s : State} {g : Bool → PeOut} {wide : Bool} {f : Fx} (ha : f.az = [])
    (hw : ∀ y, WholeResults wide (g y).units) (cx cy : Bool) :
    Combined s (s.runPe cx cy [] g) (s.applyFx f) ((s.runPe cx cy f.dests g).applyFx f) f.dests wide :=
  combined_of (actsOn_applyFx ha) hw (fun _ h => h) (fun _ h => h) s cx cy

theorem computeFx_combined {s u : State} {c : Compute} {f : Fx} {cx cy : Bool} (ha : f.az = []) (hu : s.compute c cx cy [] = .ok u) :
    ∃ t, s.computeFx c f cx cy = .ok t ∧ Combined s u (s.applyFx f) t f.dests (pairResult c) := by
  obtain ⟨rfl, hb⟩ := compute_busy hu f.dests
  refine ⟨_, ?_, combined_fx ha (fun y => pe_whole s c y) cx cy⟩
  rw [State.computeFx, hb]

/-- A computation beside effects computed from the state before. -/
theorem beside_fx {i move : Instr} {s : State} {cond : Cond} {c : Compute} {f : Fx} {fx : Res Fx}
    (hi : exec i s = (s.computeFx c f (s.cx cond) (s.cy cond)).outcome) (hm : exec move s = .next (s.applyFx f)) (ha : f.az = [])
    (hd : ∃ f', fx = .ok f' ∧ f'.dests = f.dests) : Beside i s cond c move fx := by
  intro u v hu hv
  obtain ⟨f', hf', hdests⟩ := hd
  rw [hm] at hv
  obtain rfl : s.applyFx f = v := by simpa using hv
  obtain ⟨t, ht, hc⟩ := computeFx_combined ha (outcome_next.1 hu)
  exact ⟨f', hf', t, hi.trans (outcome_next.2 ht), hdests ▸ hc⟩

/-- A computation beside a data move. -/
theorem beside_move {i move : Instr} {s : State} {cond : Cond} {c : Compute} {m : Move} (he : m.ex = false)
    (hi : exec i s = (s.computeMove c m (s.cx cond) (s.cy cond)).outcome)
    (hm : exec move s = (s.computeMove .none m (s.cx cond) (s.cy cond)).outcome) :
    Beside i s cond c move (s.moveFx m (s.cx cond) (s.cy cond)) := by
  intro u v hu hv
  rw [hm] at hv
  obtain ⟨f, hf, hv⟩ := computeMove_ok (outcome_next.1 hv)
  rw [computeFx_none] at hv
  have hi' : exec i s = (s.computeFx c f (s.cx cond) (s.cy cond)).outcome := by rw [hi, State.computeMove, hf]
  have hm' : exec move s = .next (s.applyFx f) := by
    rw [hm, State.computeMove, hf]
    exact congrArg Res.outcome (computeFx_none s f _ _)
  rw [hf]
  exact beside_fx hi' hm' (moveFx_az he hf) ⟨f, rfl, rfl⟩ u v hu (hm'.trans (congrArg _ (Except.ok.inj hv)))

/-- A computation beside an address conversion, which writes no data register. -/
theorem beside_convert (s : State) (cond : Cond) (c : Compute) (pm : Bool) (i d : DagNo) (toByte breg : Bool) :
    Beside (.convertAddr cond c pm i d toByte breg) s cond c (.convertAddr cond .none pm i d toByte breg) (.ok {}) := by
  intro u v hu hv
  obtain ⟨hrun, -⟩ := compute_busy (outcome_next.1 hu) []
  have hexec : ∀ c' u', s.compute c' (s.cx cond) (s.cy cond) [] = .ok u' → exec (.convertAddr cond c' pm i d toByte breg) s =
      .next (u'.applyConvert (dagNo pm i) (dagNo pm d) toByte breg (s.cx cond || s.cy cond)) := by
    intro c' u' h
    change execConvertAddr cond c' pm i d toByte breg s = _
    rw [execConvertAddr, h]
    rfl
  rw [hexec .none s (compute_none s _ _ [])] at hv
  obtain rfl : _ = v := by simpa using hv
  refine ⟨{}, rfl, _, hexec c u (outcome_next.1 hu), ?_⟩
  rw [hrun]
  exact combined_of (actsOn_convert (dagNo pm i) (dagNo pm d) toByte breg (s.cx cond || s.cy cond)) (fun y => pe_whole s c y)
    (fun _ h => h) (fun _ h => h) s _ _

/-- The two moves of a dual move, and what is put into the state: they, or they with lines that go through to the memory. -/
theorem dualFx_halves {s : State} {dm pm : Move} {f g : Fx} (hd : dm.ex = false) (hp : pm.ex = false)
    (h : s.dualFx dm pm = .ok (f, g)) :
    ∃ f0 g0, s.moveFx dm true true = .ok f0 ∧ s.moveFx pm true true = .ok g0 ∧
      f0.Agree dm.what.onlyData f ∧ g0.Agree pm.what.onlyData g ∧ f.az = [] ∧ g.az = [] := by
  unfold State.dualFx at h
  split at h
  · exact absurd h (by simp)
  · exact absurd h (by simp)
  · rename_i f0 g0 hf hg
    refine ⟨f0, g0, hf, hg, ?_⟩
    split at h
    · obtain ⟨rfl, rfl⟩ := Prod.mk.inj (Except.ok.inj h)
      exact ⟨moveFx_agree (lines := dm.through) hd hf hf, moveFx_agree (lines := pm.through) hp hg hg, moveFx_az hd hf,
        moveFx_az hp hg⟩
    · split at h
      · exact absurd h (by simp)
      · exact absurd h (by simp)
      · rename_i hf' hg'
        obtain ⟨rfl, rfl⟩ := Prod.mk.inj (Except.ok.inj h)
        exact ⟨moveFx_agree hd hf hf', moveFx_agree hp hg hg', moveFx_az (by exact hd) hf', moveFx_az (by exact hp) hg'⟩

theorem combined_dual {s : State} {c : Compute} {f g : Fx} (hf : f.az = []) (hg : g.az = [])
    (hdata : ∀ u ∈ g.dests, (dregOf u).isSome = true) :
    Combined s (s.runPe true true [] fun y => s.pe y c) (s.applyDual f g)
      ((s.runPe true true (f.dests ++ g.dests) fun y => s.pe y c).applyDual f g) (f.dests ++ g.dests) (pairResult c) := by
  refine combined_of (actsOn_applyDual hf hg) (fun y => pe_whole s c y) (fun u hu => ?_) (fun r hr => ?_) s true true
  · rcases List.mem_append.1 hu with hu | hu
    · refine List.mem_append_right _ ?_
      unfold Fx.unblocked at hu
      split at hu
      · exact absurd hu (by simp)
      · exact hu
    · exact List.mem_append_left _ hu
  · rcases List.mem_append.1 hr with hr | hr
    · exact List.mem_append_right _ hr
    · exact absurd (hdata _ hr) Bool.false_ne_true

/-! ### An immediate shift beside a data move -/

/-- An immediate shift alone runs in SISD mode with the bit FIFO ready. -/
theorem exec_ofShiftImm {s : State} (h : s.fifoReady) (sh : ShiftImm) :
    exec (.ofShiftImm sh) s = .next (s.runAlone fun y => s.peShift y sh) := by
  have hfifo : ∀ moves, s.fifoAllowed moves = .ok () := by
    intro moves
    obtain ⟨hq, hw⟩ := h
    simp [State.fifoAllowed, hq, refuseIf, Nat.not_lt.2 hw]
  have hrun : ∀ moves g, (s.runFifo moves g).outcome = .next (s.runAlone g) := by
    intro moves g
    rw [State.runFifo, hfifo]
    rfl
  cases sh with
  | shift op => cases op <;> rfl
  | fieldOp op => cases op <;> rfl
  | btst => rfl
  | bitdep => exact hrun true _
  | bitext nu => cases nu <;> exact hrun true _
  | setBffwrp => exact hrun false _

theorem shiftAllowed_ready {s : State} (h : s.fifoReady) (sh : ShiftImm) : s.shiftAllowed sh = .ok () := by
  obtain ⟨hq, hw⟩ := h
  unfold State.shiftAllowed
  cases sh <;> simp [State.fifoAllowed, hq, refuseIf, Nat.not_lt.2 hw]

/-- In SISD mode the condition of PEy does not matter. -/
theorem runPe_sisd {s : State} (h : s.simd = false) (cx cy cy' : Bool) (busy : List UReg) (f : Bool → PeOut) :
    s.runPe cx cy busy f = s.runPe cx cy' busy f := by
  simp [State.runPe, h]

/-- A post-modify of one word uses the address that the index presents. -/
theorem resolve_post {s : State} {m : Move} {a : RegNo} {md : Word} (ha : m.addr = .post a md) (hz : m.size = .none) :
    ∃ w, s.resolve m = .ok ⟨s.present a (s.ireg a), .none, false, some w⟩ := by
  unfold State.resolve
  rw [ha, hz]
  exact ⟨_, rfl⟩

theorem notBroadcast {s : State} (h : s.noBroadcast) (m : Move) : s.isBroadcast m = false := by
  obtain ⟨h1, h9⟩ := h
  unfold State.isBroadcast
  cases m.addr <;> simp [h1, h9]

/-- A word of a data register that moves by a post-modify in SISD mode: what it writes. -/
theorem moveFx_word {s : State} {m : Move} {a : RegNo} {md : Word} {n : RegNo} {p : Nat} (ha : m.addr = .post a md)
    (hz : m.size = .none) (hx : m.what = .reg (.r n)) (he : m.ex = false) (hq : s.simd = false) (hb : s.noBroadcast)
    (hp : OrdinaryWord s (s.present a (s.ireg a)) p) (cy : Bool) :
    ∃ f, s.moveFx m true cy = .ok f ∧ f.dests = if m.store then [] else [.r n] := by
  obtain ⟨w, hr⟩ := resolve_post (s := s) ha hz
  obtain ⟨l, hl, hs, hphys, hi, hc⟩ := hp.located
  have hf := memoryFx_word (upd := some w) (cy := cy) hl hs hphys hi hc (m := m) (by rw [hx]; simp) he (notBroadcast hb m) hq
  refine ⟨_, moveFx_ok hr hl hf, ?_⟩
  change (s.transfer m m.what ⟨l.region, p, .w32⟩ (s.signed .nw .none) false m.slot).dests = _
  rw [hx]
  by_cases hst : m.store = true
  · rw [transfer_store hst, if_pos hst]
    rfl
  · rw [transfer_load (by simpa using hst), if_neg hst]
    rfl

/-- An immediate shift beside a move: if both complete alone, they complete together. -/
theorem shiftMove_combined {s u : State} {sh : ShiftImm} {m : Move} {f : Fx} {cx cy : Bool} (he : m.ex = false)
    (hf : s.moveFx m cx cy = .ok f) (hu : s.shiftImm sh cx cy [] = .ok u) :
    ∃ t, s.shiftMove sh m cx cy = .ok t ∧ Combined s u (s.applyFx f) t f.dests false := by
  obtain ⟨rfl, hb⟩ := shiftImm_busy hu f.dests
  refine ⟨_, ?_, combined_fx (moveFx_az he hf) (fun y => singles_whole (peShift_singles s y sh)) cx cy⟩
  rw [State.shiftMove, hf]
  dsimp only
  rw [hb]

/-- The first half of the claim on an immediate shift beside a move. -/
theorem beside_shift {x : Instr} {s : State} {cond : Cond} {sh : ShiftImm} {pm store : Bool} {i m : DagNo} {n : RegNo} {mv : Move}
    (hmv : mv = { pm := pm, addr := s.regAddr pm true i m, store := store, what := .reg (.r n), gate := cond })
    (hx : exec x s = (s.shiftMove sh mv (s.cx cond) (s.cy cond)).outcome) {u v : State}
    (hu : exec (.ifShiftImm cond sh) s = .next u) (hv : exec (.moveUregSized cond true pm store i m (.r n) .none) s = .next v) :
    ∃ f, s.moveFx mv (s.cx cond) (s.cy cond) = .ok f ∧ Completes x s fun t => Combined s u v t f.dests false := by
  have hv' : s.moveOnly mv (s.cx cond) (s.cy cond) = .ok v := by
    rw [hmv]
    exact outcome_next.1 hv
  obtain ⟨f, hf, rfl⟩ := moveOnly_ok hv'
  obtain ⟨t, ht, hc⟩ := shiftMove_combined (by rw [hmv]) hf (outcome_next.1 hu)
  exact ⟨f, hf, t, hx.trans (outcome_next.2 ht), hc⟩

/-- The second half: both complete where the bit FIFO is ready and the address leads to a plain word. -/
theorem beside_shift_word {x : Instr} {s : State} {cond : Cond} {sh : ShiftImm} {pm store : Bool} {i m : DagNo} {n : RegNo}
    {mv : Move} {p : Nat}
    (hmv : mv = { pm := pm, addr := s.regAddr pm true i m, store := store, what := .reg (.r n), gate := cond })
    (hx : exec x s = (s.shiftMove sh mv (s.cx cond) (s.cy cond)).outcome) (hcx : s.cx cond = true) (hready : s.fifoReady)
    (hb : s.noBroadcast) (hp : OrdinaryWord s (s.present (dagNo pm i) (s.ireg (dagNo pm i))) p) :
    ∃ u v, exec (.ofShiftImm sh) s = .next u ∧ exec (.moveUregSized cond true pm store i m (.r n) .none) s = .next v ∧
      Completes x s fun t => Combined s u v t (if store then [] else [.r n]) false := by
  obtain ⟨f, hf, hd⟩ := moveFx_word (s := s) (m := mv) (a := dagNo pm i) (md := s.mreg (dagNo pm m)) (n := n) (p := p)
    (by rw [hmv]; rfl) (by rw [hmv]) (by rw [hmv]) (by rw [hmv]) hready.1 hb hp (s.cy cond)
  have hshift : s.shiftImm sh true (s.cy cond) [] = .ok (s.runAlone fun y => s.peShift y sh) := by
    have hgate : (if true || s.cy cond then s.shiftAllowed sh else .ok ()) = .ok () := shiftAllowed_ready hready sh
    rw [State.shiftImm, hgate]
    exact congrArg _ (runPe_sisd hready.1 _ _ _ _ _)
  obtain ⟨t, ht, hc⟩ := shiftMove_combined (by rw [hmv]) hf hshift
  have hmove : exec (.moveUregSized cond true pm store i m (.r n) .none) s = .next (s.applyFx f) := by
    rw [← hcx, hmv] at hf
    have hm : s.moveOnly { pm := pm, addr := s.regAddr pm true i m, store := store, what := .reg (.r n), gate := cond } (s.cx cond)
        (s.cy cond) = .ok (s.applyFx f) := by rw [State.moveOnly, hf]
    exact outcome_next.2 hm
  have hstore : mv.store = store := by rw [hmv]
  rw [hd, hstore] at hc
  exact ⟨_, _, exec_ofShiftImm hready sh, hmove, t, by rw [hx, hcx]; exact outcome_next.2 ht, hc⟩

/-- Settles O31: each instruction by the rule for its kind. -/
theorem operationBesideMove : Obligations.OperationBesideMove := by
  refine ⟨?_, ?_, ?_⟩
  · intro s cond c post pm long i m d u src n k d6 scale toByte breg size move byReg by6
    refine ⟨beside_move rfl rfl rfl, beside_move rfl rfl rfl, beside_move rfl rfl rfl, beside_move rfl rfl rfl,
      beside_fx rfl rfl rfl ⟨_, rfl, rfl⟩, beside_fx rfl rfl rfl ⟨_, rfl, rfl⟩, ?_, beside_convert s cond c pm i d toByte breg⟩
    have hregs : ∀ go, (s.modifyFx (dagNo pm i) (dagNo pm d) (s.mreg (dagNo pm m)) scale go).dests = [] ∧
        (s.modifyFx (dagNo pm i) (dagNo pm d) (s.mreg (dagNo pm m)) scale go).az = [] := by
      intro go
      cases go <;> exact ⟨rfl, rfl⟩
    refine beside_fx rfl ?_ (hregs _).2 ⟨{}, rfl, (hregs _).1.symm⟩
    exact congrArg Res.outcome (computeFx_none s _ _ _)
  · intro s u v c dmStore pmStore i m j k rd rp hu hv
    obtain ⟨f, g, u', hfg, hnone, rfl⟩ := computeDual_ok (outcome_next.1 hv)
    obtain rfl : s = u' := by simpa [compute_none] using hnone
    obtain ⟨f0, g0, hf0, hg0, hf, hg, hfaz, hgaz⟩ := dualFx_halves rfl rfl hfg
    refine ⟨f0, g0, hf0, hg0, (s.runPe true true (f.dests ++ g.dests) fun y => s.pe y c).applyDual f g, ?_, ?_⟩
    · have hboth := (compute_busy (outcome_next.1 hu) (f.dests ++ g.dests)).2
      refine outcome_next.2 (?_ : s.computeDual c _ _ = _)
      rw [State.computeDual, hfg]
      dsimp only
      rw [hboth]
    · rw [(compute_busy (outcome_next.1 hu) []).1, ← hf.dests, ← hg.dests]
      refine combined_dual hfaz hgaz fun u hu => ?_
      rw [hg.dests] at hu
      refine hg.data (fun r hr => ?_) u hu
      obtain rfl : UReg.r rp = r := by simpa [State.dualHalf] using hr
      rfl
  · intro s cond sh i m n goes
    have hgoes : ∀ x pm store, exec x s = (s.shiftMove sh
        { pm := pm, addr := s.regAddr pm true i m, store := store, what := .reg (.r n), gate := cond } (s.cx cond) (s.cy cond)).outcome →
        goes x pm store := by
      intro x pm store hx
      refine ⟨fun u v hu hv => beside_shift rfl hx hu hv, ?_⟩
      rintro p ea s1 hcx - hready hb ⟨rfl, -, -, -⟩ hp
      exact beside_shift_word rfl hx hcx hready hb hp
    exact ⟨hgoes _ _ _ rfl, hgoes _ _ _ rfl, hgoes _ _ _ rfl, hgoes _ _ _ rfl⟩

end Sys2Proof.Machine
end

section
/-! PROOFS. Dual moves (R48, R263, R290, R298, R302, R505, R510, R511). -/

namespace Sys2Proof.Machine

open Sys2Proof

/-! ### The bytes of a store -/

/-- The `n` bytes of the number `v` from byte `p` on, little-endian (R257). -/
def numberAt (v p n q : Nat) : Option Byte := if p ≤ q ∧ q < p + n then some (BitVec.ofNat 8 (v / 256 ^ (q - p))) else none

theorem numberAt_toNat {b : Nat} (v : BitVec b) (p n q : Nat) : numberAt v.toNat p n q = bytesAt v p n q := by
  unfold numberAt bytesAt
  congr 2
  apply BitVec.eq_of_toNat_eq
  rw [BitVec.toNat_ofNat, BitVec.extractLsb'_toNat, Nat.shiftRight_eq_div_pow, Nat.pow_mul]

theorem read_writeLE (m : Memory) (p v n q : Nat) : (m.writeLE p v n).read q = (numberAt v p n q).getD (m.read q) := by
  unfold numberAt
  induction n generalizing m p v with
  | zero =>
    rw [if_neg (by omega)]
    rfl
  | succ n ih =>
    rw [Memory.writeLE, ih]
    by_cases hq : q = p
    · subst hq
      rw [if_neg (by omega), if_pos (by omega), Nat.sub_self, Nat.pow_zero, Nat.div_one]
      exact Memory.read_write_self m q _
    · by_cases hin : p + 1 ≤ q ∧ q < p + 1 + n
      · have hexp : q - p = q - (p + 1) + 1 := by omega
        rw [if_pos hin, if_pos (by omega), hexp, Nat.pow_succ, Nat.mul_comm, ← Nat.div_div_eq_div_mul]
        rfl
      · rw [if_neg hin, if_neg (by omega)]
        exact Memory.read_write_other m _ hq

/-- The bytes that a store puts into memory. -/
def Stored.bytes (x : Stored) : Nat → Option Byte := numberAt x.value x.elem.phys x.elem.width.bytes

/-- The bytes that stores put into memory, the last one of each. -/
def storedBytes : List Stored → Nat → Option Byte
  | [], _ => none
  | x :: l, q => (storedBytes l q).or (x.bytes q)

theorem storedBytes_append (k l : List Stored) (q : Nat) : storedBytes (k ++ l) q = (storedBytes l q).or (storedBytes k q) := by
  induction k with
  | nil => simp [storedBytes]
  | cons x k ih => rw [List.cons_append, storedBytes, ih, storedBytes, Option.or_assoc]

/-! ### Plain accesses put into the state -/

/-- No data cache holds zeros of the line (R378). -/
def State.cleanLine (s : State) (line : Nat) : Prop := ∀ y ∈ s.cache.lines, y.unit ≠ .i → y.line = line → y.zeros = 0#64

/-- The use of a line brings no zeros, and the line holds none. -/
structure PlainUse (s : State) (x : LineUse) : Prop where
  zero : x.zero = false
  data : x.unit ≠ .i
  clean : s.cleanLine x.line

/-- A store that reaches plain memory. -/
structure PlainStore (s : State) (x : Stored) : Prop where
  memory : isSystem x.elem.region.target = false
  writes : s.blockWrites x.elem.region = true
  uses : ∀ u ∈ x.uses, PlainUse s u

/-- `t` is `s` but for memory and the notes of accesses; no block changed its power state, and clean lines are clean. -/
structure Follows (s t : State) : Prop where
  rest : t = { s with mem := t.mem, cache := t.cache, excl := t.excl, bdry := t.bdry }
  power : t.mem.power = s.mem.power
  clean : ∀ line, s.cleanLine line → t.cleanLine line

theorem Follows.refl (s : State) : Follows s s := ⟨rfl, rfl, fun _ h => h⟩

theorem powerOf_congr {s t : State} (hm : t.mmr = s.mmr) (hp : t.posted = s.posted) (hf : t.free = s.free)
    (hw : t.mem.power = s.mem.power) (b : Fin 4) : t.powerOf b = s.powerOf b := by
  simp only [State.powerOf, State.gov, State.governs, hm, hp, hf, hw]

theorem blockWrites_congr {s t : State} (hm : t.mmr = s.mmr) (hp : t.posted = s.posted) (hf : t.free = s.free)
    (hw : t.mem.power = s.mem.power) (r : Config.Region) : t.blockWrites r = s.blockWrites r := by
  unfold State.blockWrites
  cases r.target with
  | l1 b => simp only [powerOf_congr hm hp hf hw, State.gov, State.governs, hm, hp, hf]
  | _ => rfl

theorem Follows.powerOf {s t : State} (h : Follows s t) (b : Fin 4) : t.powerOf b = s.powerOf b := by
  have hr := h.rest
  exact powerOf_congr (by rw [hr]) (by rw [hr]) (by rw [hr]) h.power b

theorem Follows.blockWrites {s t : State} (h : Follows s t) (r : Config.Region) : t.blockWrites r = s.blockWrites r := by
  have hr := h.rest
  exact blockWrites_congr (by rw [hr]) (by rw [hr]) (by rw [hr]) h.power r

/-- Clean lines have no zeros to take out. -/
theorem zerosOut_clean {s : State} {c : CacheNotes} {l : List LineUse} (m : Memory) (hl : ∀ x ∈ l, x.unit ≠ .i)
    (hc : ∀ x ∈ l, ∀ y ∈ c.lines, y.unit ≠ .i → y.line = x.line → y.zeros = 0#64) : s.zerosOut c l m = m := by
  unfold State.zerosOut
  induction l with
  | nil => rfl
  | cons x l ih =>
    have hx : s.zeroOut c m x = m := by
      unfold State.zeroOut
      split
      · rename_i y hy
        have hmem := List.mem_of_find?_eq_some hy
        have hkey := List.find?_some hy
        simp only [Bool.and_eq_true, beq_iff_eq] at hkey
        have hunit : y.unit ≠ .i := by
          intro e
          rw [e] at hkey
          have hi := hl x (by simp)
          cases hu : x.unit <;> simp_all [CacheUnit.asked]
        rw [hc x (by simp) y hmem hunit hkey.2, Memory.clear_none, ite_self]
      · rfl
    rw [List.foldl_cons, hx]
    exact ih (fun z hz => hl z (by simp [hz])) fun z hz => hc z (by simp [hz])

/-- Uses that bring no zeros keep clean lines clean. -/
theorem useLines_clean {s t : State} {l : List LineUse} (hl : ∀ x ∈ l, x.zero = false) {line : Nat} (h : s.cleanLine line) :
    ∀ y ∈ (t.useLines l s.cache).lines, y.unit ≠ .i → y.line = line → y.zeros = 0#64 :=
  useLines_zeros (q := fun x => x = line) hl h

/-- The bytes of a store leave clean lines clean. -/
theorem noteBytes_clean {s : State} {l : List LineUse} {p n : Nat} {c : CacheNotes} {line : Nat}
    (h : ∀ y ∈ c.lines, y.unit ≠ .i → y.line = line → y.zeros = 0#64) :
    ∀ y ∈ (s.noteBytes l p n c).lines, y.unit ≠ .i → y.line = line → y.zeros = 0#64 := by
  intro y hy hunit hline
  obtain ⟨z, hz, rfl⟩ := List.mem_map.1 hy
  split at hunit
  · rename_i hcond
    rw [if_pos hcond] at hline ⊢
    have hzero := h z hz hunit hline
    dsimp only
    rw [hzero]
    simp
  · rename_i hcond
    rw [if_neg hcond] at hline ⊢
    exact h z hz hunit hline

theorem applyStore_follows {s t : State} (h : Follows s t) {x : Stored} (hx : PlainStore s x) :
    Follows s (t.applyStore x) ∧ ∀ q, (t.applyStore x).mem.read q = (x.bytes q).getD (t.mem.read q) := by
  have hclean : ∀ line, t.cleanLine line → ∀ y ∈ (t.useLines x.uses t.cache).lines, y.unit ≠ .i → y.line = line → y.zeros = 0#64 :=
    fun line hl => useLines_clean (fun u hu => (hx.uses u hu).zero) hl
  have hzeros : t.zerosOut (t.useLines x.uses t.cache) x.uses t.mem = t.mem :=
    zerosOut_clean t.mem (fun u hu => (hx.uses u hu).data) fun u hu => hclean u.line (h.clean _ (hx.uses u hu).clean)
  have heq : t.applyStore x = { t with
      mem := (t.mem.writeLE x.elem.phys x.value x.elem.width.bytes).note x.elem.phys x.elem.width.bytes
      cache := t.noteBytes x.uses x.elem.phys x.elem.width.bytes (t.useLines x.uses t.cache)
      excl := dropMonitor t.excl x.elem.phys x.elem.width.bytes } := by
    unfold State.applyStore
    simp only [hx.memory, h.blockWrites, hx.writes, hzeros, Bool.false_eq_true, ↓reduceIte]
  rw [heq]
  refine ⟨⟨?_, ?_, fun line hl => noteBytes_clean (hclean line (h.clean line hl))⟩, fun q => ?_⟩
  · have hr := h.rest
    dsimp only
    rw [hr]
  · exact (Memory.writeLE_power ..).trans h.power
  · rw [Memory.note_read, read_writeLE]
    rfl

theorem applyStores_follows {s t : State} (h : Follows s t) {l : List Stored} (hl : ∀ x ∈ l, PlainStore s x) :
    Follows s (l.foldl State.applyStore t) ∧
    ∀ q, (l.foldl State.applyStore t).mem.read q = (storedBytes l q).getD (t.mem.read q) := by
  induction l generalizing t with
  | nil => exact ⟨h, fun _ => rfl⟩
  | cons x l ih =>
    obtain ⟨h1, hread⟩ := applyStore_follows h (hl x (by simp))
    obtain ⟨h2, hrest⟩ := ih h1 fun y hy => hl y (by simp [hy])
    refine ⟨h2, fun q => ?_⟩
    rw [List.foldl_cons, hrest, hread, storedBytes]
    cases storedBytes l q <;> rfl

/-- A transfer that reaches plain memory alone, whose blocks are not asleep. -/
structure PlainFx (s : State) (f : Fx) : Prop where
  stores : ∀ x ∈ f.stores, PlainStore s x
  touched : ∀ b, Config.Target.l1 b ∈ f.touched → s.powerOf b ≠ .asleep
  lines : ∀ x ∈ f.lines, x.zero = false
  mmr : f.mmr = none
  az : f.az = []
  bus : f.bus = []

theorem touch_not_asleep {s : State} (m : Memory) {l : List Config.Target}
    (h : ∀ b, Config.Target.l1 b ∈ l → s.powerOf b ≠ .asleep) : l.foldl s.touch m = m := by
  induction l with
  | nil => rfl
  | cons t l ih =>
    have ht : s.touch m t = m := by
      unfold State.touch
      cases t with
      | l1 b => exact if_neg (h b (by simp))
      | _ => rfl
    rw [List.foldl_cons, ht]
    exact ih fun b hb => h b (by simp [hb])

theorem applyMemory_follows {s t : State} (h : Follows s t) {f : Fx} (hf : PlainFx s f) :
    Follows s (t.applyMemory f) ∧ ∀ q, (t.applyMemory f).mem.read q = (storedBytes f.stores q).getD (t.mem.read q) := by
  obtain ⟨h1, hread⟩ := applyStores_follows h hf.stores
  have htouch : f.touched.foldl (f.stores.foldl State.applyStore t).touch (f.stores.foldl State.applyStore t).mem =
      (f.stores.foldl State.applyStore t).mem :=
    touch_not_asleep _ fun b hb => by rw [h1.powerOf]; exact hf.touched b hb
  rw [applyMemory_eq, hf.mmr, hf.az, List.foldl_nil]
  unfold State.storesMmr State.accessed
  dsimp only
  rw [htouch, hf.bus, List.nil_append]
  refine ⟨⟨?_, h1.power, fun line hl => ?_⟩, hread⟩
  · have hr := h1.rest
    dsimp only
    rw [hr]
  · exact useLines_clean hf.lines (h1.clean line hl)

/-! ### Registers of a move -/

/-- What register writes leave in the data registers: the last value for each. -/
def writtenRegs : List (UReg × RegVal) → Bool → RegNo → Option Reg40
  | [], _, _ => none
  | (u, x) :: l, y, n => (writtenRegs l y n).or (if u = peReg y n then some x.to40 else none)

theorem writtenRegs_append (k l : List (UReg × RegVal)) (y : Bool) (n : RegNo) :
    writtenRegs (k ++ l) y n = (writtenRegs l y n).or (writtenRegs k y n) := by
  induction k with
  | nil => simp [writtenRegs]
  | cons p k ih => rw [List.cons_append, writtenRegs, ih, writtenRegs, Option.or_assoc]

theorem applyRegs_dreg (t : State) (l : List (UReg × RegVal)) (y : Bool) (n : RegNo) :
    (t.applyRegs l).dreg y n = (writtenRegs l y n).getD (t.dreg y n) := by
  induction l generalizing t with
  | nil => rfl
  | cons p l ih =>
    rw [applyRegs_cons, ih, writeVal_dreg, writtenRegs]
    cases writtenRegs l y n with
    | some v => rfl
    | none =>
      rw [Option.none_or]
      split <;> rfl

theorem writtenRegs_isSome (l : List (UReg × RegVal)) (y : Bool) (n : RegNo) :
    (writtenRegs l y n).isSome = true ↔ peReg y n ∈ l.map Prod.fst := by
  induction l with
  | nil => simp [writtenRegs]
  | cons p l ih =>
    rw [writtenRegs, Option.isSome_or, Bool.or_eq_true, ih, List.map_cons, List.mem_cons, or_comm]
    refine or_congr_left ?_
    split
    · rename_i h
      simp [h]
    · rename_i h
      simpa using fun e => h e.symm

/-! ### What a half of a dual move does -/

/-- A transfer of data registers with plain memory: the registers it loads and the bytes it stores. -/
structure Transfers (s : State) (f : Fx) (regs : Bool → RegNo → Option Reg40) (bytes : Nat → Option Byte) : Prop where
  plain : PlainFx s f
  regs : ∀ y n, writtenRegs f.regs y n = regs y n
  data : ∀ u ∈ f.dests, (dregOf u).isSome = true
  bytes : ∀ q, storedBytes f.stores q = bytes q

theorem Transfers.both {s : State} {f g : Fx} {rf rg : Bool → RegNo → Option Reg40} {bf bg : Nat → Option Byte}
    (hf : Transfers s f rf bf) (hg : Transfers s g rg bg) :
    Transfers s (f.both g) (fun y n => (rg y n).or (rf y n)) (fun q => (bg q).or (bf q)) where
  plain := by
    obtain ⟨fs, ft, fl, -, fa, fb⟩ := hf.plain
    obtain ⟨gs, gt, gl, -, ga, gb⟩ := hg.plain
    refine ⟨fun x hx => ?_, fun b hb => ?_, fun x hx => ?_, rfl, ?_, ?_⟩
    · exact (List.mem_append.1 hx).elim (fs x) (gs x)
    · exact (List.mem_append.1 hb).elim (ft b) (gt b)
    · exact (List.mem_append.1 hx).elim (fl x) (gl x)
    · simp [Fx.both, fa, ga]
    · simp [Fx.both, fb, gb]
  regs y n := by
    change writtenRegs (f.regs ++ g.regs) y n = _
    rw [writtenRegs_append, hf.regs, hg.regs]
  data u hu := by
    change u ∈ (f.regs ++ g.regs).map Prod.fst at hu
    rw [List.map_append, List.mem_append] at hu
    exact hu.elim (hf.data u) (hg.data u)
  bytes q := by
    change storedBytes (f.stores ++ g.stores) q = _
    rw [storedBytes_append, hf.bytes, hg.bytes]

/-- The lines of a plain element come without zeros and hold none. -/
theorem elementUses_plain {s : State} {m : Move} {e : Element} (h : PlainBytes s e.region e.phys e.width.bytes) :
    ∀ x ∈ s.elementUses m e, PlainUse s x := by
  obtain ⟨z1, c1⟩ := mayZero_false h.noZero.1
  obtain ⟨z2, c2⟩ := mayZero_false h.noZero.2
  have hd : dataCache m.pm ≠ .i := by unfold dataCache; split <;> simp
  have hz : (dataCache m.pm != CacheUnit.i) = true := by simpa using hd
  intro x hx
  unfold State.elementUses State.usesOf at hx
  split at hx
  · simp only [List.map_cons, List.map_nil, List.mem_cons, List.not_mem_nil, or_false] at hx
    rcases hx with rfl | rfl
    · exact ⟨by rw [hz]; exact z1, hd, fun y hy hu hl => c1 y hy hu hl⟩
    · exact ⟨by rw [hz]; exact z2, hd, fun y hy hu hl => c2 y hy hu hl⟩
  · exact absurd hx (by simp)

theorem plain_awake {s : State} {r : Config.Region} (h : s.blockReads r = true) :
    ∀ b, Config.Target.l1 b ∈ [r.target] → s.powerOf b ≠ .asleep := by
  intro b hb hp
  rw [State.blockReads, ← List.mem_singleton.1 hb] at h
  simp only [hp] at h
  exact absurd h (by decide)

theorem storeFx_transfers {s : State} {m : Move} {e : Element} (he : m.ex = false)
    (h : PlainBytes s e.region e.phys e.width.bytes) (y : Bool) (v : Nat) :
    Transfers s (s.storeFx m e y v) (fun _ _ => none) (numberAt v e.phys e.width.bytes) := by
  have heq : s.storeFx m e y v = { stores := [⟨e, v, s.elementUses m e⟩], touched := [e.region.target] } := by
    simp [State.storeFx, he]
  rw [heq]
  refine ⟨⟨fun x hx => ?_, plain_awake h.reads, by simp, rfl, rfl, rfl⟩, fun _ _ => rfl, fun u hu => absurd hu (by simp [Fx.dests]), fun q => ?_⟩
  · rw [List.mem_singleton.1 hx]
    exact ⟨h.memory, h.writes, elementUses_plain h⟩
  · simp [storedBytes, Stored.bytes]

theorem loadFx_transfers {s : State} {m : Move} {e : Element} (he : m.ex = false)
    (h : PlainBytes s e.region e.phys e.width.bytes) (y : Bool) (slot : Nat) {regs : Nat → List (UReg × RegVal)}
    (hd : ∀ u ∈ (regs (s.mem.readLE e.phys e.width.bytes)).map Prod.fst, (dregOf u).isSome = true) :
    Transfers s (s.loadFx m e y slot regs) (writtenRegs (regs (s.mem.readLE e.phys e.width.bytes))) (fun _ => none) := by
  have heq : s.loadFx m e y slot regs =
      { regs := regs (s.mem.readLE e.phys e.width.bytes), touched := [e.region.target], lines := s.elementUses m e } := by
    simp [State.loadFx, he, h.memory, readElement_plain m slot h rfl rfl]
  rw [heq]
  exact ⟨⟨by simp, plain_awake h.reads, fun x hx => (elementUses_plain h x hx).zero, rfl, rfl, rfl⟩, fun _ _ => rfl, hd, fun _ => rfl⟩

/-- One transfer of a data register. -/
theorem transfer_transfers {s : State} {m : Move} {e : Element} (he : m.ex = false)
    (h : PlainBytes s e.region e.phys e.width.bytes) (sgn z : Bool) (slot : Nat) (y : Bool) (n : RegNo) {store : Bool}
    (hs : m.store = store) {v : Reg40}
    (hv : (s.loadVal (peReg y n) e.width sgn (s.mem.readLE e.phys e.width.bytes) slot).to40 = v) {b : Nat} {x : BitVec b}
    (hx : s.storeVal (.reg (peReg y n)) e.width slot = x.toNat) :
    Transfers s (s.transfer m (.reg (peReg y n)) e sgn z slot)
      (if store then fun _ _ => none else fun y' r => if y' = y ∧ r = n then some v else none)
      (if store then bytesAt x e.phys e.width.bytes else fun _ => none) := by
  cases store with
  | true =>
    rw [transfer_store hs]
    obtain ⟨hp, hr, hd, hb⟩ := storeFx_transfers he h z (s.storeVal (.reg (peReg y n)) e.width slot)
    refine ⟨hp, hr, hd, fun q => ?_⟩
    rw [hb, hx, numberAt_toNat]
    rfl
  | false =>
    rw [transfer_load hs]
    have hdata : (dregOf (peReg y n)).isSome = true := by cases y <;> rfl
    obtain ⟨hp, hr, hd, hb⟩ := loadFx_transfers he h z slot
      (regs := fun v => [(peReg y n, s.loadVal (peReg y n) e.width sgn v slot)]) (by simp [hdata])
    refine ⟨hp, fun y' r => ?_, hd, hb⟩
    rw [hr]
    simp only [writtenRegs, Option.none_or, hv, peReg_eq_iff, Bool.false_eq_true, ↓reduceIte]

/-! ### Values of a transfer -/

/-- A store of at most 32 bits takes the 32 bits of the register. -/
theorem storeVal_data (s : State) (y : Bool) (n : RegNo) {w : Width} (hw : w = .w16 ∨ w = .w32) (slot : Nat) :
    s.storeVal (.reg (peReg y n)) w slot = (s.fx y n).toNat := by
  rcases hw with rfl | rfl <;> cases y <;> rfl

theorem storeVal_data40 (s : State) (y : Bool) (n : RegNo) (slot : Nat) :
    s.storeVal (.reg (peReg y n)) .w40 slot = (s.dreg y n ++ 0#8).toNat := by
  have happ : (s.dreg y n ++ 0#8).toNat = (s.dreg y n).toNat * 256 := by
    have h := BitVec.toNat_append (s.dreg y n) 0#8
    rw [h]
    simp [Nat.shiftLeft_eq]
  rw [happ]
  cases y <;> rfl

/-- What a load of at most 32 bits brings (R264, R267). -/
theorem loadVal_data (s : State) {sp : Config.Space} {w : Width} {k : Nat} (hw : accessWidth .none sp = some (w, k)) (y : Bool)
    (n : RegNo) (p slot : Nat) :
    (s.loadVal (peReg y n) w (s.signed sp .none) (s.mem.readLE p w.bytes) slot).to40 = reg40 (s.loaded .none sp p) := by
  cases sp with
  | nw | bw =>
    obtain ⟨rfl, -⟩ := Prod.mk.inj (Option.some.inj hw)
    cases y <;> rfl
  | sw =>
    obtain ⟨rfl, -⟩ := Prod.mk.inj (Option.some.inj hw)
    cases y <;> rfl
  | lw => exact absurd hw (by simp [accessWidth])

theorem loadVal_data40 (s : State) (y : Bool) (n : RegNo) (sgn : Bool) (v slot : Nat) :
    (s.loadVal (peReg y n) .w40 sgn v slot).to40 = BitVec.ofNat 40 (v / 256) := by
  cases y <;> rfl

/-- The two words of a 64-bit datum. -/
theorem readLE_words (s : State) (p : Nat) :
    (BitVec.ofNat 64 (s.mem.readLE p 8)).truncate 32 = s.wordAt p ∧
    (BitVec.ofNat 64 (s.mem.readLE p 8)).extractLsb' 32 32 = s.wordAt (p + 4) := by
  have hlo := s.mem.readLE_lt p 4
  have hhi := s.mem.readLE_lt (p + 4) 4
  have hsplit : s.mem.readLE p 8 = s.mem.readLE p 4 + 2 ^ 32 * s.mem.readLE (p + 4) 4 := by
    simp only [Memory.readLE, Nat.add_assoc, Nat.reduceAdd]
    omega
  constructor
  · apply BitVec.eq_of_toNat_eq
    simp only [State.wordAt, BitVec.truncate_eq_setWidth, BitVec.toNat_setWidth, BitVec.toNat_ofNat, hsplit]
    omega
  · apply BitVec.eq_of_toNat_eq
    simp only [State.wordAt, BitVec.extractLsb'_toNat, BitVec.toNat_ofNat, hsplit, Nat.shiftRight_eq_div_pow]
    omega

/-- The registers of a pair are different. -/
theorem pair_distinct : ∀ n : RegNo, n &&& 14#4 ≠ n ||| 1#4 := by decide

theorem transferLong_transfers {s : State} {m : Move} {e : Element} {n : RegNo} (he : m.ex = false)
    (h : PlainBytes s e.region e.phys 8) (hw : e.width = .w64) (hx : m.what = .reg (.r n)) (hb : s.isBroadcast m = false)
    (slot : Nat) {store : Bool} (hs : m.store = store) :
    Transfers s (s.transferLong m e slot)
      (if store then fun _ _ => none else fun y r => if y = false ∧ r = n &&& 14#4 then some (reg40 (s.wordAt e.phys))
        else if y = false ∧ r = n ||| 1#4 then some (reg40 (s.wordAt (e.phys + 4))) else none)
      (if store then bytesAt (s.giveLong (.r n)) e.phys 8 else fun _ => none) ∧
    (store = false → (s.transferLong m e slot).long = true) := by
  have hbytes : e.width.bytes = 8 := by rw [hw]; rfl
  have h' : PlainBytes s e.region e.phys e.width.bytes := by rw [hbytes]; exact h
  cases store with
  | true =>
    rw [transferLong_store hs, hx]
    obtain ⟨hp, hr, hd, hby⟩ := storeFx_transfers he h' false (s.storeLong (.reg (.r n))).toNat
    refine ⟨⟨hp, hr, hd, fun q => ?_⟩, fun h => absurd h (by simp)⟩
    rw [hby, numberAt_toNat, hbytes]
    rfl
  | false =>
    rw [transferLong_load hs hx, hb]
    have hregs : s.longRegs false (.r n) (s.mem.readLE e.phys e.width.bytes) =
        [(.r (n &&& 14#4), .w32 (s.wordAt e.phys)), (.r (n ||| 1#4), .w32 (s.wordAt (e.phys + 4)))] := by
      obtain ⟨hlo, hhi⟩ := readLE_words s e.phys
      rw [hbytes, ← hlo, ← hhi]
      rfl
    obtain ⟨⟨ps, pt, pl, pm, pa, pb⟩, hr, hd, hby⟩ := loadFx_transfers he h' false slot (regs := s.longRegs false (.r n))
      (longRegs_data s false _ rfl)
    refine ⟨⟨⟨ps, pt, pl, pm, pa, pb⟩, fun y r => ?_, hd, hby⟩, fun _ => rfl⟩
    refine (hr y r).trans ?_
    rw [hregs]
    have hlo : (UReg.r (n &&& 14#4) = peReg y r) ↔ (y = false ∧ r = n &&& 14#4) := peReg_eq_iff (z := false)
    have hhi : (UReg.r (n ||| 1#4) = peReg y r) ↔ (y = false ∧ r = n ||| 1#4) := peReg_eq_iff (z := false)
    simp only [writtenRegs, Option.none_or, hlo, hhi, Bool.false_eq_true, ↓reduceIte]
    by_cases h1 : y = false ∧ r = n &&& 14#4
    · have h2 : ¬ (y = false ∧ r = n ||| 1#4) := fun h2 => pair_distinct n (h1.2.symm.trans h2.2)
      rw [if_pos h1, if_neg h2, if_pos h1]
      rfl
    · rw [if_neg h1, if_neg h1, Option.or_none]
      rfl

/-! ### Addresses and elements -/

theorem placeIn_aligned (sp : Config.Space) (w : Width) (imdw pair : Bool) (k : Nat) :
    placeIn sp w imdw (k - misalign sp w pair k) = byteOffset sp w imdw (k - misalign sp w pair k) := by
  cases sp with
  | lw | sw => rfl
  | nw =>
    cases w with
    | w64 =>
      simp only [placeIn, nwPlace, byteOffset, misalign]
      omega
    | _ => rfl
  | bw => cases w <;> rfl

theorem mod_boundary (sp : Config.Space) (w : Width) (pair : Bool) (k : Nat) :
    k % boundary sp w false pair = misalign sp w pair k := by
  cases sp <;> cases w <;> cases pair <;> simp [boundary, misalign, Nat.mod_one]

/-- The element of an access to plain bytes. -/
theorem element_located {s : State} {ea x : Word} {sp : Config.Space} {w : Width} {imdw pair : Bool} {l : Loc} {p : Nat}
    (h : Located s ea sp w imdw pair l p) :
    s.element x l.region (l.off - misalign sp w pair l.off) w = .ok ⟨l.region, p, w⟩ := by
  refine element_ok ?_ h.inside h.plain.noCache h.plain.window h.plain.ranges
  rw [h.place, physOf, h.space, h.wide, placeIn_aligned]

/-- The implicit element of a SIMD access to plain bytes, which asks for no alignment of its own. -/
theorem elementAt_located {s : State} {ea : Word} {sp : Config.Space} {w : Width} {imdw : Bool} {l : Loc} {p : Nat}
    (h : Located s ea sp w imdw false l p) (hm : misalign sp w false l.off = 0) :
    s.elementAt ea w = .ok ⟨l.region, p, w⟩ := by
  obtain ⟨hc, -, -, -⟩ := locate_some h.located
  have hel := element_located h (x := ea)
  rw [hm, Nat.sub_zero] at hel
  have hs : l.region.target ≠ .smmr := fun e => by
    have := h.plain.memory
    rw [e] at this
    exact absurd this (by decide)
  unfold State.elementAt
  simp only [hc, h.located, Bool.false_eq_true, ↓reduceIte, if_neg hs, hel]

/-- The addresses a modifier counts in. -/
def itemSize (sp : Config.Space) : Nat := if sp = .bw then 4 else 1

/-- A post-modify outside circular buffers adds its modifier, in items of the space (R273, R276). -/
theorem resolve_lands {s s1 : State} {m : Move} {a : RegNo} {md ea : Word} {sp : Config.Space} (ha : m.addr = .post a md)
    (hz : m.size = .none) (hl : Lands s (.post a md) sp (itemSize sp) ea s1) (hsp : spaceOf ea = some sp) :
    ∃ v, s.resolve m = .ok ⟨ea, .none, false, some ⟨a, v, false⟩⟩ ∧ s1 = s.setI a v := by
  obtain ⟨rfl, hrev, hcirc, rfl⟩ := hl
  refine ⟨_, ?_, rfl⟩
  have hmod : s.modified a md (s.scaleFor a 2) (s.mode .cbufen) = (s.ireg a + md * BitVec.ofNat 32 (itemSize sp), false) := by
    rw [hcirc]
    unfold State.modified State.scaledMod State.scaleFor
    rw [hsp]
    by_cases hb : sp = .bw
    · subst hb
      have hr : s.reversed a = false := by simpa [itemSize] using hrev
      simp only [hr, Bool.false_and, Bool.false_eq_true, ↓reduceIte, itemSize]
      rw [BitVec.ofInt_add, BitVec.ofInt_mul]
      simp
    · have hb' : ¬ some sp = some Config.Space.bw := by simpa using hb
      simp only [if_neg hb', if_neg hb, itemSize, bne_self_eq_false, Bool.and_false, Bool.false_eq_true, ↓reduceIte, pow_zero, mul_one]
      rw [ofInt_add]
      simp
  unfold State.resolve
  rw [ha, hz]
  simp only [sizeLegal, sizeScale, ↓reduceIte, hmod, Bool.not_true]

/-! ### Accesses of one element and of two -/

theorem not_smmr {t : Config.Target} (h : isSystem t = false) : (t == Config.Target.smmr) = false := by
  cases t <;> simp_all [isSystem]

theorem memoryFx_single {s : State} {m : Move} {q : Resolved} {l : Loc} {cx cy : Bool} {f : Fx}
    (hm : isSystem l.region.target = false) (hr : s.memRow m q l ≠ .pair) (hx : s.explicitFx m q l cx cy = .ok f) :
    s.memoryFx m q l cx cy = .ok { f with u64ma := s.memPad m q l != 0, iira := false } := by
  unfold State.memoryFx
  simp only [not_smmr hm, Bool.false_and, Bool.false_eq_true, ↓reduceIte]
  change (match s.explicitFx m q l cx cy with | .error e => _ | .ok f => _) = _
  rw [hx]
  exact if_neg hr

theorem memoryFx_pair {s : State} {m : Move} {q : Resolved} {l : Loc} {cx cy : Bool} {f g : Fx}
    (hm : isSystem l.region.target = false) (hr : s.memRow m q l = .pair) (hx : s.explicitFx m q l cx cy = .ok f)
    (hg : s.implicitFx m q l cy = .ok g) :
    s.memoryFx m q l cx cy = .ok { f.both g with u64ma := s.memPad m q l != 0, iira := false } := by
  unfold State.memoryFx
  simp only [not_smmr hm, Bool.false_and, Bool.false_eq_true, ↓reduceIte]
  change (match s.explicitFx m q l cx cy with | .error e => _ | .ok f => _) = _
  rw [hx]
  refine (if_pos hr).trans ?_
  change (match s.implicitFx m q l cy with | .error e => _ | .ok g => _) = _
  rw [hg]
  rfl

theorem gated_ok {s : State} {m : Move} {ea : Word} {e : Element} {x : Element → Fx} (he : m.ex = false) :
    s.gated m ea true (.ok e) x = .ok (x e) := by
  simp [State.gated, State.exclAllowed, he]

/-! ### A half of a dual move -/

/-- A post-modify move of a data register of PEx, of the size of its space. -/
structure HalfOf (m : Move) (a : RegNo) (md : Word) (store : Bool) (n : RegNo) : Prop where
  addr : m.addr = .post a md
  what : m.what = .reg (.r n)
  size : m.size = .none
  ex : m.ex = false
  store : m.store = store

/-- The effects `f` are those of the half `h`, which updates index `a`. -/
structure HalfFx (s : State) (a : RegNo) (h : Half) (f : Fx) : Prop where
  transfers : Transfers s f h.regs h.bytes
  long : ∀ y r, (h.regs y r).isSome = true → f.long = h.long
  update : ∃ v, f.update = some ⟨a, v, false⟩ ∧ h.after = (s.setI a v).aligned f.u64ma
  iladi : f.iladi = false
  iira : f.iira = false

theorem Transfers.congr {s : State} {f f' : Fx} {r : Bool → RegNo → Option Reg40} {b : Nat → Option Byte} (h : Transfers s f r b)
    (hr : f'.regs = f.regs) (hs : f'.stores = f.stores) (ht : f'.touched = f.touched) (hl : f'.lines = f.lines)
    (hm : f'.mmr = f.mmr) (ha : f'.az = f.az) (hb : f'.bus = f.bus) : Transfers s f' r b := by
  obtain ⟨⟨ps, pt, pl, pm, pa, pb⟩, hregs, hdata, hbytes⟩ := h
  refine ⟨⟨?_, ?_, ?_, ?_, ?_, ?_⟩, ?_, ?_, ?_⟩
  · rw [hs]; exact ps
  · rw [ht]; exact pt
  · rw [hl]; exact pl
  · rw [hm]; exact pm
  · rw [ha]; exact pa
  · rw [hb]; exact pb
  · rw [hr]; exact hregs
  · unfold Fx.dests at hdata ⊢
    rw [hr]
    exact hdata
  · rw [hs]; exact hbytes

theorem Transfers.same {s : State} {f : Fx} {r r' : Bool → RegNo → Option Reg40} {b b' : Nat → Option Byte} (h : Transfers s f r b)
    (hr : ∀ y n, r' y n = r y n) (hb : ∀ q, b' q = b q) : Transfers s f r' b' :=
  ⟨h.plain, fun y n => (h.regs y n).trans (hr y n).symm, h.data, fun q => (h.bytes q).trans (hb q).symm⟩

theorem Transfers.latch {s : State} {f : Fx} {r : Bool → RegNo → Option Reg40} {b : Nat → Option Byte} (h : Transfers s f r b)
    (u i : Bool) : Transfers s { f with u64ma := u, iira := i } r b := h.congr rfl rfl rfl rfl rfl rfl rfl

/-- One transfer is no 64-bit unit. -/
theorem transfer_long (s : State) (m : Move) (u : UReg) (e : Element) (sgn y : Bool) (slot : Nat) :
    (s.transfer m (.reg u) e sgn y slot).long = false := by
  by_cases hs : m.store = true
  · rw [transfer_store hs]
    rfl
  · rw [transfer_load (by simpa using hs)]
    rfl

section
variable {s : State} {m : Move} {a : RegNo} {md : Word} {store : Bool} {n : RegNo}

/-- The move as the accesses at its address and its update. -/
theorem moveFx_half (hm : HalfOf m a md store n) {sp : Config.Space} {ea : Word} {s0 : State} {l : Loc} {f0 : Fx} {h : Half}
    (hl : Lands s (.post a md) sp (itemSize sp) ea s0) (hloc : locate ea.toNat = some l) (hsp : l.region.space = sp)
    (hf : ∀ upd, s.memoryFx m ⟨ea, .none, false, upd⟩ l true true = .ok f0) (ht : Transfers s f0 h.regs h.bytes)
    (hlong : ∀ y r, (h.regs y r).isSome = true → f0.long = h.long) (hafter : h.after = s0.aligned f0.u64ma)
    (hi : f0.iira = false) : ∃ f, s.moveFx m true true = .ok f ∧ HalfFx s a h f := by
  obtain ⟨v, hres, hs0⟩ := resolve_lands hm.addr hm.size hl (by rw [spaceOf_locate hloc, hsp])
  refine ⟨_, moveFx_ok hres hloc (hf _), ⟨ht.congr rfl rfl rfl rfl rfl rfl rfl, hlong, ⟨v, rfl, ?_⟩, rfl, hi⟩⟩
  rw [hafter, hs0]

theorem rowFx_single (hm : HalfOf m a md store n) (sgn : Bool) (e : Element) :
    s.rowFx m .single sgn e = s.transfer m (.reg (.r n)) e sgn false m.slot := by
  rw [State.rowFx, hm.what]

theorem memWidth_half (hm : HalfOf m a md store n) {ea : Word} {upd : Option IndexWrite} {l : Loc}
    (ht : isSystem l.region.target = false) :
    s.memWidth m ⟨ea, .none, false, upd⟩ l = (Mover.reg (.r n)).width .none l.region.space (s.imdw l.region) := by
  rw [State.memWidth, Move.at_memory m ht, Move.sizeAt_memory m _ ht, hm.what]

/-- The explicit transfer at a plain element. -/
theorem explicitFx_located (hm : HalfOf m a md store n) {q : Resolved} {sp : Config.Space} {w : Width} {imdw : Bool} {row : Row}
    {l : Loc} {p : Nat} (hw : s.memWidth m q l = w) (hr : s.memRow m q l = row)
    (hloc : Located s q.ea sp w imdw (row == .pair) l p) :
    s.explicitFx m q l true true = .ok (s.rowFx m row (s.signed sp q.size) ⟨l.region, p, w⟩) ∧
    s.memPad m q l = misalign sp w (row == .pair) l.off := by
  have hpad : s.memPad m q l = misalign sp w (row == .pair) l.off := by
    rw [State.memPad, hw, hr, hm.ex, hloc.space, mod_boundary]
  have hgo : explicitGate row m.store true true = true := by cases row <;> rfl
  refine ⟨?_, hpad⟩
  rw [State.explicitFx, hpad, hw, hr, hgo, element_located hloc, gated_ok hm.ex, Move.at_memory m hloc.plain.memory, hloc.space]

/-- An access of one element: a transfer of one row. -/
theorem memoryFx_located (hm : HalfOf m a md store n) {ea : Word} {upd : Option IndexWrite} {sp : Config.Space} {w : Width}
    {imdw : Bool} {row : Row} {l : Loc} {p : Nat} (hloc : Located s ea sp w imdw false l p)
    (hw : (Mover.reg (.r n)).width .none sp imdw = w) (hr : s.row m w imdw = row) (hrow : row ≠ .pair) :
    s.memoryFx m ⟨ea, .none, false, upd⟩ l true true =
      .ok { s.rowFx m row (s.signed sp .none) ⟨l.region, p, w⟩ with u64ma := misalign sp w false l.off != 0, iira := false } := by
  have ht := hloc.plain.memory
  have hwidth : s.memWidth m ⟨ea, .none, false, upd⟩ l = w := by rw [memWidth_half hm ht, hloc.space, hloc.wide, hw]
  have hmrow : s.memRow m ⟨ea, .none, false, upd⟩ l = row := by rw [State.memRow, hwidth, hloc.wide, hr]
  have hfalse : (row == Row.pair) = false := by simpa using hrow
  obtain ⟨hx, hpad⟩ := explicitFx_located (q := ⟨ea, .none, false, upd⟩) hm hwidth hmrow (by rw [hfalse]; exact hloc)
  rw [hfalse] at hpad
  rw [memoryFx_single ht (by rw [hmrow]; exact hrow) hx, hpad]

theorem aligned_pad (s0 : State) (k : Nat) : s0.aligned (decide (k ≠ 0)) = s0.aligned (k != 0) := by
  cases k <;> rfl

theorem width_of_access {sp : Config.Space} {w : Width} {imdw : Bool} {k : Nat} (hw : accessWidth .none sp = some (w, k))
    (hk : keepsWidth (.r n) w imdw) :
    (Mover.reg (.r n)).width .none sp imdw = w ∧ k = itemSize sp ∧ (w = .w16 ∨ w = .w32) := by
  cases sp with
  | lw => exact absurd hw (by simp [accessWidth])
  | sw =>
    obtain ⟨rfl, rfl⟩ := Prod.mk.inj (Option.some.inj hw)
    exact ⟨rfl, rfl, .inl rfl⟩
  | nw | bw =>
    obtain ⟨rfl, rfl⟩ := Prod.mk.inj (Option.some.inj hw)
    have himdw : imdw = false := by
      cases imdw with
      | false => rfl
      | true => exact absurd (hk rfl) (by simp [dregOf])
    subst himdw
    exact ⟨rfl, rfl, .inr rfl⟩

theorem row_short (hm : HalfOf m a md store n) {w : Width} (hw : w = .w16 ∨ w = .w32) (hb : s.noBroadcast) (imdw : Bool) :
    s.row m w imdw = if s.simd && !imdw then .pair else .single := by
  have hb' : s.isBroadcast m = false := notBroadcast hb m
  have hc : m.what.hasComp = true := by rw [hm.what]; rfl
  rcases hw with rfl | rfl <;> cases hq : s.simd <;> cases imdw <;> simp [State.row, hb', hc, hq]

/-- A half of 16 or 32 bits in SISD mode (R263). -/
theorem half_single (hm : HalfOf m a md store n) (hb : s.noBroadcast) (hq : s.simd = false) {sp : Config.Space} {w : Width}
    {imdw : Bool} {k p : Nat} {h : Half} (hw : accessWidth .none sp = some (w, k)) (hk : keepsWidth (.r n) w imdw)
    (hr : Reaches s (.post a md) sp w imdw k p h.after) (hlong : h.long = false)
    (hregs : h.regs = if store then fun _ _ => none else fun y r => if y = false ∧ r = n then some (reg40 (s.loaded .none sp p)) else none)
    (hbytes : h.bytes = if store then bytesAt (s.fx false n) p w.bytes else fun _ => none) :
    ∃ f, s.moveFx m true true = .ok f ∧ HalfFx s a h f := by
  obtain ⟨hwidth, rfl, hshort⟩ := width_of_access hw hk
  obtain ⟨ea, s0, l, hlands, hloc, hafter⟩ := hr
  have hrow : s.row m w imdw = .single := by rw [row_short hm hshort hb, hq]; rfl
  have ht := transfer_transfers (e := ⟨l.region, p, w⟩) hm.ex hloc.plain (s.signed sp .none) false m.slot false n hm.store
    (loadVal_data s hw false n p m.slot) (storeVal_data s false n hshort m.slot)
  rw [← hregs, ← hbytes] at ht
  have hfx := fun upd => memoryFx_located (upd := upd) hm hloc hwidth hrow (by simp)
  rw [rowFx_single hm] at hfx
  refine moveFx_half hm hlands hloc.located hloc.space hfx (ht.latch _ _) (fun y r _ => ?_) ?_ rfl
  · exact (transfer_long ..).trans hlong.symm
  · rw [hafter, aligned_pad]

/-- A half of 40 bits, in a block in 48-bit mode (R263). -/
theorem half_forty (hm : HalfOf m a md store n) {sp : Config.Space} {k p : Nat} {h : Half}
    (hw : (sp, k) ∈ [(Config.Space.nw, 1), (.bw, 4)]) (hr : Reaches s (.post a md) sp .w40 true k p h.after) (hlong : h.long = false)
    (hregs : h.regs = if store then fun _ _ => none else
      fun y r => if y = false ∧ r = n then some (BitVec.ofNat 40 (s.mem.readLE p 6 / 256)) else none)
    (hbytes : h.bytes = if store then bytesAt (s.dreg false n ++ 0#8) p 6 else fun _ => none) :
    ∃ f, s.moveFx m true true = .ok f ∧ HalfFx s a h f := by
  have hspace : k = itemSize sp ∧ (Mover.reg (.r n)).width .none sp true = .w40 := by
    simp only [List.mem_cons, List.not_mem_nil, or_false, Prod.mk.injEq] at hw
    rcases hw with ⟨rfl, rfl⟩ | ⟨rfl, rfl⟩ <;> exact ⟨rfl, rfl⟩
  obtain ⟨rfl, hwidth⟩ := hspace
  obtain ⟨ea, s0, l, hlands, hloc, hafter⟩ := hr
  have hrow : s.row m .w40 true = .single := rfl
  have ht := transfer_transfers (e := ⟨l.region, p, .w40⟩) hm.ex hloc.plain (s.signed sp .none) false m.slot false n hm.store
    (loadVal_data40 s false n (s.signed sp .none) (s.mem.readLE p 6) m.slot) (storeVal_data40 s false n m.slot)
  have hr : h.regs = _ := hregs
  have hb : h.bytes = _ := hbytes
  have ht' : Transfers s (s.transfer m (.reg (.r n)) ⟨l.region, p, .w40⟩ (s.signed sp .none) false m.slot) h.regs h.bytes := by
    rw [hr, hb]
    exact ht
  have hfx := fun upd => memoryFx_located (upd := upd) hm hloc hwidth hrow (by simp)
  rw [rowFx_single hm] at hfx
  refine moveFx_half hm hlands hloc.located hloc.space hfx (ht'.latch _ _) (fun y r _ => ?_) ?_ rfl
  · exact (transfer_long ..).trans hlong.symm
  · rw [hafter, aligned_pad]

/-- A half of 64 bits, in long-word space (R263, R298). -/
theorem half_long (hm : HalfOf m a md store n) (hb : s.noBroadcast) {imdw : Bool} {p : Nat} {h : Half}
    (hr : Reaches s (.post a md) .lw .w64 imdw 1 p h.after) (hlong : h.long = true)
    (hregs : h.regs = if store then fun _ _ => none else
      fun y r => if y = false ∧ r = n &&& 14#4 then some (reg40 (s.wordAt p))
        else if y = false ∧ r = n ||| 1#4 then some (reg40 (s.wordAt (p + 4))) else none)
    (hbytes : h.bytes = if store then bytesAt (s.giveLong (.r n)) p 8 else fun _ => none) :
    ∃ f, s.moveFx m true true = .ok f ∧ HalfFx s a h f := by
  obtain ⟨ea, s0, l, hlands, hloc, hafter⟩ := hr
  have hrow : s.row m .w64 imdw = .long := rfl
  obtain ⟨ht, hl⟩ := transferLong_transfers (e := ⟨l.region, p, .w64⟩) hm.ex hloc.plain rfl hm.what (notBroadcast hb m) m.slot hm.store
  rw [← hregs, ← hbytes] at ht
  have hfx := fun upd => memoryFx_located (upd := upd) hm hloc rfl hrow (by simp)
  refine moveFx_half hm hlands hloc.located hloc.space hfx (ht.latch _ _) (fun y r hsome => ?_) ?_ rfl
  · have hstore : store = false := by
      cases store with
      | false => rfl
      | true =>
        rw [hregs] at hsome
        exact absurd hsome (by simp)
    exact (hl hstore).trans hlong.symm
  · rw [hafter, aligned_pad]

/-- A half of 16 or 32 bits in SIMD mode, with its implicit access (R290, R292). -/
theorem half_pair (hm : HalfOf m a md store n) (hb : s.noBroadcast) (hq : s.simd = true) {sp : Config.Space} {w : Width}
    {k p q : Nat} {h : Half} (hw : accessWidth .none sp = some (w, k)) (hr : ReachesPair s (.post a md) sp w k p q h.after)
    (hlong : h.long = false)
    (hregs : h.regs = if store then fun _ _ => none else
      fun y r => if r = n then some (reg40 (s.loaded .none sp (if y then q else p))) else none)
    (hbytes : h.bytes = if store then fun b => bytesAt (s.fx true n) q w.bytes b <|> bytesAt (s.fx false n) p w.bytes b
      else fun _ => none) :
    ∃ f, s.moveFx m true true = .ok f ∧ HalfFx s a h f := by
  obtain ⟨hwidth, rfl, hshort⟩ := width_of_access (n := n) (imdw := false) hw (by simp)
  obtain ⟨ea, s0, l, l', hlands, hloc, hloc', -, hafter⟩ := hr
  have hrow : s.row m w false = .pair := by rw [row_short hm hshort hb, hq]; rfl
  have hmwidth : ∀ upd, s.memWidth m ⟨ea, .none, false, upd⟩ l = w := fun upd => by
    rw [memWidth_half hm hloc.plain.memory, hloc.space, hloc.wide, hwidth]
  have hmrow : ∀ upd, s.memRow m ⟨ea, .none, false, upd⟩ l = .pair := fun upd => by
    rw [State.memRow, hmwidth, hloc.wide, hrow]
  have hexplicit : ∀ upd, s.explicitFx m ⟨ea, .none, false, upd⟩ l true true =
      .ok (s.transfer m (.reg (.r n)) ⟨l.region, p, w⟩ (s.signed sp .none) false m.slot) ∧
      s.memPad m ⟨ea, .none, false, upd⟩ l = misalign sp w true l.off := fun upd => by
    obtain ⟨hx, hpad⟩ := explicitFx_located hm (hmwidth upd) (hmrow upd) hloc
    refine ⟨hx.trans ?_, hpad⟩
    rw [State.rowFx, hm.what]
  have htx := transfer_transfers (e := ⟨l.region, p, w⟩) hm.ex hloc.plain (s.signed sp .none) false m.slot false n hm.store
    (loadVal_data s hw false n p m.slot) (storeVal_data s false n hshort m.slot)
  have hty := transfer_transfers (e := ⟨l'.region, q, w⟩) hm.ex hloc'.plain (s.signed sp .none) true (m.slot + 1) true n hm.store
    (loadVal_data s hw true n q (m.slot + 1)) (storeVal_data s true n hshort (m.slot + 1))
  have ht : Transfers s ((s.transfer m (.reg (.r n)) ⟨l.region, p, w⟩ (s.signed sp .none) false m.slot).both
      (s.transfer m (.reg (.s n)) ⟨l'.region, q, w⟩ (s.signed sp .none) true (m.slot + 1))) h.regs h.bytes := by
    refine (htx.both hty).same (fun y r => ?_) fun b => ?_
    · rw [hregs]
      cases store with
      | true => rfl
      | false =>
        by_cases hr : r = n
        · cases y <;> simp [hr]
        · simp [hr]
    · rw [hbytes]
      cases store with
      | true => simp [Option.orElse_eq_or]
      | false => rfl
  have himplicit : ∀ upd, s.implicitFx m ⟨ea, .none, false, upd⟩ l true =
      .ok (s.transfer m (.reg (.s n)) ⟨l'.region, q, w⟩ (s.signed sp .none) true (m.slot + 1)) := by
    intro upd
    have hpad : s.memPad m ⟨ea, .none, false, upd⟩ l = misalign sp w true l.off := (hexplicit upd).2
    have hmis : misalign sp w false l'.off = 0 := by rcases hshort with rfl | rfl <;> cases sp <;> rfl
    have hel : s.elementAt (ea - BitVec.ofNat 32 (misalign sp w true l.off) + implicitStep sp w) w = .ok ⟨l'.region, q, w⟩ := by
      cases sp <;> exact elementAt_located hloc' hmis
    rw [State.implicitFx, hpad, hmwidth, hloc.space]
    dsimp only
    rw [hel, gated_ok hm.ex, hm.what]
    rfl
  have hfx : ∀ upd, s.memoryFx m ⟨ea, .none, false, upd⟩ l true true = .ok { (s.transfer m (.reg (.r n)) ⟨l.region, p, w⟩
      (s.signed sp .none) false m.slot).both (s.transfer m (.reg (.s n)) ⟨l'.region, q, w⟩ (s.signed sp .none) true (m.slot + 1)) with
      u64ma := misalign sp w true l.off != 0, iira := false } := by
    intro upd
    obtain ⟨hx, hpad⟩ := hexplicit upd
    rw [memoryFx_pair hloc.plain.memory (hmrow upd) hx (himplicit upd), hpad]
  refine moveFx_half hm hlands hloc.located hloc.space hfx (ht.latch _ _) (fun y r _ => hlong.symm) ?_ rfl
  rw [hafter, aligned_pad]

/-- Every half of a dual move completes, with its effects. -/
theorem half_moves (hm : HalfOf m a md store n) (hb : s.noBroadcast) {h : Half} (hh : HalfMove s (.post a md) store n h) :
    ∃ f, s.moveFx m true true = .ok f ∧ HalfFx s a h f := by
  rcases hh with ⟨sp, w, imdw, k, p, hq, hw, hk, hr, hl, hregs, hbytes⟩ | ⟨sp, w, k, p, q, hq, hw, hr, hl, hregs, hbytes⟩ |
    ⟨sp, k, p, hw, hr, hl, hregs, hbytes⟩ | ⟨imdw, p, hr, hl, hregs, hbytes⟩
  · exact half_single hm hb hq hw hk hr hl hregs hbytes
  · exact half_pair hm hb hq hw hr hl hregs hbytes
  · exact half_forty hm hw hr hl hregs hbytes
  · exact half_long hm hb hr hl hregs hbytes

end

/-! ### Both halves put into the state -/

theorem setI_marked (s : State) (k q : Word) (n : RegNo) (v : Word) : (s.marked k q).setI n v = (s.setI n v).marked k q := by
  have h : (s.marked k q).altDag n = s.altDag n := rfl
  unfold State.setI
  rw [h]
  split <;> rfl

theorem marked_marked (s : State) (k q k' q' : Word) : (s.marked k q).marked k' q' = s.marked (k ||| k') (q ||| q') := by
  simp only [State.marked, BitVec.or_assoc]

/-- Both index updates and all latches. -/
theorem updates_eq (s : State) (f g : Fx) (w x : IndexWrite) :
    (((s.applyLatches f).applyLatches g).applyIndex w).applyIndex x =
      ((s.setI w.a w.value).setI x.a x.value).marked ((f.sticks ||| w.sticks) ||| (g.sticks ||| x.sticks))
        ((f.raises s.sys.mode2 ||| w.raises) ||| (g.raises s.sys.mode2 ||| x.raises)) := by
  have hmode : (s.marked f.sticks (f.raises s.sys.mode2)).sys.mode2 = s.sys.mode2 := rfl
  rw [applyLatches_eq, applyLatches_eq, hmode, applyIndex_eq, applyIndex_eq]
  simp only [setI_marked, marked_marked]
  congr 1 <;> ac_rfl

theorem update_eq (s : State) (f : Fx) (w : IndexWrite) :
    (s.applyLatches f).applyIndex w = (s.setI w.a w.value).marked (f.sticks ||| w.sticks) (f.raises s.sys.mode2 ||| w.raises) := by
  rw [applyLatches_eq, applyIndex_eq, setI_marked, marked_marked]

theorem writeVal_data_register {u : UReg} (h : (dregOf u).isSome = true) (t : State) (x : RegVal) :
    ∃ y n, t.writeVal u x = t.setDreg y n x.to40 := by
  cases u with
  | r n => exact ⟨false, n, writeVal_r t n x⟩
  | s n => exact ⟨true, n, writeVal_s t n x⟩
  | _ => exact absurd h Bool.false_ne_true

theorem setDreg_rest (t : State) (y : Bool) (n : RegNo) (v : Reg40) : t.setDreg y n v = { t with data := (t.setDreg y n v).data } := by
  unfold State.setDreg
  (repeat' split) <;> rfl

/-- Writes of data registers change the data alone, and not PX. -/
theorem applyRegs_data {l : List (UReg × RegVal)} (h : ∀ u ∈ l.map Prod.fst, (dregOf u).isSome = true) (t : State) :
    t.applyRegs l = { t with data := (t.applyRegs l).data } ∧ (t.applyRegs l).data.px = t.data.px := by
  induction l generalizing t with
  | nil => exact ⟨rfl, rfl⟩
  | cons p l ih =>
    obtain ⟨y, n, hone⟩ := writeVal_data_register (h p.1 (by simp)) t p.2
    obtain ⟨h1, h2⟩ := ih (fun u hu => h u (by simp [hu])) (t.writeVal p.1 p.2)
    rw [applyRegs_cons, h2, hone]
    refine ⟨?_, by simp⟩
    rw [hone] at h1
    exact h1.trans (by rw [setDreg_rest t y n])

/-- Plain transfers are plain in a state with the same memory, caches and memory-mapped registers. -/
theorem PlainFx.congr {s t : State} {f : Fx} (h : PlainFx s f) (hm : t.mmr = s.mmr) (hp : t.posted = s.posted) (hf : t.free = s.free)
    (hmem : t.mem = s.mem) (hc : t.cache = s.cache) : PlainFx t f where
  stores x hx := by
    obtain ⟨h1, h2, h3⟩ := h.stores x hx
    refine ⟨h1, by rw [blockWrites_congr hm hp hf (by rw [hmem]), h2], fun u hu => ?_⟩
    obtain ⟨hz, hd, hcl⟩ := h3 u hu
    refine ⟨hz, hd, ?_⟩
    unfold State.cleanLine
    rw [hc]
    exact hcl
  touched b hb := by
    rw [powerOf_congr hm hp hf (by rw [hmem])]
    exact h.touched b hb
  lines := h.lines
  mmr := h.mmr
  az := h.az
  bus := h.bus

theorem setI_machine (s : State) (n : RegNo) (v : Word) : ∃ d, s.setI n v = { s with dag := d } := ⟨_, (setI_keeps s n v).1⟩

/-- What a dual move of data registers with plain memory leaves. -/
structure DualDone (s : State) (f g : Fx) (w x : IndexWrite) (t : State) : Prop where
  dag : t.dag = ((s.setI w.a w.value).setI x.a x.value).dag
  sys : t.sys = { s.sys with
    stkyx := s.sys.stkyx ||| ((f.sticks ||| w.sticks) ||| (g.sticks ||| x.sticks))
    irptl := s.sys.irptl ||| ((f.raises s.sys.mode2 ||| w.raises) ||| (g.raises s.sys.mode2 ||| x.raises)) }
  seq : t.seq = s.seq
  mmr : t.mmr = s.mmr
  posted : t.posted = s.posted
  bus : t.bus = s.bus
  free : t.free = s.free
  dregs : ∀ y n, t.dreg y n = (writtenRegs f.regs y n).getD ((writtenRegs (g.unblocked f) y n).getD (s.dreg y n))
  hidden : ∀ y n, t.hiddenDreg y n = s.hiddenDreg y n
  px : t.data.px = s.data.px
  mr : SameMr s t
  fifo : SameFifo s t
  bytes : ∀ q, t.mem.read q = (storedBytes g.stores q).getD ((storedBytes f.stores q).getD (s.mem.read q))

theorem unblocked_data {f g : Fx} (h : ∀ u ∈ g.dests, (dregOf u).isSome = true) :
    ∀ u ∈ (g.unblocked f).map Prod.fst, (dregOf u).isSome = true := by
  unfold Fx.unblocked
  split
  · exact fun u hu => absurd hu (by simp)
  · exact h

theorem applyDual_done {s : State} {f g : Fx} {w x : IndexWrite} {rf rg : Bool → RegNo → Option Reg40} {bf bg : Nat → Option Byte}
    (hf : Transfers s f rf bf) (hg : Transfers s g rg bg) (hw : f.update = some w) (hx : g.update = some x) :
    DualDone s f g w x (s.applyDual f g) := by
  obtain ⟨d, hd⟩ : ∃ d, (s.setI w.a w.value).setI x.a x.value = { s with dag := d } := by
    obtain ⟨d1, h1⟩ := setI_machine s w.a w.value
    obtain ⟨d2, h2⟩ := setI_machine (s.setI w.a w.value) x.a x.value
    exact ⟨d2, by rw [h2, h1]⟩
  generalize hF : (((s.applyLatches f).applyLatches g).applyUpdate f.update).applyUpdate g.update = F
  have hF' : F = ({ s with dag := d } : State).marked ((f.sticks ||| w.sticks) ||| (g.sticks ||| x.sticks))
      ((f.raises s.sys.mode2 ||| w.raises) ||| (g.raises s.sys.mode2 ||| x.raises)) := by
    rw [← hF, hw, hx, ← hd]
    exact updates_eq s f g w x
  generalize hD : (F.applyRegs (g.unblocked f)).applyRegs f.regs = D
  have hDdata : D = { F with data := D.data } := by
    rw [← hD]
    exact (applyRegs_data hf.data _).1.trans (by rw [(applyRegs_data (unblocked_data hg.data) F).1])
  have hplain {h : Fx} (hp : PlainFx s h) : PlainFx D h := by
    refine hp.congr ?_ ?_ ?_ ?_ ?_ <;> rw [hDdata, hF'] <;> rfl
  obtain ⟨h1, hread1⟩ := applyMemory_follows (.refl D) (hplain hf.plain)
  obtain ⟨h2, hread2⟩ := applyMemory_follows h1 (hplain hg.plain)
  have hT : s.applyDual f g = (D.applyMemory f).applyMemory g := by rw [← hD, ← hF]; rfl
  rw [hT]
  generalize (D.applyMemory f).applyMemory g = T at h2 hread2 ⊢
  have hTD := h2.rest
  have hact : ∀ u : State, u.sys = F.sys → u.sys.mode1Act = s.sys.mode1Act := fun u hu => by rw [hu, hF']; rfl
  have hFdata : F.data = s.data := by rw [hF']; rfl
  have hDsys : D.sys = F.sys := by rw [hDdata]
  have hTsys : T.sys = F.sys := by rw [hTD]; exact hDsys
  have hTdata : T.data = D.data := by rw [hTD]
  obtain ⟨htreg, hthid, htmr, htfifo⟩ := dreg_px (s := D) (t := T) (by rw [hTsys, hDsys]) (p := D.data.px) hTdata
  obtain ⟨hfreg, hfhid, hfmr, hffifo⟩ := dreg_px (s := s) (t := F) (hact F rfl) (p := s.data.px) hFdata
  obtain ⟨hhid1, hmr1, hfifo1⟩ := (actsOn_regs (g.unblocked f)).rest F
  obtain ⟨hhid2, hmr2, hfifo2⟩ := (actsOn_regs f.regs).rest (F.applyRegs (g.unblocked f))
  rw [hD] at hhid2 hmr2 hfifo2
  have hdag : T.dag = d := by rw [hTD, hDdata, hF']; rfl
  exact {
    dag := by rw [hdag, hd]
    sys := by rw [hTsys, hF']; rfl
    seq := by rw [hTD, hDdata, hF']; rfl
    mmr := by rw [hTD, hDdata, hF']; rfl
    posted := by rw [hTD, hDdata, hF']; rfl
    bus := by rw [hTD, hDdata, hF']; rfl
    free := by rw [hTD, hDdata, hF']; rfl
    dregs := fun y n => by rw [htreg, ← hD, applyRegs_dreg, applyRegs_dreg, hfreg]
    hidden := fun y n => by rw [hthid, hhid2, hhid1, hfhid]
    px := by rw [hTdata, ← hD, (applyRegs_data hf.data _).2, (applyRegs_data (unblocked_data hg.data) F).2, hFdata]
    mr := fun y bg => by rw [htmr y bg, hmr2 y bg, hmr1 y bg, hfmr y bg]
    fifo := ⟨htfifo.1.trans (hfifo2.1.trans (hfifo1.1.trans hffifo.1)), htfifo.2.trans (hfifo2.2.trans (hfifo1.2.trans hffifo.2))⟩
    bytes := fun q => by
      have hmem : D.mem = s.mem := by rw [hDdata, hF']; rfl
      rw [hread2, hread1, hmem] }

/-! ### The dual move -/

/-- Two moves that complete whatever lines go through to the memory complete together, as they do then. -/
theorem dualFx_of {s : State} {dm pm : Move} {P Q : Fx → Prop} (hd : ∀ lines, ∃ f, s.moveFx (dm.past lines) true true = .ok f ∧ P f)
    (hp : ∀ lines, ∃ g, s.moveFx (pm.past lines) true true = .ok g ∧ Q g) : ∃ f g, s.dualFx dm pm = .ok (f, g) ∧ P f ∧ Q g := by
  obtain ⟨f, hf, hfP⟩ := hd dm.through
  obtain ⟨g, hg, hgQ⟩ := hp pm.through
  have hf' : s.moveFx dm true true = .ok f := hf
  have hg' : s.moveFx pm true true = .ok g := hg
  unfold State.dualFx
  rw [hf', hg']
  dsimp only
  split
  · exact ⟨f, g, rfl, hfP, hgQ⟩
  · obtain ⟨f2, hf2, hfP2⟩ := hd ((s.missedLines f).filter fun line => (s.missedLines g).contains line)
    obtain ⟨g2, hg2, hgQ2⟩ := hp ((s.missedLines f).filter fun line => (s.missedLines g).contains line)
    have hf2' : s.moveFx { dm with through := (s.missedLines f).filter fun line => (s.missedLines g).contains line } true true = .ok f2 := hf2
    have hg2' : s.moveFx { pm with through := (s.missedLines f).filter fun line => (s.missedLines g).contains line } true true = .ok g2 := hg2
    rw [hf2', hg2']
    exact ⟨f2, g2, rfl, hfP2, hgQ2⟩

theorem halfOf_dual (s : State) (pm store : Bool) (i m : DagNo) (n : RegNo) (lines : List Nat) :
    HalfOf ((s.dualHalf pm store i m n).past lines) (dagNo pm i) (s.mreg (dagNo pm m)) store n := ⟨rfl, rfl, rfl, rfl, rfl⟩

theorem exec_dual {s : State} {dmStore pmStore : Bool} {i m j k : DagNo} {rd rp : RegNo} {f g : Fx}
    (h : s.dualFx (s.dualHalf false dmStore i m rd) (s.dualHalf true pmStore j k rp) = .ok (f, g)) :
    exec (.computeDualMove .none dmStore i m rd pmStore j k rp) s = .next (s.applyDual f g) := by
  refine outcome_next.2 (?_ : s.computeDual .none _ _ = _)
  rw [State.computeDual, h]
  dsimp only
  rw [compute_none]

/-- What the address update of a half leaves in its index register, the sticky bits and the latches. -/
theorem half_after {s : State} {a : RegNo} {h : Half} {f : Fx} (hf : HalfFx s a h f) :
    f.update = some ⟨a, h.after.ireg a, false⟩ ∧ h.after.sys.stkyx = s.sys.stkyx ||| f.sticks ∧
    h.after.sys.irptl = s.sys.irptl ||| f.raises s.sys.mode2 := by
  obtain ⟨v, hu, ha⟩ := hf.update
  have hi : h.after.ireg a = v := by
    rw [ha]
    have hk : ((s.setI a v).aligned f.u64ma).ireg a = (s.setI a v).ireg a := by cases f.u64ma <;> rfl
    rw [hk, ireg_setI, if_pos rfl]
  refine ⟨by rw [hu, hi], ?_, ?_⟩
  · rw [ha, Fx.sticks, hf.iira]
    cases f.u64ma <;> simp [State.aligned, flagBit]
  · rw [ha, Fx.raises, hf.iladi, hf.iira]
    cases f.u64ma <;> cases hm : s.sys.mode2.getLsbD 21 <;> have hm' : s.sys.mode2[21] = _ := hm <;>
      simp [State.aligned, flagBit, hm']

/-- A pattern with two sets of bits added. -/
theorem or_both (x a b : Word) : (x ||| a) ||| (x ||| b) = x ||| (a ||| b) := by
  ext i hi
  simp only [BitVec.getElem_or]
  cases x[i] <;> rfl

/-- The first claim: halves of every size, outside circular buffers. -/
theorem dualMove_halves (s : State) (dmStore pmStore : Bool) (i m j k : DagNo) (rd rp : RegNo) (d p : Half) (hb : s.noBroadcast)
    (hd : HalfMove s (s.regAddr false true i m) dmStore rd d) (hp : HalfMove s (s.regAddr true true j k) pmStore rp p) :
    ∃ f g, HalfFx s (dagNo false i) d f ∧ HalfFx s (dagNo true j) p g ∧
      exec (.computeDualMove .none dmStore i m rd pmStore j k rp) s = .next (s.applyDual f g) ∧
      DualDone s f g ⟨dagNo false i, d.after.ireg (dagNo false i), false⟩ ⟨dagNo true j, p.after.ireg (dagNo true j), false⟩
        (s.applyDual f g) := by
  obtain ⟨f, g, hfg, hf, hg⟩ := dualFx_of (fun lines => half_moves (halfOf_dual s false dmStore i m rd lines) hb hd)
    (fun lines => half_moves (halfOf_dual s true pmStore j k rp lines) hb hp)
  exact ⟨f, g, hf, hg, exec_dual hfg, applyDual_done hf.transfers hg.transfers (half_after hf).1 (half_after hg).1⟩

/-- A half loads the registers it names. -/
theorem half_dests {s : State} {a : RegNo} {h : Half} {f : Fx} (hf : HalfFx s a h f) (y : Bool) (r : RegNo) :
    peReg y r ∈ f.dests ↔ (h.regs y r).isSome = true := by
  rw [← hf.transfers.regs, writtenRegs_isSome]
  rfl

/-- A 64-bit PM load is blocked if and only if the DM load names one of its registers (R302). -/
theorem unblocked_eq {s : State} {a b : RegNo} {d p : Half} {f g : Fx} (hf : HalfFx s a d f) (hg : HalfFx s b p g) :
    g.unblocked f = if p.long = true ∧ ∃ y r, (d.regs y r).isSome = true ∧ (p.regs y r).isSome = true then [] else g.regs := by
  have hiff : (g.long && g.dests.any fun u => f.dests.contains u) = true ↔
      p.long = true ∧ ∃ y r, (d.regs y r).isSome = true ∧ (p.regs y r).isSome = true := by
    simp only [Bool.and_eq_true, List.any_eq_true, List.contains_iff_mem]
    constructor
    · rintro ⟨hl, u, hug, huf⟩
      obtain ⟨y, r, rfl⟩ : ∃ y r, u = peReg y r := by
        have hdata := hg.transfers.data u hug
        cases u with
        | r n => exact ⟨false, n, rfl⟩
        | s n => exact ⟨true, n, rfl⟩
        | _ => exact absurd hdata Bool.false_ne_true
      have hp := (half_dests hg y r).1 hug
      exact ⟨(hg.long y r hp).symm.trans hl, y, r, (half_dests hf y r).1 huf, hp⟩
    · rintro ⟨hl, y, r, hd, hp⟩
      exact ⟨(hg.long y r hp).trans hl, peReg y r, (half_dests hg y r).2 hp, (half_dests hf y r).2 hd⟩
  unfold Fx.unblocked
  by_cases hc : (g.long && g.dests.any fun u => f.dests.contains u) = true
  · rw [if_pos hc, if_pos (hiff.1 hc)]
  · rw [if_neg hc, if_neg (mt hiff.2 hc)]

/-! ### Circular buffers -/

/-- The index write of a post-modify of one item, also in a circular buffer (R273, R274). -/
def State.postWrite (s : State) (a : RegNo) (md : Word) : IndexWrite :=
  ⟨a, (s.modified a md (s.scaleFor a 2) (s.mode .cbufen)).1, (s.modified a md (s.scaleFor a 2) (s.mode .cbufen)).2⟩

theorem ordinary_located {s : State} {ea : Word} {p : Nat} (h : OrdinaryWord s ea p) : ∃ l, Located s ea .nw .w32 false false l p := by
  obtain ⟨l, hl, hs, hp, hi, hplain⟩ := h.located
  obtain ⟨-, -, -, ho⟩ := locate_some hl
  refine ⟨l, hl, hs, hi, ?_, ?_, hplain⟩
  · rw [hp, physOf, hs]
    rfl
  · simp only [hp, physOf, placeIn, nwPlace, hs, Width.bytes, Config.Region.bytes, Config.Space.unit]
    omega

/-- A post-modify move of one word in SISD mode: its transfer, and its index write. -/
theorem word_moves {s : State} {m : Move} {a : RegNo} {md : Word} {store : Bool} {n : RegNo} (hm : HalfOf m a md store n)
    (hb : s.noBroadcast) (hq : s.simd = false) {p : Nat} (hp : OrdinaryWord s (s.present a (s.ireg a)) p) :
    ∃ f, s.moveFx m true true = .ok f ∧ (∃ r b, Transfers s f r b) ∧ f.update = some (s.postWrite a md) ∧
      f.iladi = false ∧ f.iira = false ∧ f.u64ma = false := by
  obtain ⟨l, hloc⟩ := ordinary_located hp
  have hres : s.resolve m = .ok ⟨s.present a (s.ireg a), .none, false, some (s.postWrite a md)⟩ := by
    unfold State.resolve
    rw [hm.addr, hm.size]
    rfl
  have hrow : s.row m .w32 false = .single := by rw [row_short hm (.inr rfl) hb, hq]; rfl
  have hfx := memoryFx_located (upd := some (s.postWrite a md)) hm hloc rfl hrow (by simp)
  rw [rowFx_single hm] at hfx
  have ht := transfer_transfers (e := ⟨l.region, p, .w32⟩) hm.ex hloc.plain (s.signed .nw .none) false m.slot false n hm.store
    (loadVal_data s (w := .w32) (k := 1) rfl false n p m.slot) (storeVal_data s false n (.inr rfl) m.slot)
  exact ⟨_, moveFx_ok hres hloc.located hfx, ⟨_, _, ht.congr rfl rfl rfl rfl rfl rfl rfl⟩, rfl, rfl, rfl, rfl⟩

/-- A legal, aligned access of memory latches nothing. -/
theorem no_marks {f : Fx} (h1 : f.iladi = false) (h2 : f.iira = false) (h3 : f.u64ma = false) (mode2 : Word) :
    f.sticks = 0#32 ∧ f.raises mode2 = 0#32 := by
  simp [Fx.sticks, Fx.raises, h1, h2, h3, flagBit]

/-- The index register and the latches after one move alone. -/
theorem applyFx_update {s : State} {f : Fx} {r : Bool → RegNo → Option Reg40} {b : Nat → Option Byte} {w : IndexWrite}
    (ht : Transfers s f r b) (hw : f.update = some w) :
    (s.applyFx f).ireg w.a = w.value ∧ (s.applyFx f).sys = { s.sys with
      stkyx := s.sys.stkyx ||| (f.sticks ||| w.sticks), irptl := s.sys.irptl ||| (f.raises s.sys.mode2 ||| w.raises) } := by
  obtain ⟨d, hd⟩ := setI_machine s w.a w.value
  generalize hF : (s.applyLatches f).applyUpdate f.update = F
  have hF' : F = (s.setI w.a w.value).marked (f.sticks ||| w.sticks) (f.raises s.sys.mode2 ||| w.raises) := by
    rw [← hF, hw]
    exact update_eq s f w
  have hD := (applyRegs_data ht.data F).1
  have hplain : PlainFx (F.applyRegs f.regs) f := by
    refine ht.plain.congr ?_ ?_ ?_ ?_ ?_ <;> rw [hD, hF', hd] <;> rfl
  have hT := (applyMemory_follows (.refl _) hplain).1.rest
  have happly : s.applyFx f = (F.applyRegs f.regs).applyMemory f := by rw [← hF]; rfl
  rw [happly]
  refine ⟨?_, ?_⟩
  · have hi : ((F.applyRegs f.regs).applyMemory f).ireg w.a = F.ireg w.a := by
      rw [hT, hD]
      rfl
    have hFi : F.ireg w.a = (s.setI w.a w.value).ireg w.a := by rw [hF']; rfl
    rw [hi, hFi, ireg_setI, if_pos rfl]
  · rw [hT, hD, hF', hd]
    rfl

theorem condOp_true (s : State) (y : Bool) : s.condOp y .true_ = true := by
  cases y <;> simp [State.condOp, State.cond]

theorem cy_true (s : State) : s.cy .true_ = true := by
  unfold State.cy
  split <;> exact condOp_true s _

/-- Such a move alone, by Type 3b. -/
theorem word_alone {s v : State} {pm store : Bool} {i m : DagNo} {n : RegNo} {p : Nat} (hb : s.noBroadcast) (hq : s.simd = false)
    (hp : OrdinaryWord s (s.present (dagNo pm i) (s.ireg (dagNo pm i))) p)
    (hv : exec (.moveUregSized .true_ true pm store i m (.r n) .none) s = .next v) :
    v.ireg (dagNo pm i) = (s.postWrite (dagNo pm i) (s.mreg (dagNo pm m))).value ∧ v.sys = { s.sys with
      stkyx := s.sys.stkyx ||| (s.postWrite (dagNo pm i) (s.mreg (dagNo pm m))).sticks
      irptl := s.sys.irptl ||| (s.postWrite (dagNo pm i) (s.mreg (dagNo pm m))).raises } := by
  have hm : HalfOf { pm := pm, addr := s.regAddr pm true i m, store := store, what := .reg (.r n), gate := .true_ } (dagNo pm i)
      (s.mreg (dagNo pm m)) store n := ⟨rfl, rfl, rfl, rfl, rfl⟩
  obtain ⟨f, hf, ⟨r, b, ht⟩, hu, h1, h2, h3⟩ := word_moves hm hb hq hp
  obtain ⟨f', hf', rfl⟩ := moveOnly_ok (outcome_next.1 hv)
  have hsame : f' = f := by
    have htrue : s.moveFx { pm := pm, addr := s.regAddr pm true i m, store := store, what := .reg (.r n), gate := .true_ }
        true true = .ok f' := by
      have hcx : s.cx .true_ = true := condOp_true s false
      rw [hcx, cy_true s] at hf'
      exact hf'
    rw [hf] at htrue
    exact (Except.ok.inj htrue).symm
  subst hsame
  obtain ⟨hi, hsys⟩ := applyFx_update ht hu
  obtain ⟨hs, hr⟩ := no_marks h1 h2 h3 s.sys.mode2
  rw [hs, hr, BitVec.zero_or, BitVec.zero_or] at hsys
  exact ⟨hi, hsys⟩

/-- The second claim: words in SISD mode, also in circular buffers. -/
theorem dualMove_words {s : State} {dmStore pmStore : Bool} {i m j k : DagNo} {rd rp : RegNo} {p q : Nat} (hq : s.simd = false)
    (hb : s.noBroadcast) (hp : OrdinaryWord s (s.present (dagNo false i) (s.ireg (dagNo false i))) p)
    (hq' : OrdinaryWord s (s.present (dagNo true j) (s.ireg (dagNo true j))) q) :
    ∃ f g, exec (.computeDualMove .none dmStore i m rd pmStore j k rp) s = .next (s.applyDual f g) ∧
      f.sticks = 0#32 ∧ f.raises s.sys.mode2 = 0#32 ∧ g.sticks = 0#32 ∧ g.raises s.sys.mode2 = 0#32 ∧
      DualDone s f g (s.postWrite (dagNo false i) (s.mreg (dagNo false m))) (s.postWrite (dagNo true j) (s.mreg (dagNo true k)))
        (s.applyDual f g) := by
  obtain ⟨f, g, hfg, ⟨⟨rf, bf, hf⟩, hfu, f1, f2, f3⟩, ⟨⟨rg, bg, hg⟩, hgu, g1, g2, g3⟩⟩ :=
    dualFx_of (fun lines => word_moves (halfOf_dual s false dmStore i m rd lines) hb hq hp)
      (fun lines => word_moves (halfOf_dual s true pmStore j k rp lines) hb hq hq')
  obtain ⟨hfs, hfr⟩ := no_marks f1 f2 f3 s.sys.mode2
  obtain ⟨hgs, hgr⟩ := no_marks g1 g2 g3 s.sys.mode2
  exact ⟨f, g, exec_dual hfg, hfs, hfr, hgs, hgr, applyDual_done hf hg hfu hgu⟩

/-- Settles O30. -/
theorem dualMoves : Obligations.DualMoves := by
  refine ⟨?_, ?_⟩
  · intro s dmStore pmStore i m j k rd rp d p hb hd hp clash
    obtain ⟨f, g, hf, hg, hexec, hdone⟩ := dualMove_halves s dmStore pmStore i m j k rd rp d p hb hd hp
    have hregs : ∀ y r, (s.applyDual f g).dreg y r = (d.regs y r).getD (if clash then s.dreg y r else (p.regs y r).getD (s.dreg y r)) := by
      intro y r
      rw [hdone.dregs, hf.transfers.regs, unblocked_eq hf hg]
      by_cases hc : clash
      · rw [if_pos hc, if_pos hc]
        rfl
      · rw [if_neg hc, if_neg hc, hg.transfers.regs]
    obtain ⟨-, hfs, hfi⟩ := half_after hf
    obtain ⟨-, hgs, hgi⟩ := half_after hg
    refine ⟨rfl, _, hexec, hdone.dag, ?_, hdone.seq, hdone.mmr, hdone.posted, hdone.bus, hdone.free, ?_, ?_, ?_, hdone.hidden,
      hdone.px, hdone.mr, hdone.fifo, fun b => ?_⟩
    · rw [hdone.sys, hfs, hgs, hfi, hgi, or_both, or_both]
      simp [IndexWrite.sticks, IndexWrite.raises, flagBit]
    · intro y r v hv
      rw [hregs, hv]
      rfl
    · intro y r v hd hv
      rw [hregs, hd, hv]
      exact ⟨fun hc => if_pos hc, fun hc => if_neg hc⟩
    · intro y r hd hp
      rw [hregs, hd, hp]
      exact ite_self _
    · rw [hdone.bytes, hf.transfers.bytes, hg.transfers.bytes]
  · intro s v w dmStore pmStore i m j k rd rp p q a b hq hb hp hq' hv hw
    obtain ⟨f, g, hexec, hfs, hfr, hgs, hgr, hdone⟩ := dualMove_words (dmStore := dmStore) (pmStore := pmStore) (m := m) (k := k)
      (rd := rd) (rp := rp) hq hb hp hq'
    obtain ⟨hvi, hvs⟩ := word_alone hb hq hp hv
    obtain ⟨hwi, hws⟩ := word_alone hb hq hq' hw
    refine ⟨_, hexec, ?_, ?_⟩
    · rw [hdone.dag, hvi, hwi]
      rfl
    · rw [hdone.sys, hfs, hfr, hgs, hgr, hvs, hws]
      simp only [BitVec.zero_or, or_both]

end Sys2Proof.Machine
end

section
/-! PROOFS. Every step keeps the reserved bits of the mode, status and interrupt registers 0 (R130, R150, R165, R170, R190,
R210). -/

namespace Sys2Proof.Machine

open Sys2Proof

/-! ### Words within a mask -/

/-- `x` has no bit outside `m`: what each field of `ReservedZero` says of one register. -/
abbrev Within (x m : Word) : Prop := x &&& ~~~m = 0#32

theorem within_iff {x m : Word} : Within x m ↔ ∀ k, x.getLsbD k = true → m.getLsbD k = true := by
  unfold Within
  constructor
  · intro h k hx
    have hk := congrArg (fun w : Word => w.getLsbD k) h
    have hlt : k < 32 := BitVec.lt_of_getLsbD hx
    simpa [hx, hlt] using hk
  · intro h
    apply BitVec.eq_of_getLsbD_eq
    intro k hk
    have := h k
    cases hx : x.getLsbD k <;> simp_all

theorem Within.or {x y m : Word} (hx : Within x m) (hy : Within y m) : Within (x ||| y) m := by
  unfold Within at *
  rw [or_and_of_and_eq_zero hy, hx]

theorem Within.and {x m : Word} (hx : Within x m) (y : Word) : Within (x &&& y) m := by
  rw [within_iff] at *
  intro k hk
  rw [BitVec.getLsbD_and, Bool.and_eq_true] at hk
  exact hx k hk.1

theorem within_and_self (x m : Word) : Within (x &&& m) m := by
  rw [within_iff]
  intro k hk
  rw [BitVec.getLsbD_and, Bool.and_eq_true] at hk
  exact hk.2

theorem Within.ite {x y m : Word} {c : Prop} [Decidable c] (hx : Within x m) (hy : Within y m) : Within (if c then x else y) m := by
  split
  · exact hx
  · exact hy

theorem Within.mono {x c m : Word} (hx : Within x c) (hc : Within c m) : Within x m := by
  rw [within_iff] at *
  exact fun k hk => hc k (hx k hk)

theorem within_zero (m : Word) : Within 0#32 m := BitVec.zero_and

theorem within_flagBit {i : Nat} {m : Word} (h : Within (1#32 <<< i) m) (b : Bool) : Within (flagBit i b) m := by
  cases b
  · exact within_zero m
  · exact h

theorem Within.putBit {x m : Word} {i : Nat} (hx : Within x m) (h : Within (1#32 <<< i) m) (b : Bool) : Within (putBit x i b) m :=
  (hx.and _).or (within_flagBit h b)

/-- A word that changed within `c` alone stays within a mask that holds `c`. -/
theorem Within.of_frame {x x' c m : Word} (hx : Within x m) (h : x' &&& ~~~c = x &&& ~~~c) (hc : Within c m) : Within x' m := by
  rw [within_iff] at *
  intro k hk
  by_cases hck : c.getLsbD k = true
  · exact hc k hck
  · have hlt : k < 32 := BitVec.lt_of_getLsbD hk
    have hbit := congrArg (fun w : Word => w.getLsbD k) h
    simp only [BitVec.getLsbD_and, BitVec.getLsbD_not, hck, hlt] at hbit
    exact hx k (by simpa [hk] using hbit)

/-! ### The arithmetic status after a computation -/

theorem pushCacc_within {a : Word} (g : Bool) (h : Within a astatMask) : Within (pushCacc g a) astatMask :=
  ((h.and _).or ((within_and_self _ _).mono (by decide))).or (within_flagBit (by decide) g)

/-- The flags that a computation writes are bits of ASTAT. -/
theorem PeOut.astat_within (o : PeOut) {a : Word} (h : Within a astatMask) : Within (o.astat a) astatMask := by
  unfold PeOut.astat
  extract_lets a1 a2 a3
  have h1 : Within a1 astatMask := by
    dsimp only [a1]
    split
    · exact h
    · exact h.of_frame (AluFlags.apply_frame _ _) (by decide)
  have h2 : Within a2 astatMask := by
    dsimp only [a2]
    split
    · exact h1
    · exact pushCacc_within _ h1
  have h3 : Within a3 astatMask := by
    dsimp only [a3]
    split
    · exact h2
    · exact h2.of_frame (MulFlags.apply_frame _ _) (by decide)
  split
  · exact h3
  · exact h3.of_frame (ShFlags.apply_frame _ _) (by decide)

/-- The sticky bits of an operation are bits 0 to 2 and 5 to 9. -/
theorem Sticky.apply_within (f : Sticky) {x m : Word} (hx : Within x m) (hm : Within 0x3E7#32 m) : Within (f.apply x) m := by
  have bit (i : Nat) (b : Bool) (hi : Within (1#32 <<< i) 0x3E7#32) : Within (flagBit i b) m :=
    (within_flagBit hi b).mono hm
  exact (((((((hx.or (bit 0 _ (by decide))).or (bit 1 _ (by decide))).or (bit 2 _ (by decide))).or (bit 5 _ (by decide))).or
    (bit 6 _ (by decide))).or (bit 7 _ (by decide))).or (bit 8 _ (by decide))).or (bit 9 _ (by decide))

/-! ### Latches and sticky bits -/

/-- Every interrupt that something raises by name has a latch bit (R210). -/
theorem Irq.num_within (k : Irq) : Within (1#32 <<< k.num) irptMask := by
  cases k <;> decide

theorem raise_reserved {s : State} (h : ReservedZero s.sys) (k : Irq) : ReservedZero (s.raise k).sys :=
  { h with irptl := Within.or h.irptl k.num_within }

theorem raiseIf_reserved {s : State} (h : ReservedZero s.sys) (b : Bool) (k : Irq) : ReservedZero (s.raiseIf b k).sys := by
  unfold State.raiseIf
  split
  · exact raise_reserved h k
  · exact h

theorem stick_reserved {s : State} (h : ReservedZero s.sys) {i : Nat} (hi : Within (1#32 <<< i) stkyxMask) :
    ReservedZero (s.stick i).sys :=
  { h with stkyx := Within.or h.stkyx hi }

/-! ### Register writes -/

/-- A write of a system register ignores the reserved bits (D13). -/
theorem writeSys_reserved {s : State} (h : ReservedZero s.sys) (r : SysReg) (v : Word) : ReservedZero (s.writeSys r v).sys := by
  cases r with
  | ustat1 | ustat2 | ustat3 | ustat4 => exact { h with }
  | mode1stk => exact h
  | mode1 => exact { h with mode1 := within_and_self _ _ }
  | mmask => exact { h with mmask := within_and_self _ _ }
  | mode2 => exact { h with mode2 := within_and_self _ _ }
  | astatx => exact { h with astatx := within_and_self _ _ }
  | astaty => exact { h with astaty := within_and_self _ _ }
  | stkyx => exact { h with stkyx := within_and_self _ _ }
  | stkyy => exact { h with stkyy := within_and_self _ _ }
  | irptl => exact { h with irptl := within_and_self _ _ }
  | imask => exact { h with imask := within_and_self _ _ }
  | imaskp => exact { h with imaskp := within_and_self _ _ }
  | flags =>
    have field (k : Fin 4) : Within (s.flagWrite v k) 0xFF#32 :=
      (within_flagBit (by revert k; decide) _).or (within_flagBit (by revert k; decide) _)
    exact { h with flags := (((field 0).or (field 1)).or (field 2)).or (field 3) }

theorem writeU_reserved {s : State} (h : ReservedZero s.sys) (u : UReg) (v : Word) : ReservedZero (s.writeU u v).sys := by
  cases u with
  | sys r => exact writeSys_reserved h r v
  | tperiod | tcount => exact { h with }
  | _ => simpa [State.writeU] using h

theorem writeVal_reserved {s : State} (h : ReservedZero s.sys) (u : UReg) (x : RegVal) : ReservedZero (s.writeVal u x).sys := by
  unfold State.writeVal
  split
  · simpa using h
  · simpa using h
  · exact h
  · exact h
  · exact writeU_reserved h _ _
  · exact writeU_reserved h _ _
  · exact writeU_reserved h _ _

/-- What one step of a fold keeps, the fold keeps. -/
theorem foldl_reserved {α : Type} {op : State → α → State} (hop : ∀ s x, ReservedZero s.sys → ReservedZero (op s x).sys)
    {s : State} (h : ReservedZero s.sys) (l : List α) : ReservedZero (l.foldl op s).sys := by
  induction l generalizing s with
  | nil => exact h
  | cons x l ih => exact ih (hop s x h)

theorem applyRegs_reserved {s : State} (h : ReservedZero s.sys) (l : List (UReg × RegVal)) : ReservedZero (s.applyRegs l).sys :=
  foldl_reserved (fun _ p hs => writeVal_reserved hs p.1 p.2) h l

/-! ### Moves -/

/-- A store to a core memory-mapped register touches IRPTL alone, with PARI (R323). -/
theorem writeMmr_reserved {s : State} (h : ReservedZero s.sys) (r : CoreMmr) (v : Word) : ReservedZero (s.writeMmr r v).sys := by
  unfold State.writeMmr State.storeMmr
  cases r with
  | gperrStat =>
    dsimp only
    unfold State.writeGperr
    split
    · exact h
    · dsimp only
      refine raise_reserved ?_ .pari
      split <;> exact h
  | sysctl =>
    dsimp only
    unfold State.writeSysctl
    dsimp only
    split <;> exact h
  | _ =>
    dsimp only
    (try split) <;> exact h

theorem applyAz_reserved {s : State} (h : ReservedZero s.sys) (p : Bool × Bool) : ReservedZero (s.applyAz p).sys := by
  unfold State.applyAz
  split
  · exact { h with astaty := Within.putBit h.astaty (by decide) _ }
  · exact { h with astatx := Within.putBit h.astatx (by decide) _ }

theorem applyMemory_reserved {s : State} (h : ReservedZero s.sys) (f : Fx) : ReservedZero (s.applyMemory f).sys := by
  rw [applyMemory_eq]
  refine foldl_reserved (fun _ p hs => applyAz_reserved hs p) ?_ f.az
  have hstores : ReservedZero (s.accessed (f.stores.foldl State.applyStore s) f).sys :=
    foldl_reserved (fun _ _ hs => by simpa using hs) h f.stores
  cases f.mmr with
  | none => exact hstores
  | some p => exact writeMmr_reserved hstores p.1 p.2

theorem applyLatches_reserved {s : State} (h : ReservedZero s.sys) (f : Fx) : ReservedZero (s.applyLatches f).sys := by
  unfold State.applyLatches
  extract_lets s1 s2
  have h1 : ReservedZero s1.sys := raiseIf_reserved h f.iladi .iladi
  have h2 : ReservedZero s2.sys := by
    dsimp only [s2]
    split
    · exact raise_reserved (stick_reserved h1 (by decide)) .iicdi
    · exact h1
  split
  · exact raiseIf_reserved (stick_reserved h2 (by decide)) _ .iicdi
  · exact h2

theorem applyIndex_reserved {s : State} (h : ReservedZero s.sys) (w : IndexWrite) : ReservedZero (s.applyIndex w).sys := by
  have h1 : ReservedZero (s.setI w.a w.value).sys := by simpa using h
  unfold State.applyIndex
  dsimp only
  split
  · split
    · exact raise_reserved (stick_reserved h1 (by decide)) .cb7i
    · split
      · exact raise_reserved (stick_reserved h1 (by decide)) .cb15i
      · exact h1
  · exact h1

theorem applyUpdate_reserved {s : State} (h : ReservedZero s.sys) (w : Option IndexWrite) :
    ReservedZero (s.applyUpdate w).sys := by
  cases w with
  | none => exact h
  | some x => exact applyIndex_reserved h x

theorem applyFx_reserved {s : State} (h : ReservedZero s.sys) (f : Fx) : ReservedZero (s.applyFx f).sys :=
  applyMemory_reserved (applyRegs_reserved (applyUpdate_reserved (applyLatches_reserved h f) _) _) f

theorem applyDual_reserved {s : State} (h : ReservedZero s.sys) (f g : Fx) : ReservedZero (s.applyDual f g).sys :=
  applyMemory_reserved (applyMemory_reserved (applyRegs_reserved (applyRegs_reserved (applyUpdate_reserved (applyUpdate_reserved
    (applyLatches_reserved (applyLatches_reserved h f) g) _) _) _) _) f) g

theorem applyConvert_reserved {s : State} (h : ReservedZero s.sys) (src dst : RegNo) (toByte breg go : Bool) :
    ReservedZero (s.applyConvert src dst toByte breg go).sys := by
  unfold State.applyConvert
  split
  · dsimp only
    split <;> simpa using raiseIf_reserved h _ .iladi
  · exact h

/-! ### Computations -/

theorem applyPe_reserved {s : State} (h : ReservedZero s.sys) (y : Bool) (busy : List UReg) (o : PeOut) :
    ReservedZero (s.applyPe y busy o).sys := by
  rw [applyPe_sys]
  split
  · exact { h with astaty := o.astat_within h.astaty, stkyy := o.sticky.apply_within h.stkyy (by decide) }
  · exact { h with astatx := o.astat_within h.astatx, stkyx := o.sticky.apply_within h.stkyx (by decide) }

theorem runPe_reserved {s : State} (h : ReservedZero s.sys) (cx cy : Bool) (busy : List UReg) (f : Bool → PeOut) :
    ReservedZero (s.runPe cx cy busy f).sys := by
  unfold State.runPe
  extract_lets s1
  have h1 : ReservedZero s1.sys := by
    dsimp only [s1]
    split
    · exact applyPe_reserved h false busy (f false)
    · exact h
  split
  · exact applyPe_reserved h1 true busy (f true)
  · exact h1

/-! ### Stacks and interrupts -/

theorem pushPc_reserved {s : State} (h : ReservedZero s.sys) (w : Word) : ReservedZero (s.pushPc w).sys := by
  rw [pushPc_sys]
  exact { h with irptl := Within.or h.irptl (Within.ite (by decide) (by decide)) }

theorem pushLoop_reserved {s : State} (h : ReservedZero s.sys) (w : Word) (r : Restored) : ReservedZero (s.pushLoop w r).sys := by
  unfold State.pushLoop
  split
  · exact raise_reserved h .sovfi
  · exact raise_reserved h .sovfi
  · exact h

/-- A push of the status stack clears bits of MODE1. -/
theorem pushSts_reserved {s : State} (h : ReservedZero s.sys) : ReservedZero s.pushSts.sys := by
  have hmode : ReservedZero { s.sys with mode1 := s.sys.mode1 &&& ~~~s.sys.mmask } := { h with mode1 := Within.and h.mode1 _ }
  unfold State.pushSts
  dsimp only
  split
  · exact raise_reserved hmode .sovfi
  · exact hmode

/-- What a pop of the status stack brings back is written like any other value, whatever the entry holds. -/
theorem popSts_reserved {s t : State} (h : ReservedZero s.sys) (hp : s.popSts = .ok t) : ReservedZero t.sys := by
  obtain ⟨e, rest, -, rfl⟩ := popSts_ok hp
  exact writeSys_reserved (writeSys_reserved (writeSys_reserved h .mode1 _) .astatx _) .astaty _

theorem endService_reserved {s : State} (h : ReservedZero s.sys) (k : Nat) (latch : Bool) :
    ReservedZero (s.endService k latch).sys :=
  { h with imaskp := Within.and h.imaskp _, irptl := Within.ite (Within.and h.irptl _) h.irptl }

theorem atBranch_reserved {s : State} (h : ReservedZero s.sys) (db : Bool) : ReservedZero (s.atBranch db).sys := by
  rw [atBranch_eq]
  exact { h with irptl := Within.or h.irptl (Within.ite (by decide) (by decide)) }

/-! ### One instruction -/

/-- Every update keeps the reserved bits 0. -/
theorem update_reserved (s t : State) (hu : Update s t) (h : ReservedZero s.sys) : ReservedZero t.sys := by
  cases hu with
  | compute cx cy busy f => exact runPe_reserved h cx cy busy f
  | move f => exact applyFx_reserved h f
  | dual f g => exact applyDual_reserved h f g
  | convert src dst toByte breg go => exact applyConvert_reserved h src dst toByte breg go
  | sysReg r v => exact writeSys_reserved h r v
  | btf y b =>
    cases y
    · exact { h with astatx := Within.putBit h.astatx (by decide) b }
    · exact { h with astaty := Within.putBit h.astaty (by decide) b }
  | dreg | index | goto | flush => simpa using h
  | lcntr | brkstat | marks | idle | sync | cacheOp => exact h
  | pushPc w => exact pushPc_reserved h w
  | call w a db =>
    rw [State.goto_sys]
    exact pushPc_reserved (s := { s with bdry := { s.bdry with called := true } }) h w
  | pushLoop w r => exact pushLoop_reserved h w r
  | pushSts => exact pushSts_reserved h
  | popPc hp =>
    obtain ⟨-, rfl⟩ := popPc_ok hp
    exact h
  | popLoop hp =>
    obtain ⟨-, rfl⟩ := popLoop_ok hp
    exact h
  | popSts hp => exact popSts_reserved h hp
  | service k latch => exact endService_reserved h k latch
  | branch db => exact atBranch_reserved h db

theorem exec_reserved {i : Instr} {s t : State} (he : exec i s = .next t) (h : ReservedZero s.sys) : ReservedZero t.sys :=
  (exec_updates he).keeps update_reserved h

/-! ### One step -/

/-- The timer latches its own two interrupts, if any. -/
theorem passTimer_reserved {s : State} (h : ReservedZero s.sys) (s0 : State) (c : Nat) : ReservedZero (s0.passTimer s c).sys := by
  unfold State.passTimer
  split
  · exact h
  · refine raiseIf_reserved (raiseIf_reserved ?_ _ .tmzhi) _ .tmzli
    exact { h with }

theorem passTime_reserved {s : State} (h : ReservedZero s.sys) (s0 : State) : ReservedZero (s0.passTime s).sys := by
  have hclock (c : Nat) : ReservedZero (s.sys.passClock c) := { h with }
  unfold State.passTime
  dsimp only
  split
  · exact hclock _
  · exact passTimer_reserved (hclock _) s0 _

theorem arithLevels_reserved {s : State} (h : ReservedZero s.sys) : ReservedZero s.arithLevels.sys :=
  raiseIf_reserved (raiseIf_reserved (raiseIf_reserved (raiseIf_reserved h _ .fixi) _ .fltoi) _ .fltui) _ .fltii

theorem closeStep_reserved {s : State} (h : ReservedZero s.sys) (s0 : State) : ReservedZero (s0.closeStep s).sys := by
  have hlatched := arithLevels_reserved (passTime_reserved h s0)
  exact { hlatched with irptl := Within.and hlatched.irptl _ }

theorem breakpoints_reserved {s : State} (h : ReservedZero s.sys) (s0 : State) : ReservedZero (s0.breakpoints s).sys := by
  unfold State.breakpoints
  dsimp only
  split
  · exact h
  · split
    · exact raise_reserved h .bkpi
    · exact h

/-- An accepted interrupt was latched, so it has a bit in IRPTL and IMASKP. -/
theorem accept_within {s : State} {k : Nat} (hk : s.accept = some k) (h : ReservedZero s.sys) : Within (1#32 <<< k) irptMask := by
  have hlatch : s.sys.irptl.getLsbD k = true := (accepted_eq_some.mp (accept_some hk).1).2.1.1
  have hmask : irptMask.getLsbD k = true := within_iff.mp h.irptl k hlatch
  refine within_iff.mpr fun j hj => ?_
  rw [oneShift_getLsbD k j (BitVec.lt_of_getLsbD hj), decide_eq_true_eq] at hj
  exact hj ▸ hmask

/-- Interrupt entry: MODE1 after the push of the status stack, with SINEST for a self-nesting SECI (R1047, R1049). -/
theorem enter_reserved {s t : State} {k : Nat} (hk : Within (1#32 <<< k) irptMask) (he : s.enter k = .ok t)
    (h : ReservedZero s.sys) : ReservedZero t.sys := by
  obtain ⟨base, -, ht⟩ := enter_ok he
  extract_lets ret u mode1 v at ht
  have hu : ReservedZero u.sys := pushSts_reserved (pushPc_reserved (by simpa using h) _)
  have hmode : Within mode1 mode1Mask := Within.ite (Within.or hu.mode1 (by decide)) hu.mode1
  rw [ht]
  exact { hu with
    mode1 := hmode, mode1Act := hmode, irptl := Within.and hu.irptl _, imaskp := Within.or hu.imaskp hk }

theorem takeInterrupt_reserved {s t : State} {k : Nat} (hk : s.accept = some k) (he : s.takeInterrupt k = .ok t)
    (h : ReservedZero s.sys) : ReservedZero t.sys := by
  unfold State.takeInterrupt at he
  split at he
  · exact absurd he (by simp)
  · rename_i u hu
    rw [← Except.ok.inj he]
    have hentered : ReservedZero u.sys := enter_reserved (accept_within hk h) hu h
    have hclosed := closeStep_reserved (s := { u with
      mmr := { u.mmr with imdwAct := u.mmr.sysctl.extractLsb' 9 4 }, bdry := State.reset.bdry })
      hentered s
    exact { hclosed with }

theorem illegal_reserved {s : State} (h : ReservedZero s.sys) : ReservedZero s.illegal.sys := by
  refine raise_reserved ?_ .ilopi
  split <;> exact h

theorem afterFetch_reserved {s : State} (h : ReservedZero s.sys) (s0 : State) (n : Nat) :
    ReservedZero (s0.afterFetch s n).sys := by
  unfold State.afterFetch
  split
  · split
    · exact raise_reserved (stick_reserved h (by decide)) .iicdi
    · exact h
  · exact h

/-- MODE1 as it governs the next instruction is MODE1 as it was before or after this one (R47). -/
theorem passLatencies_reserved {s0 s : State} (h0 : ReservedZero s0.sys) (h : ReservedZero s.sys) :
    ReservedZero (s0.passLatencies s).sys :=
  { h with mode1Act := Within.ite h.mode1 h0.mode1 }

theorem finish_reserved {s0 s t : State} {len : Nat} (he : s0.finish s len = .ok t) (h0 : ReservedZero s0.sys)
    (h : ReservedZero s.sys) : ReservedZero t.sys := by
  obtain ⟨-, u, hu, ⟨-, rfl⟩ | ⟨-, -, rfl⟩⟩ := finish_ok he
  · obtain ⟨-, -, hreset⟩ := resetInvariants
    exact { hreset with }
  · have hsys : ((u.settlePcstkp u.seq.pcStkpDue).loseLoops).sys = s.sys := by
      rw [State.loseLoops_sys, State.settlePcstkp_sys, closeLoop_sys hu]
    refine closeStep_reserved (breakpoints_reserved ?_ s0) s0
    rw [State.passCalls_sys]
    exact passLatencies_reserved h0 (hsys ▸ h)

theorem execute_reserved {s t : State} {f : Fetched} (he : s.execute f = .next t) (h : ReservedZero s.sys) :
    ReservedZero t.sys := by
  rcases execute_cases he with ⟨i, -, hi⟩ | rfl
  · exact exec_reserved hi h
  · exact illegal_reserved h

/-- Settles O56: a step is an interrupt entry, an idle step, or an instruction, which is a run of updates, with its boundary. -/
theorem stepKeepsReservedBits : Obligations.StepKeepsReservedBits := by
  intro s t h hst
  rcases step_cases hst with ⟨k, hk, ht⟩ | ⟨-, -, rfl⟩ | ⟨-, -, f, u, -, -, hu, hf⟩
  · exact takeInterrupt_reserved hk ht h
  · exact closeStep_reserved h s
  · have hbegin : ReservedZero (s.begin f.len).sys := by simpa using h
    exact finish_reserved hf hbegin (afterFetch_reserved (execute_reserved hu hbegin) _ _)

end Sys2Proof.Machine
end

section
/-! PROOFS. MODIFY and circular post-modify (R265, R271 to R278, R286, R338, R531, R532, R662). -/

namespace Sys2Proof.Machine

open Sys2Proof

/-! ### The wrap of a circular buffer -/

/-- The wrap of the model is the wrap of R274. -/
theorem circWrap_wrapped (b : Word) (len : Nat) (t : Int) : Wrapped b.toNat len t (circWrap b len t).1 (circWrap b len t).2 := by
  unfold Wrapped circWrap
  by_cases hend : (b.toNat : Int) + len ≤ t
  · simp [hend]
  · by_cases hbase : t < (b.toNat : Int)
    · simp [hend, hbase]
    · simp [hend, hbase]

/-- The modifier as it counts in the space of the index: in byte space `sc` is the scale, and bit-reversed the scaled modifier is a
pattern (R276, D16). -/
theorem scaledMod_eq (s : State) (a : RegNo) (md : Word) (sc : Nat) : s.scaledMod a md sc =
    if s.reversed a = true ∧ sc ≠ 0 then ((md.toNat / 2 ^ sc : Nat) : Int) else md.toInt * 2 ^ sc := by
  simp [State.scaledMod, Nat.shiftRight_eq_div_pow]

theorem scaledLen_eq (s : State) (a : RegNo) (sc : Nat) :
    s.scaledLen a sc = if s.reversed a then (s.lreg a).toNat / 2 ^ sc else (s.lreg a).toNat * 2 ^ sc := by
  simp [State.scaledLen, Nat.shiftRight_eq_div_pow]

theorem scaledMod_zero (s : State) (a : RegNo) (md : Word) : s.scaledMod a md 0 = md.toInt := by
  simp [scaledMod_eq]

theorem scaledLen_zero (s : State) (a : RegNo) : s.scaledLen a 0 = (s.lreg a).toNat := by
  simp [scaledLen_eq]

/-- With circular buffering an index register is modified by the wrap of its sum. -/
theorem modified_wrapped (s : State) (a : RegNo) (md : Word) (sc : Nat) :
    Wrapped (s.breg a).toNat (s.scaledLen a sc) ((s.ireg a).toNat + s.scaledMod a md sc) (s.modified a md sc true).1
      (s.modified a md sc true).2 :=
  circWrap_wrapped _ _ _

/-- The scale of a modifier is that of the space of the presented index. -/
theorem scaleFor_eq (s : State) (a : RegNo) (k : Nat) : s.scaleFor a k = if s.indexSpace a = some .bw then k else 0 := rfl

/-! ### The write of the index register -/

/-- An index write is the write of the register with the marks of a wrap of I7 or I15 (R286). -/
theorem applyIndex_written (s : State) (w : IndexWrite) : IndexWritten s (s.applyIndex w) w.a w.value w.wrapped := by
  unfold IndexWritten State.applyIndex
  by_cases hw : w.wrapped = true
  · by_cases h7 : w.a = 7#4
    · simp only [hw, h7]
      rfl
    · by_cases h15 : w.a = 15#4
      · simp only [hw, h15]
        rfl
      · simp [hw, h7, h15]
  · simp [hw]

/-- Effects without transfers do nothing to memory. -/
theorem applyMemory_index (t : State) (b : Bool) (w : IndexWrite) : t.applyMemory { iladi := b, update := some w } = t := by
  simp [State.applyMemory, State.useLines]

/-- An index write with its latch of ILADI is all that such effects do. -/
theorem applyFx_index (s : State) (b : Bool) (w : IndexWrite) :
    s.applyFx { iladi := b, update := some w } = (s.raiseIf b .iladi).applyIndex w :=
  applyMemory_index _ b w

/-! ### MODIFY -/

theorem scaleLegal_iff (sc : Scale) (sp : Option Config.Space) : scaleLegal sc sp = true ↔
    sc = .none ∨ sp = some .bw ∨ (sc = .nw ∧ sp ≠ some .lw ∧ sp ≠ some .sw) := by
  cases sc with
  | none => simp [scaleLegal]
  | sw => simp [scaleLegal]
  | nw =>
    by_cases hb : sp = some .bw
    · simp [scaleLegal, hb]
    · simp [scaleLegal, hb]

/-- What MODIFY of index `src` to `dst` leaves. -/
theorem applyFx_modify (s : State) (src dst : RegNo) (md : Word) (scale : Scale) :
    let ok := scaleLegal scale (s.indexSpace src)
    let w := s.modified src md (if ok then s.scaleFor src (scaleShift scale) else 0) true
    s.applyFx (s.modifyFx src dst md scale true) = (s.raiseIf (!ok) .iladi).applyIndex ⟨dst, w.1, w.2 && dst = src⟩ :=
  applyFx_index s _ _

/-- MODIFY whose flag is legal on the index. -/
theorem modifies_of_legal {i : Instr} {s : State} {src dst : RegNo} {md : Word} {scale : Scale}
    (hi : exec i s = .next (s.applyFx (s.modifyFx src dst md scale true))) (hok : scaleLegal scale (s.indexSpace src) = true) :
    Modifies i s src dst md (scaleShift scale) := by
  have happly := applyFx_modify s src dst md scale
  rw [hok] at happly
  have hw := modified_wrapped s src md (s.scaleFor src (scaleShift scale))
  rw [scaledMod_eq, scaledLen_eq, scaleFor_eq] at hw
  exact ⟨_, hi.trans (congrArg _ happly), _, _, hw, applyIndex_written s ⟨dst, _, _⟩⟩

/-- MODIFY whose flag the space of the index does not have: ILADI latches and nothing is scaled (R265, R266). -/
theorem modify_illegal {i : Instr} {s : State} {src dst : RegNo} {md : Word} {scale : Scale}
    (hi : exec i s = .next (s.applyFx (s.modifyFx src dst md scale true))) (hok : scaleLegal scale (s.indexSpace src) = false) :
    Completes i s fun t => ∃ r w, Wrapped (s.breg src).toNat (s.lreg src).toNat ((s.ireg src).toNat + md.toInt) r w ∧
      IndexWritten s.illegalSpace t dst r (w && decide (dst = src)) := by
  have happly := applyFx_modify s src dst md scale
  rw [hok] at happly
  have hw := modified_wrapped s src md 0
  rw [scaledMod_zero, scaledLen_zero] at hw
  exact ⟨_, hi.trans (congrArg _ happly), _, _, hw, applyIndex_written s.illegalSpace ⟨dst, _, _⟩⟩

/-- The three forms of MODIFY, under a condition that is true on PEx. -/
theorem exec_modifyShort {s : State} {cond : Cond} (hc : s.cx cond = true) (pm : Bool) (src dst m : DagNo) :
    exec (.modifyShort cond pm src dst m) s =
      .next (s.applyFx (s.modifyFx (dagNo pm src) (dagNo pm dst) (s.mreg (dagNo pm m)) .none true)) := by
  change Host.Outcome.next (s.applyFx (s.modifyFx _ _ _ _ (s.cx cond || s.cy cond))) = _
  rw [hc, Bool.true_or]

theorem exec_modify {s : State} {cond : Cond} (hc : s.cx cond = true) (pm : Bool) (src dst m : DagNo) (scale : Scale) :
    exec (.modify cond .none pm src dst m scale) s =
      .next (s.applyFx (s.modifyFx (dagNo pm src) (dagNo pm dst) (s.mreg (dagNo pm m)) scale true)) := by
  change (s.computeFx .none (s.modifyFx _ _ _ _ (s.cx cond || s.cy cond)) _ _).outcome = _
  rw [computeFx_none, hc, Bool.true_or]
  rfl

theorem exec_modifyImm (s : State) (pm : Bool) (src dst : DagNo) (data : Word) (scale : Scale) :
    exec (.modifyImm pm src dst data scale) s =
      .next (s.applyFx (s.modifyFx (dagNo pm src) (dagNo pm dst) data scale true)) := rfl

/-! ### A word loaded by post-modify -/

/-- A load from memory leaves the registers it wrote, the breakpoint hits and the lines of the caches. -/
theorem applyMemory_load {t : State} {f : Fx} (hs : f.stores = []) (hm : f.mmr = none) (ha : f.az = []) (hn : f.monitor = none)
    (hb : f.bus = []) (ht : ∀ b, Config.Target.l1 b ∈ f.touched → t.powerOf b ≠ .asleep) : ButHits t (t.applyMemory f) := by
  refine ⟨t.bdry.hits ||| f.hits, { t.useLines f.lines t.cache with near := if f.near then 13 else t.cache.near }, ?_⟩
  rw [applyMemory_eq, hm, ha, hs]
  unfold State.storesMmr State.accessed
  dsimp only [List.foldl_nil]
  rw [touch_not_asleep _ ht, hn, hb]
  rfl

/-- A block of plain bytes is awake. -/
theorem PlainBytes.awake {s : State} {r : Config.Region} {p n : Nat} (h : PlainBytes s r p n) {b : Fin 4}
    (hb : r.target = .l1 b) : s.powerOf b ≠ .asleep := by
  have hr := h.reads
  unfold State.blockReads at hr
  rw [hb] at hr
  intro ha
  dsimp only at hr
  rw [ha] at hr
  exact absurd hr (by decide)

/-- What a load of a word by post-modify does in SISD mode, in a circular buffer too. -/
theorem moveFx_load {s : State} {m : Move} {a : RegNo} {md : Word} {n : RegNo} {p : Nat} (ha : m.addr = .post a md)
    (hz : m.size = .none) (hx : m.what = .reg (.r n)) (he : m.ex = false) (hst : m.store = false) (hq : s.simd = false)
    (hb : s.noBroadcast) (hp : OrdinaryWord s (s.present a (s.ireg a)) p) (cy : Bool) :
    ∃ (r : Config.Region) (lines : List LineUse) (hits : BitVec 3), (∀ b, r.target = .l1 b → s.powerOf b ≠ .asleep) ∧
      s.moveFx m true cy = .ok {
        update := some (s.postWrite a md), regs := [(.r n, .w32 (s.wordAt p))], touched := [r.target], lines := lines
        hits := hits } := by
  obtain ⟨l, hl, hs, hphys, hi, hplain⟩ := hp.located
  have hres : s.resolve m = .ok ⟨s.present a (s.ireg a), .none, false, some (s.postWrite a md)⟩ := by
    unfold State.resolve
    rw [ha, hz]
    rfl
  have hf := memoryFx_word (upd := some (s.postWrite a md)) (cy := cy) hl hs hphys hi hplain (m := m) (by rw [hx]; simp) he
    (notBroadcast hb m) hq
  have hread : s.readElement m ⟨l.region, p, .w32⟩ m.slot = s.mem.readLE p 4 := readElement_plain m m.slot hplain rfl rfl
  have htransfer : s.transfer m m.what ⟨l.region, p, .w32⟩ (s.signed .nw .none) false m.slot =
      { regs := [(.r n, .w32 (s.wordAt p))], touched := [l.region.target], lines := s.elementUses m ⟨l.region, p, .w32⟩ } := by
    rw [hx, transfer_load hst]
    simp [State.loadFx, he, hread, hplain.memory, State.loadVal, State.wordAt]
  rw [htransfer] at hf
  exact ⟨l.region, _, _, fun b => hplain.awake, moveFx_ok hres hl hf⟩

/-- In normal-word space the modifier and the length count in the index's own units. -/
theorem postWrite_wrapped {s : State} {a : RegNo} {p : Nat} (md : Word) (hc : s.mode .cbufen = true)
    (hp : OrdinaryWord s (s.present a (s.ireg a)) p) :
    Wrapped (s.breg a).toNat (s.lreg a).toNat ((s.ireg a).toNat + md.toInt) (s.postWrite a md).value
      (s.postWrite a md).wrapped := by
  obtain ⟨l, hl, hs, -⟩ := hp.located
  have hscale : s.scaleFor a 2 = 0 := by
    unfold State.scaleFor
    rw [spaceOf_locate hl, hs]
    rfl
  have hw := modified_wrapped s a md 0
  rw [scaledMod_zero, scaledLen_zero] at hw
  unfold State.postWrite
  rw [hscale, hc]
  exact hw

/-- The index write leaves what decides on the power of a block. -/
theorem applyIndex_powerOf (s : State) (w : IndexWrite) (b : Fin 4) : (s.applyIndex w).powerOf b = s.powerOf b :=
  powerOf_congr (by simp) (by simp) (by simp) (by simp) b

/-- A load of a data register by post-modify: the index write, the register, and no more. -/
theorem applyFx_load {s : State} {n : RegNo} {v : Word} {w : IndexWrite} {r : Config.Region} {lines : List LineUse}
    {hits : BitVec 3}
    (hr : ∀ b, r.target = .l1 b → s.powerOf b ≠ .asleep) :
    ButHits ((s.applyIndex w).setDreg false n (reg40 v))
      (s.applyFx { update := some w, regs := [(.r n, .w32 v)], touched := [r.target], lines := lines, hits := hits }) := by
  refine applyMemory_load (t := (s.applyIndex w).setDreg false n (reg40 v)) rfl rfl rfl rfl rfl fun b hb => ?_
  have hp : ((s.applyIndex w).setDreg false n (reg40 v)).powerOf b = s.powerOf b :=
    (powerOf_congr (by simp) (by simp) (by simp) (by simp) b).trans (applyIndex_powerOf s w b)
  rw [hp]
  exact hr b (List.mem_singleton.mp hb).symm

/-- An unconditional Type 3b move of a data register. -/
theorem exec_wordMove {s : State} {pm store : Bool} {i m : DagNo} {n : RegNo} {f : Fx}
    (hf : s.moveFx { pm := pm, addr := s.regAddr pm true i m, store := store, what := .reg (.r n), gate := .true_ } true
      (s.cy .true_) = .ok f) :
    exec (.moveUregSized .true_ true pm store i m (.r n) .none) s = .next (s.applyFx f) := by
  refine outcome_next.2 (?_ : s.moveOnly _ (s.cx .true_) (s.cy .true_) = _)
  have hcx : s.cx .true_ = true := condOp_true s false
  rw [State.moveOnly, hcx, hf]

/-- Settles O39. -/
theorem circularBuffers : Obligations.CircularBuffers := by
  refine ⟨?_, ?_⟩
  · intro s cond pm src dst m data scale hc a d md space legal illegal
    have hlegal : scaleLegal scale (s.indexSpace a) = true ↔ legal := scaleLegal_iff scale (s.indexSpace a)
    refine ⟨?_, fun h => ?_, fun h => ?_, fun h => ⟨?_, ?_⟩⟩
    · exact modifies_of_legal (scale := .none) (exec_modifyShort hc pm src dst m) rfl
    · exact modifies_of_legal (exec_modify hc pm src dst m scale) (hlegal.mpr h)
    · exact modifies_of_legal (exec_modifyImm s pm src dst data scale) (hlegal.mpr h)
    · exact modify_illegal (exec_modify hc pm src dst m scale) (by simpa [← hlegal] using h)
    · exact modify_illegal (exec_modifyImm s pm src dst data scale) (by simpa [← hlegal] using h)
  · intro s pm i m n p a ea hq hb hc hp
    obtain ⟨r, lines, hits, hr, hf⟩ := moveFx_load (s := s) (md := s.mreg (dagNo pm m)) (n := n) (m := {
      pm := pm, addr := s.regAddr pm true i m, store := false, what := .reg (.r n), gate := .true_ }) rfl rfl rfl rfl rfl hq hb hp
      (s.cy .true_)
    exact ⟨_, exec_wordMove hf, _, _, _, postWrite_wrapped _ hc hp, applyIndex_written s (s.postWrite a _), applyFx_load hr⟩

end Sys2Proof.Machine
end

section
/-! PROOFS. What the outside does to the core: SECI, FIRI, IIRI and parity errors (R219, R323, R1032, R1035, R1049, R1057, R1080,
R1081). -/

namespace Sys2Proof.Machine

open Sys2Proof

/-! ### Events and accelerators -/

theorem raiseIf_irptl (s : State) (b : Bool) (k : Irq) :
    (s.raiseIf b k).sys.irptl = if b then s.sys.irptl ||| 1#32 <<< k.num else s.sys.irptl := by
  cases b <;> rfl

/-- An event writes its number and latches SECI, unless SECI is in service and does not self-nest (R1035, R1049, R1057). -/
theorem secRaise_seci (s : State) (sid : Word) :
    (s.secRaise sid).mmr = { s.mmr with seciId := sid } ∧ (s.secRaise sid).sys.irptl =
      if s.sys.imaskp.getLsbD 15 = true ∧ s.sys.mode2.getLsbD 0 = false then s.sys.irptl else s.sys.irptl ||| 0x8000#32 := by
  unfold State.secRaise
  refine ⟨State.raiseIf_mmr _ _ _, ?_⟩
  rw [raiseIf_irptl, State.setMmrs_sys]
  cases s.sys.imaskp.getLsbD 15 <;> cases s.sys.mode2.getLsbD 0 <;> rfl

/-- An accelerator latches its interrupt, unless it is in service (R219, R1032, R1035). -/
theorem accelerator_eq (s : State) (iir : Bool) :
    let k := if iir then 14 else 13
    s.accelerator iir = { s with sys := { s.sys with
      irptl := if s.sys.imaskp.getLsbD k then s.sys.irptl else s.sys.irptl ||| (1#32 <<< k) } } := by
  have latch (k : Irq) : s.raiseIf (!s.sys.imaskp.getLsbD k.num) k = { s with sys := { s.sys with
      irptl := if s.sys.imaskp.getLsbD k.num then s.sys.irptl else s.sys.irptl ||| (1#32 <<< k.num) } } := by
    cases s.sys.imaskp.getLsbD k.num <;> rfl
  cases iir
  · exact latch .firi
  · exact latch .iiri

/-! ### Which errors are indicated -/

/-- An error on `a` hides one at the same time on `b` (R323, log 63). -/
def Hides (a b : ParityPath) : Prop := (a = .dcdm ∧ (b = .dcpm ∨ b = .icpm)) ∨ (a = .dss1 ∧ b = .dss2)

theorem hiddenBy_eq_some {a b : ParityPath} : b.hiddenBy = some a ↔ Hides a b := by
  cases b <;> simp [ParityPath.hiddenBy, Hides, eq_comm]

theorem not_hides_self (a : ParityPath) : ¬ Hides a a := by
  rintro (⟨rfl, h | h⟩ | ⟨rfl, h⟩) <;> exact absurd h (by decide)

/-- Errors none of which hides another are all indicated. -/
theorem indicated_eq_self {l : List ParityPath} (h : ∀ a ∈ l, ∀ b ∈ l, ¬ Hides a b) : indicated l = l := by
  unfold indicated
  refine List.filter_eq_self.mpr fun b hb => ?_
  cases hq : b.hiddenBy with
  | none => rfl
  | some a =>
    have ha : a ∉ l := fun ha => h a ha b hb (hiddenBy_eq_some.mp hq)
    simpa using ha

theorem indicated_single (a : ParityPath) : indicated [a] = [a] :=
  indicated_eq_self (by simp [not_hides_self])

theorem indicated_pair {a b : ParityPath} (hab : ¬ Hides a b) (hba : ¬ Hides b a) : indicated [a, b] = [a, b] :=
  indicated_eq_self (by simp [not_hides_self, hab, hba])

/-- A hidden error is not indicated, in whatever order the two are named. -/
theorem indicated_hidden {a b : ParityPath} (h : Hides a b) : ∀ l ∈ [[a, b], [b, a]], indicated l = [a] := by
  rcases h with ⟨rfl, rfl | rfl⟩ | ⟨rfl, rfl⟩ <;> decide

/-! ### What an error records -/

/-- The bits and the class enable that the statement lists for a path are those of the model. -/
theorem parityPaths_bits : ∀ x ∈ parityPaths, x.1.bit = x.2.1 ∧ x.1.classBits = x.2.2 := by
  decide

/-- The class of a path is enabled (R1080). -/
def State.parityOn (s : State) (p : ParityPath) : Bool := s.sys.mode1.getLsbD p.classBits.2

/-- CMMR_GPERR_STAT takes a record unless an earlier error locks it (R323). -/
def State.gperrRecorded (s : State) (w : Word) : State :=
  s.setMmrs fun m => if m.gperrStat = 0#32 then { m with gperrStat := w } else m

theorem gperrRecorded_stat (s : State) (w : Word) :
    (s.gperrRecorded w).mmr.gperrStat = if s.mmr.gperrStat = 0#32 then w else s.mmr.gperrStat := by
  dsimp only [State.gperrRecorded, State.setMmrs]
  split <;> rfl

/-- The record and the latches after errors whose indicated paths are `k`, which record `w` (R323, R1081). -/
theorem parityError_indicated (s : State) {l k : List ParityPath} {w : Word} {on : Bool} (hk : indicated l = k)
    (hw : k.foldl (fun v p => v ||| s.parityBits p) 0#32 = w) (hon : k.any s.parityOn = on) :
    let t := s.parityError l
    t.mmr.gperrStat = (if s.mmr.gperrStat = 0#32 then w else s.mmr.gperrStat) ∧
      t.sys.irptl = (if on then s.sys.irptl ||| 0x8#32 else s.sys.irptl) ∧ t.sys.parity = (s.sys.parity || on) ∧
      t.data = s.data ∧ t.dag = s.dag ∧ t.seq = s.seq ∧ t.mem = s.mem := by
  have ht : s.parityError l = if on then
      { s.gperrRecorded w with sys := { (s.gperrRecorded w).sys with parity := true } }.raise .pari else s.gperrRecorded w := by
    subst hk hw hon
    rfl
  have hstat := gperrRecorded_stat s w
  rw [ht]
  cases on with
  | false => exact ⟨hstat, rfl, (Bool.or_false _).symm, rfl, rfl, rfl, rfl⟩
  | true => exact ⟨hstat, rfl, (Bool.or_true _).symm, rfl, rfl, rfl, rfl⟩

/-- Settles O38. -/
theorem outsideEvents : Obligations.OutsideEvents := by
  refine ⟨fun s sid _ => secRaise_seci s sid, accelerator_eq, ?_⟩
  intro s _ record after hides
  have hrecord : ∀ x ∈ parityPaths, s.parityBits x.1 = record x := by
    intro x hx
    obtain ⟨hbit, hclass⟩ := parityPaths_bits x hx
    unfold State.parityBits
    rw [hbit, hclass]
    rfl
  have hon : ∀ x ∈ parityPaths, s.parityOn x.1 = s.sys.mode1.getLsbD x.2.2.2 := by
    intro x hx
    unfold State.parityOn
    rw [(parityPaths_bits x hx).2]
  have alone : ∀ x ∈ parityPaths, ∀ l, indicated l = [x.1] → after l (record x) (s.sys.mode1.getLsbD x.2.2.2) := fun x hx l hl =>
    parityError_indicated s hl (by simp [hrecord x hx]) (by simp [hon x hx])
  refine ⟨fun x hx => alone x hx _ (indicated_single x.1), fun x hx y hy => ⟨fun h l hl => ?_, fun hxy hyx => ?_⟩⟩
  · exact alone x hx l (indicated_hidden h l hl)
  · exact parityError_indicated s (indicated_pair hxy hyx) (by simp [hrecord x hx, hrecord y hy]) (by simp [hon x hx, hon y hy])

end Sys2Proof.Machine
end

section
/-! PROOFS. Memory stays in its canonical form through every step (spec/20_memory.md sections 1 and 2). -/

namespace Sys2Proof.Machine

open Sys2Proof

/-! ### One instruction -/

@[simp] theorem State.runPe_mem (s : State) (cx cy : Bool) (busy : List UReg) (f : Bool → PeOut) :
    (s.runPe cx cy busy f).mem = s.mem := by
  cases cx <;> simp only [State.runPe] <;> split <;> simp [applyPe_mem]

@[simp] theorem State.applyConvert_mem (s : State) (src dst : RegNo) (toByte breg go : Bool) :
    (s.applyConvert src dst toByte breg go).mem = s.mem := by
  unfold State.applyConvert
  split
  · dsimp only
    split <;> simp
  · rfl

@[simp] theorem State.flushCache_mem_wf (s : State) (on : Bool) : (s.flushCache on).mem.wf = s.mem.wf := by
  cases on <;> rfl

/-- Only moves store into memory; every other update leaves its bytes as they are. -/
theorem update_mem_wf (s t : State) (hu : Update s t) (h : s.mem.wf = true) : t.mem.wf = true := by
  cases hu with
  | move f => exact applyFx_wf h f
  | dual f g => exact applyDual_wf h f g
  | compute | convert | dreg | index | sysReg | pushPc | pushLoop | pushSts | service | branch | call | goto | flush => simpa using h
  | btf | lcntr | brkstat | marks | idle | sync | cacheOp => exact h
  | popPc hp =>
    obtain ⟨-, rfl⟩ := popPc_ok hp
    exact h
  | popLoop hp =>
    obtain ⟨-, rfl⟩ := popLoop_ok hp
    exact h
  | popSts hp =>
    obtain ⟨e, rest, -, rfl⟩ := popSts_ok hp
    simpa using h

theorem exec_mem_wf {i : Instr} {s t : State} (he : exec i s = .next t) (h : s.mem.wf = true) : t.mem.wf = true :=
  (exec_updates he).keeps update_mem_wf h

theorem execute_mem_wf {s t : State} {f : Fetched} (he : s.execute f = .next t) (h : s.mem.wf = true) : t.mem.wf = true := by
  rcases execute_cases he with ⟨i, -, hi⟩ | rfl
  · exact exec_mem_wf hi h
  · unfold State.illegal
    split <;> exact h

/-! ### The boundary of a step -/

/-- Time only lets memory blocks wake up. -/
@[simp] theorem closeStep_mem_wf (s0 s : State) : (s0.closeStep s).mem.wf = s.mem.wf := by
  have htime : (s0.passTime s).mem.wf = s.mem.wf := by
    unfold State.passTime
    dsimp only
    split <;> simp
  calc (s0.closeStep s).mem.wf
      _ = (s0.passTime s).arithLevels.mem.wf := rfl
      _ = (s0.passTime s).mem.wf := by rw [State.arithLevels_mem]
      _ = s.mem.wf := htime

@[simp] theorem afterFetch_mem_wf (s0 s : State) (n : Nat) : (s0.afterFetch s n).mem.wf = s.mem.wf := by
  unfold State.afterFetch
  split
  · split <;> simp
  · exact touch_wf ..

theorem takeInterrupt_mem_wf {s t : State} {k : Nat} (he : s.takeInterrupt k = .ok t) (h : s.mem.wf = true) :
    t.mem.wf = true := by
  unfold State.takeInterrupt at he
  split at he
  · exact absurd he (by simp)
  · rename_i u hu
    obtain ⟨base, -, hentered⟩ := enter_ok hu
    rw [← Except.ok.inj he]
    simpa [hentered] using h

/-- A software reset wakes the blocks and keeps what they hold (R1204). -/
theorem coreReset_mem_wf (s : State) : s.coreReset.mem.wf = s.mem.wf := rfl

theorem finish_mem_wf {s0 s t : State} {len : Nat} (he : s0.finish s len = .ok t) (h : s.mem.wf = true) : t.mem.wf = true := by
  obtain ⟨-, u, hu, hcases⟩ := finish_ok he
  have hmem : u.mem.wf = true := by
    rw [closeLoop_frame hu]
    exact h
  rcases hcases with ⟨-, rfl⟩ | ⟨-, -, rfl⟩
  · exact (coreReset_mem_wf u).trans hmem
  · dsimp only
    rw [closeStep_mem_wf, breakpoints_mem, State.passCalls_mem]
    dsimp only [State.passLatencies]
    split <;> simpa using hmem

/-- Settles O54: a step is an interrupt entry, an idle step, or an instruction, which is a run of updates, with its boundary. -/
theorem stepKeepsMemoryCanonical : Obligations.StepKeepsMemoryCanonical := by
  intro s t h hst
  rcases step_cases hst with ⟨k, -, ht⟩ | ⟨-, -, rfl⟩ | ⟨-, -, f, u, -, -, hu, hf⟩
  · exact takeInterrupt_mem_wf ht h
  · rwa [closeStep_mem_wf]
  · have hexec : u.mem.wf = true := execute_mem_wf hu (by simpa using h)
    exact finish_mem_wf hf (by simpa using hexec)

end Sys2Proof.Machine
end

section
/-! PROOFS. A load or a store put into the state: the latches, the address update, the registers, the bytes (spec/20_memory.md R257,
R311, R337 to R339). -/

namespace Sys2Proof.Machine

open Sys2Proof

/-! ### The latches -/

theorem aligned_marked (s : State) (b : Bool) :
    s.aligned b = s.marked (flagBit 20 b) (flagBit 6 (b && s.sys.mode2.getLsbD 21)) := by
  unfold State.aligned State.marked
  cases s.sys.mode2.getLsbD 21 <;> cases b <;> simp [flagBit]

theorem illegalSpace_marked (s : State) : s.illegalSpace = s.marked 0#32 (flagBit 8 true) := by
  simp [State.illegalSpace, State.marked, flagBit]

theorem unintended_marked (s : State) :
    s.unintended = s.marked (flagBit 19 (s.sys.mode2.getLsbD 20)) (flagBit 6 (s.sys.mode2.getLsbD 20)) := by
  unfold State.unintended State.marked
  cases s.sys.mode2.getLsbD 20 <;> simp [flagBit]

/-- An index update outside circular buffers is the write of the index register. -/
theorem applyIndex_unwrapped {w : IndexWrite} (h : w.wrapped = false) (s : State) : s.applyIndex w = s.setI w.a w.value := by
  unfold State.applyIndex
  simp [h]

/-- An address update that wrapped no buffer. -/
def unwrapped (w : Option IndexWrite) : Prop := ∀ x, w = some x → x.wrapped = false

/-- The latches of an access come to the same before its address update and after it. -/
theorem latches_update {f : Fx} (h : unwrapped f.update) (s : State) :
    (s.applyLatches f).applyUpdate f.update = (s.applyUpdate f.update).marked f.sticks (f.raises s.sys.mode2) := by
  rw [applyLatches_eq]
  cases hf : f.update with
  | none => rfl
  | some w =>
    change (s.marked _ _).applyIndex w = (s.applyIndex w).marked _ _
    rw [applyIndex_unwrapped (h w hf), applyIndex_unwrapped (h w hf), setI_marked]

theorem applyUpdate_mode2 (s : State) {w : Option IndexWrite} (h : unwrapped w) : (s.applyUpdate w).sys = s.sys := by
  cases w with
  | none => rfl
  | some w =>
    change (s.applyIndex w).sys = _
    rw [applyIndex_unwrapped (h w rfl), (setI_keeps s _ _).1]

/-- The state after the address update, the forced alignment and the latch of an illegal size. -/
def State.settled (s : State) (legal forced : Bool) : State := if legal then s.aligned forced else (s.aligned forced).illegalSpace

theorem latches_settled {f : Fx} (h : unwrapped f.update) (hi : f.iira = false) (s : State) :
    (s.applyLatches f).applyUpdate f.update = (s.applyUpdate f.update).settled (!f.iladi) f.u64ma := by
  rw [latches_update h, State.settled, illegalSpace_marked, aligned_marked, marked_marked, applyUpdate_mode2 s h, Fx.sticks, Fx.raises, hi]
  cases f.iladi with
  | false => simp [flagBit]
  | true =>
    simp only [Bool.not_true, Bool.false_eq_true, ↓reduceIte]
    congr 1
    · simp [flagBit]
    · rw [BitVec.or_comm]
      rfl

/-- `t` is `s` but for address registers and system registers. -/
def Addressed (s t : State) : Prop := ∃ d y, t = { s with dag := d, sys := y }

theorem update_addressed (s : State) (f : Fx) : Addressed s ((s.applyLatches f).applyUpdate f.update) := by
  rw [applyLatches_eq]
  cases f.update with
  | none => exact ⟨_, _, rfl⟩
  | some w =>
    change Addressed s ((s.marked _ _).applyIndex w)
    rw [applyIndex_eq]
    obtain ⟨d, hd⟩ := setI_machine (s.marked f.sticks (f.raises s.sys.mode2)) w.a w.value
    rw [hd]
    exact ⟨_, _, rfl⟩

theorem PlainFx.addressed {s t : State} {f : Fx} (h : PlainFx s f) (ht : Addressed s t) : PlainFx t f := by
  obtain ⟨d, y, rfl⟩ := ht
  exact h.congr rfl rfl rfl rfl rfl

/-! ### Loads -/

/-- A register write decides nothing about the power of a block. -/
theorem applyRegs_powerOf (s : State) (l : List (UReg × RegVal)) (b : Fin 4) : (s.applyRegs l).powerOf b = s.powerOf b := by
  induction l generalizing s with
  | nil => rfl
  | cons p l ih =>
    rw [applyRegs_cons, ih]
    exact powerOf_congr (by simp) (by simp) (by simp) (by simp) b

/-- A load leaves the registers it wrote, the exclusive mark and AZ, the breakpoint hits and the lines of the caches. -/
theorem applyMemory_reads {t : State} {f : Fx} (hs : f.stores = []) (hm : f.mmr = none) (hb : f.bus = [])
    (ht : ∀ b, Config.Target.l1 b ∈ f.touched → t.powerOf b ≠ .asleep) :
    ButHits (f.az.foldl State.applyAz { t with excl := f.monitor <|> t.excl }) (t.applyMemory f) := by
  have haz : ∀ (l : List (Bool × Bool)) (u : State) (h : BitVec 3) (c : CacheNotes),
      l.foldl State.applyAz { u with bdry := { u.bdry with hits := h }, cache := c } =
        { l.foldl State.applyAz u with bdry := { (l.foldl State.applyAz u).bdry with hits := h }, cache := c } := by
    intro l
    induction l with
    | nil => exact fun _ _ _ => rfl
    | cons p l ih =>
      intro u h c
      have hone : State.applyAz { u with bdry := { u.bdry with hits := h }, cache := c } p =
          { u.applyAz p with bdry := { (u.applyAz p).bdry with hits := h }, cache := c } := by
        unfold State.applyAz
        split <;> rfl
      rw [List.foldl_cons, hone, ih]
      rfl
  refine ⟨t.bdry.hits ||| f.hits, { t.useLines f.lines t.cache with near := if f.near then 13 else t.cache.near }, ?_⟩
  rw [applyMemory_eq, hm, hs, ← haz]
  unfold State.storesMmr State.accessed
  dsimp only [List.foldl_nil]
  rw [touch_not_asleep _ ht, hb]
  rfl

/-- An access that stores nothing: the address update, the registers, the exclusive mark and AZ, and no more. -/
theorem applyFx_read {s s1 : State} {f : Fx} (h1 : (s.applyLatches f).applyUpdate f.update = s1) (hs : f.stores = [])
    (hm : f.mmr = none) (hb : f.bus = []) (ht : ∀ b, Config.Target.l1 b ∈ f.touched → s.powerOf b ≠ .asleep) :
    ButHits (f.az.foldl State.applyAz { s1.applyRegs f.regs with excl := f.monitor <|> (s1.applyRegs f.regs).excl }) (s.applyFx f) := by
  unfold State.applyFx
  rw [h1]
  refine applyMemory_reads hs hm hb fun b hb => ?_
  obtain ⟨d, y, haddr⟩ := update_addressed s f
  have hpower : s1.powerOf b = s.powerOf b := by
    rw [← h1, haddr]
    exact powerOf_congr rfl rfl rfl rfl b
  rw [applyRegs_powerOf, hpower]
  exact ht b hb

/-! ### Stores -/

/-- The run of bytes of a store. -/
def Stored.run (x : Stored) : Nat × Nat := (x.elem.phys, x.elem.width.bytes)

theorem Memory.writeLE_keeps (m : Memory) (p v n : Nat) : m.writeLE p v n = { m with cells := (m.writeLE p v n).cells } := by
  induction n generalizing m p v with
  | zero => rfl
  | succ n ih =>
    rw [Memory.writeLE, ih]
    rfl

/-- A store to plain memory: its bytes, the note of its run, the monitor, the lines of the caches. -/
theorem applyStore_eq {s t : State} (h : Follows s t) {x : Stored} (hx : PlainStore s x) :
    ∃ cells c, t.applyStore x = { t with
      mem := { t.mem.note x.run.1 x.run.2 with cells := cells }, cache := c, excl := dropMonitor t.excl x.run.1 x.run.2 } := by
  have hzeros : t.zerosOut (t.useLines x.uses t.cache) x.uses t.mem = t.mem :=
    zerosOut_clean t.mem (fun u hu => (hx.uses u hu).data) fun u hu =>
      useLines_clean (fun v hv => (hx.uses v hv).zero) (h.clean _ (hx.uses u hu).clean)
  refine ⟨(t.mem.writeLE x.elem.phys x.value x.elem.width.bytes).cells,
    t.noteBytes x.uses x.elem.phys x.elem.width.bytes (t.useLines x.uses t.cache), ?_⟩
  unfold State.applyStore
  simp only [hx.memory, h.blockWrites, hx.writes, hzeros, Bool.false_eq_true, ↓reduceIte]
  rw [Memory.writeLE_keeps]
  rfl

theorem notes_cells (runs : List (Nat × Nat)) (m : Memory) (cells : List Host.Cell) :
    runs.foldl (fun m r => m.note r.1 r.2) { m with cells := cells } =
      { runs.foldl (fun m r => m.note r.1 r.2) m with cells := cells } := by
  induction runs generalizing m with
  | nil => rfl
  | cons r runs ih => exact ih (m.note r.1 r.2)

/-- Stores to plain memory: their bytes, the notes of their runs, the monitor, the lines of the caches. -/
theorem applyStores_eq {s t : State} (h : Follows s t) {l : List Stored} (hl : ∀ x ∈ l, PlainStore s x) :
    ∃ cells c, l.foldl State.applyStore t = { t with
      mem := { (l.map Stored.run).foldl (fun m r => m.note r.1 r.2) t.mem with cells := cells }, cache := c
      excl := (l.map Stored.run).foldl (fun g r => dropMonitor g r.1 r.2) t.excl } := by
  induction l generalizing t with
  | nil => exact ⟨_, _, rfl⟩
  | cons x l ih =>
    have hx := hl x (by simp)
    obtain ⟨cells, c, hone⟩ := applyStore_eq h hx
    obtain ⟨cells', c', hrest⟩ := ih (applyStore_follows h hx).1 fun y hy => hl y (by simp [hy])
    refine ⟨cells', c', ?_⟩
    rw [List.foldl_cons, hrest, hone, List.map_cons, List.foldl_cons, List.foldl_cons, notes_cells]

theorem touched_stores {s t : State} {f : Fx} (hs : ∀ x ∈ f.stores, PlainStore s x)
    (ht : ∀ b, Config.Target.l1 b ∈ f.touched → s.powerOf b ≠ .asleep) (h : Follows s t) :
    f.touched.foldl (f.stores.foldl State.applyStore t).touch (f.stores.foldl State.applyStore t).mem =
      (f.stores.foldl State.applyStore t).mem :=
  touch_not_asleep _ fun b hb => by
    rw [(applyStores_follows h hs).1.powerOf]
    exact ht b hb

/-- The stores of a transfer to plain memory, and no more. -/
theorem applyMemory_stores {s : State} {f : Fx} (hs : ∀ x ∈ f.stores, PlainStore s x)
    (ht : ∀ b, Config.Target.l1 b ∈ f.touched → s.powerOf b ≠ .asleep) (hm : f.mmr = none) (ha : f.az = []) (hb : f.bus = [])
    (hn : f.monitor = none) :
    ButStores s (s.applyMemory f) (f.stores.map Stored.run) ∧
    ∀ q, (s.applyMemory f).mem.read q = (storedBytes f.stores q).getD (s.mem.read q) := by
  have htouch := touched_stores hs ht (.refl s)
  obtain ⟨-, hread⟩ := applyStores_follows (.refl s) hs
  obtain ⟨cells, c, heq⟩ := applyStores_eq (.refl s) hs
  have hmem : (s.applyMemory f).mem = (f.stores.foldl State.applyStore s).mem := by
    rw [applyMemory_eq, hm, ha]
    exact htouch
  refine ⟨⟨cells, s.bdry.hits ||| f.hits, { s.useLines f.lines c with near := if f.near then 13 else c.near }, ?_⟩,
    fun q => by rw [hmem, hread]⟩
  rw [applyMemory_eq, hm, ha, List.foldl_nil]
  unfold State.storesMmr State.accessed
  dsimp only
  rw [htouch, hb, hn, heq]
  rfl

/-- A store to plain memory: the address update, the bytes, and no more. -/
theorem applyFx_stores {s s1 : State} {f : Fx} (h1 : (s.applyLatches f).applyUpdate f.update = s1) (hf : PlainFx s f)
    (hr : f.regs = []) (hn : f.monitor = none) :
    ButStores s1 (s.applyFx f) (f.stores.map Stored.run) ∧
    ∀ q, (s.applyFx f).mem.read q = (storedBytes f.stores q).getD (s.mem.read q) := by
  have haddr : Addressed s s1 := h1 ▸ update_addressed s f
  have hf1 := hf.addressed haddr
  have hmem : s1.mem = s.mem := by
    obtain ⟨d, y, rfl⟩ := haddr
    rfl
  unfold State.applyFx
  rw [h1, hr, applyRegs_nil, ← hmem]
  exact applyMemory_stores hf1.stores hf1.touched hf.mmr hf.az hf.bus hn

/-- One run of bytes in memory (R257). -/
theorem storedBytes_of_read {s t : State} {p n b : Nat} {v : BitVec b}
    (h : ∀ q, t.mem.read q = (bytesAt v p n q).getD (s.mem.read q)) : StoredBytes s t p n v := by
  refine ⟨fun k hk => ?_, fun q hq => ?_⟩
  · rw [h, bytesAt, if_pos (by omega), Nat.add_sub_cancel_left]
    rfl
  · rw [h, bytesAt, if_neg (by omega)]
    rfl

end Sys2Proof.Machine
end

section
/-! PROOFS. A load or a store as effects: which move each form is, where its address leads, what its transfers are
(spec/20_memory.md R263 to R276, R290 to R311). -/

namespace Sys2Proof.Machine

open Sys2Proof

/-! ### The forms as moves -/

/-- `m` is the access by `a` of mover `x` with size `z`, a load or a store, not an exclusive one. -/
structure IsAccess (m : Move) (a : Addr) (x : Mover) (z : Size) (store : Bool) : Prop where
  addr : m.addr = a
  what : m.what = x
  size : m.size = z
  ex : m.ex = false
  store : m.store = store

/-- Instruction `i` makes the move `m` under these conditions. -/
def Makes (i : Instr) (s : State) (m : Move) (cx cy : Bool) : Prop :=
  ∀ fx, s.moveFx m cx cy = .ok fx → exec i s = .next (s.applyFx fx)

theorem makes_alone {i : Instr} {s : State} {m : Move} {cx cy : Bool} (h : exec i s = (s.moveOnly m cx cy).outcome) :
    Makes i s m cx cy := by
  intro fx hfx
  rw [h, State.moveOnly, hfx]
  rfl

theorem makes_beside {i : Instr} {s : State} {m : Move} {cx cy : Bool} (h : exec i s = (s.computeMove .none m cx cy).outcome) :
    Makes i s m cx cy := by
  intro fx hfx
  rw [h, State.computeMove, hfx]
  exact congrArg Res.outcome (computeFx_none s fx cx cy)

/-- The form is one access. -/
def MoveForm.accesses (f : MoveForm) (s : State) (store : Bool) : Prop :=
  ∃ m, IsAccess m f.addr (.reg f.reg) f.size store ∧ Makes f.instr s m f.cx f.cy

/-- Every form without a size is one access. -/
theorem normal_accesses {q : MoveArgs} {s : State} {store : Bool} {f : MoveForm} (hf : f ∈ q.normal s store) :
    f.size = .none ∧ f.accesses s store := by
  let byReg : Move := { pm := q.pm, addr := s.regAddr q.pm q.post q.i q.m, store := store, what := .reg q.u, gate := q.cond }
  let by6 : Move := { pm := q.pm, addr := immAddr q.pm q.post q.i (q.d6.signExtend 32), store := store, what := .reg (.r q.n), gate := q.cond }
  let direct : Move := { pm := q.pm, addr := .direct q.addr, store := store, what := .reg q.u }
  let offset : Move := { pm := q.pm, addr := immAddr q.pm false q.i q.data, store := store, what := .reg q.u }
  simp only [MoveArgs.normal, List.mem_cons, List.not_mem_nil, or_false] at hf
  rcases hf with rfl | rfl | rfl | rfl | rfl | rfl | rfl | rfl | rfl
  · exact ⟨rfl, byReg, ⟨rfl, rfl, rfl, rfl, rfl⟩, makes_beside (by cases store <;> rfl)⟩
  · exact ⟨rfl, byReg, ⟨rfl, rfl, rfl, rfl, rfl⟩, makes_alone (by cases store <;> rfl)⟩
  · exact ⟨rfl, byReg, ⟨rfl, rfl, rfl, rfl, rfl⟩, makes_alone rfl⟩
  · exact ⟨rfl, _, ⟨rfl, rfl, rfl, rfl, rfl⟩, makes_alone rfl⟩
  · exact ⟨rfl, by6, ⟨rfl, rfl, rfl, rfl, rfl⟩, makes_beside (by cases store <;> rfl)⟩
  · exact ⟨rfl, by6, ⟨rfl, rfl, rfl, rfl, rfl⟩, makes_alone rfl⟩
  · exact ⟨rfl, direct, ⟨rfl, rfl, rfl, rfl, rfl⟩, makes_alone (by cases store <;> rfl)⟩
  · exact ⟨rfl, offset, ⟨rfl, rfl, rfl, rfl, rfl⟩, makes_alone (by cases store <;> rfl)⟩
  · exact ⟨rfl, _, ⟨rfl, rfl, rfl, rfl, rfl⟩, makes_alone rfl⟩

/-- Every form with a size is one access. -/
theorem sized_accesses {q : MoveArgs} {s : State} {store : Bool} {z : Size} {f : MoveForm} (hf : f ∈ q.sized s store z) :
    f.size = z ∧ f.accesses s store := by
  let byReg : Move := {
    pm := q.pm, addr := s.regAddr q.pm q.post q.i q.m, store := store, what := .reg q.u, size := z, gate := q.cond }
  let by6 : Move := {
    pm := q.pm, addr := immAddr q.pm q.post q.i (q.d6.signExtend 32), store := store, what := .reg (.r q.n), size := z, gate := q.cond }
  simp only [MoveArgs.sized, List.mem_cons, List.not_mem_nil, or_false] at hf
  rcases hf with rfl | rfl | rfl | rfl | rfl
  · exact ⟨rfl, byReg, ⟨rfl, rfl, rfl, rfl, rfl⟩, makes_alone (by cases store <;> rfl)⟩
  · exact ⟨rfl, byReg, ⟨rfl, rfl, rfl, rfl, rfl⟩, makes_alone rfl⟩
  · exact ⟨rfl, by6, ⟨rfl, rfl, rfl, rfl, rfl⟩, makes_alone (by cases store <;> rfl)⟩
  · exact ⟨rfl, by6, ⟨rfl, rfl, rfl, rfl, rfl⟩, makes_alone rfl⟩
  · exact ⟨rfl, _, ⟨rfl, rfl, rfl, rfl, rfl⟩, makes_alone rfl⟩

/-- Every form with (lw) is one access. -/
theorem long_accesses {q : MoveArgs} {s : State} {store : Bool} {f : MoveForm} (hf : f ∈ q.long s store) :
    f.size = .lw ∧ f.accesses s store := by
  let byReg : Move := {
    pm := q.pm, addr := s.regAddr q.pm q.post q.i q.m, store := store, what := .reg q.u, size := .lw, gate := q.cond }
  let direct : Move := { pm := q.pm, addr := .direct q.addr, store := store, what := .reg q.u, size := .lw }
  let offset : Move := { pm := q.pm, addr := immAddr q.pm false q.i q.data, store := store, what := .reg q.u, size := .lw }
  simp only [MoveArgs.long, List.mem_cons, List.not_mem_nil, or_false] at hf
  rcases hf with rfl | rfl | rfl | rfl | rfl | rfl
  · exact ⟨rfl, byReg, ⟨rfl, rfl, rfl, rfl, rfl⟩, makes_beside (by cases store <;> rfl)⟩
  · exact ⟨rfl, byReg, ⟨rfl, rfl, rfl, rfl, rfl⟩, makes_alone (by cases store <;> rfl)⟩
  · exact ⟨rfl, byReg, ⟨rfl, rfl, rfl, rfl, rfl⟩, makes_alone rfl⟩
  · exact ⟨rfl, direct, ⟨rfl, rfl, rfl, rfl, rfl⟩, makes_alone (by cases store <;> rfl)⟩
  · exact ⟨rfl, offset, ⟨rfl, rfl, rfl, rfl, rfl⟩, makes_alone (by cases store <;> rfl)⟩
  · exact ⟨rfl, _, ⟨rfl, rfl, rfl, rfl, rfl⟩, makes_alone rfl⟩

/-- The stores of a constant are one access each (R626, R627). -/
theorem constant_accesses {q : MoveArgs} {s : State} {d16 : Parcel} {x : Instr × Word}
    (hx : x ∈ [(Instr.storeImm q.pm q.i q.m q.data, q.data), (.storeImm16 q.pm q.i q.m d16, d16.signExtend 32)]) :
    ∃ m, IsAccess m (s.regAddr q.pm true q.i q.m) (.imm x.2) .none true ∧ Makes x.1 s m true true := by
  simp only [List.mem_cons, List.not_mem_nil, or_false] at hx
  rcases hx with rfl | rfl
  · exact ⟨_, ⟨rfl, rfl, rfl, rfl, rfl⟩, makes_alone rfl⟩
  · exact ⟨_, ⟨rfl, rfl, rfl, rfl, rfl⟩, makes_alone rfl⟩

/-! ### The address -/

/-- The addresses that the modifier of an access of size `z` counts in (R276). -/
def stepSize (z : Size) (sp : Config.Space) : Nat := if sp = .bw then 2 ^ sizeScale z else 1

/-- The size that an access has in a space: none if its own is illegal there (R266). -/
def sizeIn (z : Size) (sp : Config.Space) : Size := if sizeLegal z (some sp) then z else .none

theorem ofInt_scaled (x md : Word) (k : Nat) :
    BitVec.ofInt 32 ((x.toNat : Int) + md.toInt * 2 ^ k) = x + md * BitVec.ofNat 32 (2 ^ k) := by
  rw [BitVec.ofInt_add, BitVec.ofInt_mul]
  congr 1
  · simp
  · congr 1
    simp

/-- A modifier that counts in items of the space (R276). -/
theorem scaled_sum {s : State} {k : RegNo} {sp : Config.Space} {z : Size} (md : Word)
    (hr : stepSize z sp = 1 ∨ s.reversed k = false) (hsp : spaceOf (s.present k (s.ireg k)) = some sp) :
    BitVec.ofInt 32 ((s.ireg k).toNat + s.scaledMod k md (s.scaleFor k (sizeScale z))) =
      s.ireg k + md * BitVec.ofNat 32 (stepSize z sp) := by
  have hscale : s.scaleFor k (sizeScale z) = if sp = .bw then sizeScale z else 0 := by
    simp [State.scaleFor, hsp]
  have hstep : stepSize z sp = 2 ^ (if sp = .bw then sizeScale z else 0) := by
    unfold stepSize
    split <;> rfl
  have hzero : s.reversed k = true → (if sp = .bw then sizeScale z else 0) = 0 := by
    intro h
    rw [hstep] at hr
    rcases hr with hr | hr
    · exact Nat.pow_right_injective (le_refl 2) (hr.trans (pow_zero 2).symm)
    · exact absurd h (by simp [hr])
  rw [hscale, hstep, ← ofInt_scaled]
  congr 2
  unfold State.scaledMod
  rw [if_neg]
  intro h
  obtain ⟨h1, h2⟩ := (Bool.and_eq_true _ _).mp h
  rw [hzero h1] at h2
  exact absurd h2 (by decide)

theorem present_plain {s : State} {k : RegNo} (h : s.reversed k = false) (v : Word) : s.present k v = v := by
  simp [State.present, h]

/-- An illegal size is none of byte space, where modifiers are scaled. -/
theorem legal_byte (z : Size) : sizeLegal z (some .bw) = true := by cases z <;> rfl

theorem step_illegal {z : Size} {sp : Config.Space} (h : sizeLegal z (some sp) = false) : stepSize z sp = 1 := by
  unfold stepSize
  rw [if_neg]
  rintro rfl
  exact absurd (legal_byte z) (by simp [h])

/-- An address that leads to a space resolves to it, with the index update, unless the size is illegal there (R265, R266, R272, R273). -/
theorem resolve_access {s s0 : State} {m : Move} {sp : Config.Space} {ea : Word}
    (hl : Lands s m.addr sp (stepSize m.size sp) ea s0) (hsp : spaceOf ea = some sp) :
    ∃ upd, s.resolve m = .ok ⟨ea, sizeIn m.size sp, !sizeLegal m.size (some sp), upd⟩ ∧ unwrapped upd ∧ s0 = s.applyUpdate upd := by
  unfold State.resolve
  cases ha : m.addr with
  | direct x =>
    rw [ha] at hl
    obtain ⟨rfl, rfl⟩ := hl
    exact ⟨none, by simp only [hsp, sizeIn], fun _ h => absurd h (by simp), rfl⟩
  | post k md =>
    rw [ha] at hl
    obtain ⟨rfl, hr, hc, rfl⟩ := hl
    have hsum : BitVec.ofInt 32 ((s.ireg k).toNat +
        s.scaledMod k md (if sizeLegal m.size (some sp) = true then s.scaleFor k (sizeScale m.size) else 0)) =
          s.ireg k + md * BitVec.ofNat 32 (stepSize m.size sp) := by
      cases hlegal : sizeLegal m.size (some sp) with
      | true => exact scaled_sum md hr hsp
      | false =>
        have hzero : s.scaledMod k md 0 = md.toInt := by simp [State.scaledMod]
        rw [if_neg (by simp), hzero, ofInt_add, step_illegal hlegal]
        simp
    refine ⟨some ⟨k, s.ireg k + md * BitVec.ofNat 32 (stepSize m.size sp), false⟩, ?_, fun w h => by rw [← Option.some.inj h], ?_⟩
    · simp only [hsp, State.modified, hc, Bool.false_eq_true, ↓reduceIte, hsum, sizeIn]
    · exact (applyIndex_unwrapped (w := ⟨k, _, false⟩) rfl s).symm
  | pre k md =>
    rw [ha] at hl
    obtain ⟨rfl, hr, hbase, hs⟩ := hl
    have hsum := scaled_sum (z := m.size) md (.inr hr) (by rw [present_plain hr]; exact hbase)
    have hplain : sizeLegal m.size (some sp) = false → s.ireg k + md = s.ireg k + md * BitVec.ofNat 32 (stepSize m.size sp) := by
      intro h
      rw [step_illegal h]
      simp
    refine ⟨none, ?_, fun _ h => absurd h (by simp), hs⟩
    simp only [present_plain hr, hsum, hsp, hbase, sizeIn]
    cases hlegal : sizeLegal m.size (some sp) with
    | true => simp [hsp]
    | false => simp only [hplain hlegal, hsp, Bool.false_eq_true, ↓reduceIte, Bool.not_false]

/-! ### One access to plain memory -/

/-- The effects of `f` but for its address update and its latches are those of `g`. -/
structure SameTransfer (f g : Fx) : Prop where
  regs : f.regs = g.regs
  stores : f.stores = g.stores
  mmr : f.mmr = g.mmr
  touched : f.touched = g.touched
  az : f.az = g.az
  monitor : f.monitor = g.monitor
  bus : f.bus = g.bus
  lines : f.lines = g.lines
  near : f.near = g.near

theorem SameTransfer.plain {s : State} {f g : Fx} (h : SameTransfer f g) (hg : PlainFx s g) : PlainFx s f where
  stores := h.stores ▸ hg.stores
  touched := h.touched ▸ hg.touched
  lines := h.lines ▸ hg.lines
  mmr := h.mmr.trans hg.mmr
  az := h.az.trans hg.az
  bus := h.bus.trans hg.bus

/-- A transfer under a gate. -/
def Fx.when (go : Bool) (f : Fx) : Fx := if go then f else {}

theorem gated_when {s : State} {m : Move} {ea : Word} {go : Bool} {e : Element} {x : Element → Fx} (he : m.ex = false) :
    s.gated m ea go (.ok e) x = .ok ((x e).when go) := by
  cases go
  · rfl
  · exact gated_ok he

/-- The move makes the transfer `f0`; its address update and its latches leave `s1`. -/
def Delivers (s : State) (m : Move) (cx cy : Bool) (f0 : Fx) (s1 : State) : Prop :=
  ∃ f, s.moveFx m cx cy = .ok f ∧ SameTransfer f f0 ∧ (s.applyLatches f).applyUpdate f.update = s1

/-- A move to memory with its latches and its update. -/
theorem moveFx_delivers {s s0 : State} {m : Move} {a : Addr} {z : Size} {cx cy : Bool} {sp : Config.Space} {ea : Word} {l : Loc} {f0 : Fx}
    (ha : m.addr = a) (hz : m.size = z) (hg : (cx || cy) = true) (hl : Lands s a sp (stepSize z sp) ea s0)
    (hloc : locate ea.toNat = some l) (hsp : l.region.space = sp)
    (hf : ∀ il upd, s.memoryFx m ⟨ea, sizeIn z sp, il, upd⟩ l cx cy = .ok f0) (hi : f0.iira = false) :
    Delivers s m cx cy f0 (s0.settled (sizeLegal z (some sp)) f0.u64ma) := by
  subst ha hz
  obtain ⟨upd, hres, hun, rfl⟩ := resolve_access hl (by rw [spaceOf_locate hloc, hsp])
  have hmove : s.moveFx m cx cy = .ok { f0 with
      update := upd, iladi := !sizeLegal m.size (some sp), hits := if f0.performed then s.dataHits m.pm m.store ea else 0#3 } := by
    unfold State.moveFx
    simp only [hg, hres, (locate_some hloc).1, hloc, hf, Bool.not_true, Bool.false_eq_true, ↓reduceIte]
  refine ⟨_, hmove, ⟨rfl, rfl, rfl, rfl, rfl, rfl, rfl, rfl, rfl⟩, Eq.trans (latches_settled ?_ ?_ s) ?_⟩
  · exact hun
  · exact hi
  · simp only [Bool.not_not]

section
variable {s : State} {m : Move} {a : Addr} {x : Mover} {z : Size} {store : Bool} {q : Resolved} {sp : Config.Space} {w : Width}
  {imdw : Bool} {row : Row} {l : Loc} {p : Nat} {cx cy : Bool}

theorem memWidth_access (hm : IsAccess m a x z store) (ht : isSystem l.region.target = false) :
    s.memWidth m q l = x.width q.size l.region.space (s.imdw l.region) := by
  rw [State.memWidth, Move.at_memory m ht, Move.sizeAt_memory m _ ht, hm.what]

/-- The explicit transfer of an access to plain memory, under its gate. -/
theorem explicitFx_access (hm : IsAccess m a x z store) (hw : s.memWidth m q l = w) (hr : s.memRow m q l = row)
    (hloc : Located s q.ea sp w imdw (row == .pair) l p) :
    s.explicitFx m q l cx cy = .ok ((s.rowFx m row (s.signed sp q.size) ⟨l.region, p, w⟩).when (explicitGate row store cx cy)) ∧
    s.memPad m q l = misalign sp w (row == .pair) l.off := by
  have hpad : s.memPad m q l = misalign sp w (row == .pair) l.off := by
    rw [State.memPad, hw, hr, hm.ex, hloc.space, mod_boundary]
  refine ⟨?_, hpad⟩
  rw [State.explicitFx, hpad, hw, hr, hm.store, element_located hloc, gated_when hm.ex, Move.at_memory m hloc.plain.memory, hloc.space]

/-- An access of one element makes the transfer of its row under its gate. -/
theorem access_gated (hm : IsAccess m a x z store) (hg : (cx || cy) = true) {ea : Word} {s0 : State}
    (hl : Lands s a sp (stepSize z sp) ea s0) (hloc : Located s ea sp w imdw false l p) (hw : x.width (sizeIn z sp) sp imdw = w)
    (hr : s.row m w imdw = row) (hrow : row ≠ .pair) :
    Delivers s m cx cy ((s.rowFx m row (s.signed sp (sizeIn z sp)) ⟨l.region, p, w⟩).when (explicitGate row store cx cy))
      (s0.settled (sizeLegal z (some sp)) (decide (misalign sp w false l.off ≠ 0))) := by
  have ht := hloc.plain.memory
  have hfalse : (row == Row.pair) = false := by simpa using hrow
  have hfx : ∀ il upd, s.memoryFx m ⟨ea, sizeIn z sp, il, upd⟩ l cx cy = .ok
      { (s.rowFx m row (s.signed sp (sizeIn z sp)) ⟨l.region, p, w⟩).when (explicitGate row store cx cy) with
        u64ma := misalign sp w false l.off != 0, iira := false } := by
    intro il upd
    have hwidth : s.memWidth m ⟨ea, sizeIn z sp, il, upd⟩ l = w := by rw [memWidth_access hm ht, hloc.space, hloc.wide, hw]
    have hmrow : s.memRow m ⟨ea, sizeIn z sp, il, upd⟩ l = row := by rw [State.memRow, hwidth, hloc.wide, hr]
    obtain ⟨hx, hpad⟩ := explicitFx_access (q := ⟨ea, sizeIn z sp, il, upd⟩) hm hwidth hmrow (by rw [hfalse]; exact hloc)
    rw [memoryFx_single ht (by rw [hmrow]; exact hrow) hx, hpad, hfalse]
  obtain ⟨f, hf, hsame, h1⟩ := moveFx_delivers hm.addr hm.size hg hl hloc.located hloc.space hfx rfl
  refine ⟨f, hf, ⟨hsame.regs, hsame.stores, hsame.mmr, hsame.touched, hsame.az, hsame.monitor, hsame.bus, hsame.lines, hsame.near⟩, ?_⟩
  rw [h1]
  cases misalign sp w false l.off <;> rfl

theorem access_single (hm : IsAccess m a x z store) (hg : (cx || cy) = true) {ea : Word} {s0 : State}
    (hl : Lands s a sp (stepSize z sp) ea s0) (hloc : Located s ea sp w imdw false l p) (hw : x.width (sizeIn z sp) sp imdw = w)
    (hr : s.row m w imdw = row) (hrow : row ≠ .pair) (hgo : explicitGate row store cx cy = true) :
    Delivers s m cx cy (s.rowFx m row (s.signed sp (sizeIn z sp)) ⟨l.region, p, w⟩)
      (s0.settled (sizeLegal z (some sp)) (decide (misalign sp w false l.off ≠ 0))) := by
  have h := access_gated hm hg hl hloc hw hr hrow
  rwa [hgo] at h

end

/-! ### Plain transfers -/

/-- A store of one element of plain memory. -/
theorem storeFx_plain {s : State} {m : Move} {e : Element} (he : m.ex = false) (h : PlainBytes s e.region e.phys e.width.bytes)
    (y : Bool) (v : Nat) : PlainFx s (s.storeFx m e y v) ∧
    s.storeFx m e y v = { stores := [⟨e, v, s.elementUses m e⟩], touched := [e.region.target] } :=
  ⟨(storeFx_transfers he h y v).plain, by simp [State.storeFx, he]⟩

/-- A load of one element of plain memory (R257). -/
theorem loadFx_plain {s : State} {m : Move} {e : Element} (he : m.ex = false) (h : PlainBytes s e.region e.phys e.width.bytes)
    (y : Bool) (slot : Nat) (regs : Nat → List (UReg × RegVal)) : PlainFx s (s.loadFx m e y slot regs) ∧
    s.loadFx m e y slot regs =
      { regs := regs (s.mem.readLE e.phys e.width.bytes), touched := [e.region.target], lines := s.elementUses m e } := by
  have heq : s.loadFx m e y slot regs =
      { regs := regs (s.mem.readLE e.phys e.width.bytes), touched := [e.region.target], lines := s.elementUses m e } := by
    simp [State.loadFx, he, h.memory, readElement_plain m slot h rfl rfl]
  rw [heq]
  exact ⟨⟨by simp, plain_awake h.reads, fun x hx => (elementUses_plain h x hx).zero, rfl, rfl, rfl⟩, rfl⟩

theorem PlainFx.both {s : State} {f g : Fx} (hf : PlainFx s f) (hg : PlainFx s g) : PlainFx s (f.both g) where
  stores x hx := (List.mem_append.1 hx).elim (hf.stores x) (hg.stores x)
  touched b hb := (List.mem_append.1 hb).elim (hf.touched b) (hg.touched b)
  lines x hx := (List.mem_append.1 hx).elim (hf.lines x) (hg.lines x)
  mmr := rfl
  az := by simp [Fx.both, hf.az, hg.az]
  bus := by simp [Fx.both, hf.bus, hg.bus]

/-- A delivered access that stores nothing: the registers of the transfer, the exclusive mark and AZ. -/
theorem completes_read {i : Instr} {s s1 : State} {m : Move} {cx cy : Bool} {f0 : Fx} (hi : Makes i s m cx cy)
    (hd : Delivers s m cx cy f0 s1) (hs : f0.stores = []) (hm : f0.mmr = none) (hb : f0.bus = [])
    (ht : ∀ b, Config.Target.l1 b ∈ f0.touched → s.powerOf b ≠ .asleep) : Completes i s fun t =>
      ButHits (f0.az.foldl State.applyAz { s1.applyRegs f0.regs with excl := f0.monitor <|> (s1.applyRegs f0.regs).excl }) t := by
  obtain ⟨f, hf, hsame, h1⟩ := hd
  refine ⟨_, hi f hf, ?_⟩
  rw [← hsame.regs, ← hsame.az, ← hsame.monitor]
  exact applyFx_read h1 (hsame.stores.trans hs) (hsame.mmr.trans hm) (hsame.bus.trans hb) (by rwa [hsame.touched])

/-- A delivered load: the registers of the transfer. -/
theorem completes_load {i : Instr} {s s1 : State} {m : Move} {cx cy : Bool} {f0 : Fx} (hi : Makes i s m cx cy)
    (hd : Delivers s m cx cy f0 s1) (hp : PlainFx s f0) (hs : f0.stores = []) (hn : f0.monitor = none) :
    Completes i s fun t => ButHits (s1.applyRegs f0.regs) t := by
  have h := completes_read hi hd hs hp.mmr hp.bus hp.touched
  rw [hp.az, hn] at h
  exact h

/-- A delivered store: the bytes of the transfer. -/
theorem completes_store {i : Instr} {s s1 : State} {m : Move} {cx cy : Bool} {f0 : Fx} (hi : Makes i s m cx cy)
    (hd : Delivers s m cx cy f0 s1) (hp : PlainFx s f0) (hr : f0.regs = []) (hn : f0.monitor = none) :
    Completes i s fun t => ButStores s1 t (f0.stores.map Stored.run) ∧
      ∀ q, t.mem.read q = (storedBytes f0.stores q).getD (s.mem.read q) := by
  obtain ⟨f, hf, hsame, h1⟩ := hd
  refine ⟨_, hi f hf, ?_⟩
  rw [← hsame.stores]
  exact applyFx_stores h1 (hsame.plain hp) (hsame.regs.trans hr) (hsame.monitor.trans hn)

theorem Completes.imp {i : Instr} {s : State} {P Q : State → Prop} (h : Completes i s P) (hpq : ∀ t, P t → Q t) : Completes i s Q := by
  obtain ⟨t, he, ht⟩ := h
  exact ⟨t, he, hpq t ht⟩

/-- A store of one element: its bytes (R257). -/
theorem completes_one_store {i : Instr} {s s1 : State} {m : Move} {cx cy : Bool} {e : Element} {b : Nat} {v : BitVec b} {uses : List LineUse}
    {ts : List Config.Target} (hi : Makes i s m cx cy)
    (hd : Delivers s m cx cy { stores := [⟨e, v.toNat, uses⟩], touched := ts } s1)
    (hp : PlainFx s { stores := [⟨e, v.toNat, uses⟩], touched := ts }) :
    Completes i s fun t => StoredBytes s t e.phys e.width.bytes v ∧ ButStores s1 t [(e.phys, e.width.bytes)] := by
  refine (completes_store hi hd hp rfl rfl).imp fun t ⟨hb, hread⟩ => ⟨storedBytes_of_read fun q => ?_, hb⟩
  rw [hread, ← numberAt_toNat]
  simp [storedBytes, Stored.bytes]

end Sys2Proof.Machine
end

section
/-! PROOFS. Loads and stores of at most 48 bits (R255, R258, R263 to R268, R276, R303, R313, R338, R505, R515 to R523, R622 to R627). -/

namespace Sys2Proof.Machine

open Sys2Proof

/-! ### Widths and rows -/

/-- A transfer of at most 32 bits. -/
def Width.short (w : Width) : Prop := w = .w8 ∨ w = .w16 ∨ w = .w32

/-- A size that its space has: the width it gives, and the addresses its modifier counts in (R263, R264, R276). -/
theorem width_sized {z : Size} {sp : Config.Space} {w : Width} {n : Nat} (h : accessWidth z sp = some (w, n)) :
    w.short ∧ sizeIn z sp = z ∧ sizeLegal z (some sp) = true ∧ stepSize z sp = n ∧
    ∀ {x : Mover} {imdw : Bool}, x ≠ .reg .px → (imdw = true → w ≠ .w32 ∨ x.isData = false) → x.width z sp imdw = w := by
  have hword : ∀ {x : Mover} {imdw : Bool}, x ≠ .reg .px → (imdw = true → Width.w32 ≠ .w32 ∨ x.isData = false) →
      (if x = .reg .px then Width.w48 else if x.isData && imdw then .w40 else .w32) = .w32 := by
    intro x imdw hx hk
    rw [if_neg hx, if_neg]
    intro h
    obtain ⟨h1, h2⟩ := (Bool.and_eq_true _ _).mp h
    rcases hk h2 with h3 | h3
    · exact h3 rfl
    · exact absurd h1 (by simp [h3])
  cases sp <;> cases z <;> simp only [accessWidth, reduceCtorEq, Option.some.injEq, Prod.mk.injEq] at h <;>
    obtain ⟨rfl, rfl⟩ := h
  case nw.none => exact ⟨.inr (.inr rfl), rfl, rfl, rfl, hword⟩
  case bw.none => exact ⟨.inr (.inr rfl), rfl, rfl, rfl, hword⟩
  case bw.bw => exact ⟨.inl rfl, rfl, rfl, rfl, fun _ _ => rfl⟩
  case bw.bwse => exact ⟨.inl rfl, rfl, rfl, rfl, fun _ _ => rfl⟩
  all_goals exact ⟨.inr (.inl rfl), rfl, rfl, rfl, fun _ _ => rfl⟩

/-- A register keeps the width of the access in a block in 48-bit mode. -/
theorem keepsWidth_data {u : UReg} {w : Width} {imdw : Bool} (h : keepsWidth u w imdw) :
    imdw = true → w ≠ .w32 ∨ (Mover.reg u).isData = false := by
  intro hi
  refine (h hi).imp_right fun hd => ?_
  simp [Mover.isData, hd]

/-- In SISD mode an access of at most 32 bits is the explicit transfer alone. -/
theorem row_sisd {s : State} {m : Move} {w : Width} (hw : w.short) (hb : s.isBroadcast m = false) (hq : s.simd = false) (imdw : Bool) :
    s.row m w imdw = .single := by
  rcases hw with rfl | rfl | rfl <;> simp [State.row, hb, hq]

theorem row_alone {s : State} {m : Move} {w : Width} (hw : w.short) (hb : s.isBroadcast m = false) (hq : s.simd = true)
    (hc : m.what.hasComp = false) (imdw : Bool) : s.row m w imdw = .alone := by
  rcases hw with rfl | rfl | rfl <;> simp [State.row, hb, hq, hc]

/-- A store is no broadcast load. -/
theorem store_notBroadcast (s : State) {m : Move} (h : m.store = true) : s.isBroadcast m = false := by
  simp [State.isBroadcast, h]

/-! ### Values -/

theorem loadVal_byte (s : State) {u : UReg} (h : u ≠ .px) (sgn : Bool) (v slot : Nat) :
    s.loadVal u .w8 sgn v slot = .w32 (extend 8 sgn v) := by
  cases u with
  | px => exact absurd rfl h
  | _ => rfl

theorem loadVal_short (s : State) {u : UReg} (h : u ≠ .px) (sgn : Bool) (v slot : Nat) :
    s.loadVal u .w16 sgn v slot = .w32 (extend 16 sgn v) := by
  cases u with
  | px => exact absurd rfl h
  | _ => rfl

/-- What a load of at most 32 bits brings (R264, R267). -/
theorem loadVal_loaded (s : State) {z : Size} {sp : Config.Space} {w : Width} {n : Nat} (hw : accessWidth z sp = some (w, n)) {u : UReg}
    (hu : u ≠ .px) (p slot : Nat) :
    s.loadVal u w (s.signed sp z) (s.mem.readLE p w.bytes) slot = .w32 (s.loaded z sp p) := by
  have hbyte : BitVec.ofNat 8 (s.mem.readLE p 1) = s.mem.read p := by simp [Memory.readLE]
  cases sp <;> cases z <;> simp only [accessWidth, reduceCtorEq, Option.some.injEq, Prod.mk.injEq] at hw <;>
    obtain ⟨rfl, rfl⟩ := hw
  case nw.none => exact loadVal_word s hu _ _ slot
  case bw.none => exact loadVal_word s hu _ _ slot
  case bw.bw => exact (loadVal_byte s hu _ _ slot).trans (congrArg (fun b : Byte => RegVal.w32 (b.setWidth 32)) hbyte)
  case bw.bwse => exact (loadVal_byte s hu _ _ slot).trans (congrArg (fun b : Byte => RegVal.w32 (b.signExtend 32)) hbyte)
  all_goals exact loadVal_short s hu _ _ slot

/-- What a store of at most 32 bits takes. -/
def State.given (s : State) : Mover → Word
  | .reg u => s.readU u
  | .imm v => v

theorem storeVal_given (s : State) {x : Mover} {w : Width} (hw : w.short) (hx : x ≠ .reg .px) (slot : Nat) :
    s.storeVal x w slot = (s.given x).toNat := by
  cases x with
  | imm v => rcases hw with rfl | rfl | rfl <;> rfl
  | reg u =>
    cases u with
    | px => exact absurd rfl hx
    | _ => rcases hw with rfl | rfl | rfl <;> rfl

/-! ### Accesses of one element -/

/-- A row that makes the explicit transfer of one register. -/
def Row.plain (r : Row) : Prop := r = .single ∨ r = .alone

section
variable {s s0 : State} {i : Instr} {m : Move} {a : Addr} {x : Mover} {u : UReg} {z : Size} {sp : Config.Space} {w : Width} {imdw : Bool}
  {row : Row} {l : Loc} {p : Nat} {cx cy : Bool} {ea : Word}

theorem rowFx_plain (h : row.plain) (hm : m.what = x) (sgn : Bool) (e : Element) :
    s.rowFx m row sgn e = s.transfer m x e sgn false m.slot := by
  rcases h with rfl | rfl <;> rw [State.rowFx, hm]

theorem Row.plain.ne_pair (h : row.plain) : row ≠ .pair := by
  rcases h with rfl | rfl <;> simp

/-- A load of one element: the value it brings, written to the register. -/
theorem completes_one_load (hm : IsAccess m a (.reg u) z false) (hi : Makes i s m cx cy) (hg : (cx || cy) = true)
    (hl : Lands s a sp (stepSize z sp) ea s0) (hloc : Located s ea sp w imdw false l p)
    (hw : (Mover.reg u).width (sizeIn z sp) sp imdw = w) (hr : s.row m w imdw = row) (hrow : row.plain)
    (hgo : explicitGate row false cx cy = true) :
    Completes i s fun t => ButHits ((s0.settled (sizeLegal z (some sp)) (decide (misalign sp w false l.off ≠ 0))).writeVal u
      (s.loadVal u w (s.signed sp (sizeIn z sp)) (s.mem.readLE p w.bytes) m.slot)) t := by
  have hd := access_single hm hg hl hloc hw hr hrow.ne_pair hgo
  rw [rowFx_plain hrow hm.what, transfer_load hm.store] at hd
  obtain ⟨hplain, heq⟩ := loadFx_plain (e := ⟨l.region, p, w⟩) hm.ex hloc.plain false m.slot
    (fun v => [(u, s.loadVal u w (s.signed sp (sizeIn z sp)) v m.slot)])
  have h := completes_load hi hd hplain (by rw [heq]) (by rw [heq])
  rw [heq] at h
  exact h

/-- A store of one element: the value it takes, in memory. -/
theorem completes_one_given (hm : IsAccess m a x z true) (hi : Makes i s m cx cy) (hg : (cx || cy) = true)
    (hl : Lands s a sp (stepSize z sp) ea s0) (hloc : Located s ea sp w imdw false l p)
    (hw : x.width (sizeIn z sp) sp imdw = w) (hr : s.row m w imdw = row) (hrow : row.plain)
    (hgo : explicitGate row true cx cy = true) {b : Nat} {v : BitVec b} (hv : s.storeVal x w m.slot = v.toNat) :
    Completes i s fun t => StoredBytes s t p w.bytes v ∧
      ButStores (s0.settled (sizeLegal z (some sp)) (decide (misalign sp w false l.off ≠ 0))) t [(p, w.bytes)] := by
  have hd := access_single hm hg hl hloc hw hr hrow.ne_pair hgo
  rw [rowFx_plain hrow hm.what, transfer_store hm.store, hv] at hd
  obtain ⟨hplain, heq⟩ := storeFx_plain (e := ⟨l.region, p, w⟩) hm.ex hloc.plain false v.toNat
  rw [heq] at hd hplain
  exact completes_one_store hi hd hplain

end

/-! ### Words, short words and bytes in SISD mode -/

theorem settled_legal (s : State) (forced : Bool) : s.settled true forced = s.aligned forced := rfl

theorem settled_illegal (s : State) (forced : Bool) : s.settled false forced = (s.aligned forced).illegalSpace := rfl

theorem loads_sized {s : State} {f : MoveForm} (hf : f.accesses s false) : LoadsSized s f := by
  intro sp w imdw n p s1 hw hk hr hcx hq hb hpx
  obtain ⟨m, hm, hi⟩ := hf
  obtain ⟨hshort, hsize, hlegal, rfl, hwidth⟩ := width_sized hw
  obtain ⟨ea, s0, l, hl, hloc, rfl⟩ := hr
  have h := completes_one_load hm hi (by simp [hcx]) hl hloc (by rw [hsize]; exact hwidth (by simpa using hpx) (keepsWidth_data hk))
    (row_sisd hshort (notBroadcast hb m) hq imdw) (.inl rfl) hcx
  rw [hsize, hlegal, settled_legal, loadVal_loaded s hw hpx, writeVal_w32] at h
  exact h

/-- A store of at most 32 bits by its explicit transfer alone. -/
theorem stores_short {s : State} {i : Instr} {m : Move} {a : Addr} {x : Mover} {z : Size} {sp : Config.Space} {w : Width} {n p : Nat}
    {imdw cx cy : Bool} {s1 : State} (hm : IsAccess m a x z true) (hi : Makes i s m cx cy) (hw : accessWidth z sp = some (w, n))
    (hx : x ≠ .reg .px) (hk : imdw = true → w ≠ .w32 ∨ x.isData = false) (hr : Reaches s a sp w imdw n p s1) (hcx : cx = true)
    (hrow : (s.row m w imdw).plain) :
    Completes i s fun t => StoredBytes s t p w.bytes (s.given x) ∧ ButStores s1 t [(p, w.bytes)] := by
  obtain ⟨hshort, hsize, hlegal, rfl, hwidth⟩ := width_sized hw
  obtain ⟨ea, s0, l, hl, hloc, rfl⟩ := hr
  have hgo : explicitGate (s.row m w imdw) true cx cy = true := by
    rcases hrow with h | h <;> simp [h, explicitGate, hcx]
  have h := completes_one_given hm hi (by simp [hcx]) hl hloc (by rw [hsize]; exact hwidth hx hk) rfl hrow hgo
    (storeVal_given s hshort hx m.slot)
  rw [hlegal, settled_legal] at h
  exact h

theorem stores_sized {s : State} {f : MoveForm} (hf : f.accesses s true) : StoresSized s f := by
  intro sp w imdw n p s1 hw hk hr hcx hq hpx
  obtain ⟨m, hm, hi⟩ := hf
  obtain ⟨hshort, -⟩ := width_sized hw
  exact stores_short hm hi hw (by simpa using hpx) (keepsWidth_data hk) hr hcx
    (.inl (row_sisd hshort (store_notBroadcast s hm.store) hq imdw))

/-! ### The ordinary word (R505) -/

/-- An ordinary word is reached by an aligned 32-bit access. -/
theorem OrdinaryWord.reached {s s1 : State} {a : Addr} {ea : Word} {p : Nat} (hl : Lands s a .nw 1 ea s1) (hp : OrdinaryWord s ea p) :
    Reaches s a .nw .w32 false 1 p s1 := by
  obtain ⟨l, hloc, hsp, hphys, hi, hplain⟩ := hp.located
  obtain ⟨-, -, -, hoff⟩ := locate_some hloc
  refine ⟨ea, s1, l, hl, ⟨hloc, hsp, hi, ?_, ?_, hplain⟩, rfl⟩
  · simp [hphys, physOf, placeIn, nwPlace, hsp, byteOffset, misalign]
  · simp only [hphys, physOf, placeIn, nwPlace, hsp, Width.bytes, Config.Region.bytes, Config.Space.unit]
    omega

/-- The registers of a load are read from the state that it leaves. -/
theorem ButHits.reads {u t : State} (h : ButHits u t) :
    (∀ y n, t.dreg y n = u.dreg y n) ∧ (∀ n, t.ireg n = u.ireg n) ∧ ∀ n, t.mreg n = u.mreg n := by
  obtain ⟨b, c, rfl⟩ := h
  exact ⟨fun _ _ => rfl, fun _ => rfl, fun _ => rfl⟩

/-- Settles O24. -/
theorem wordLoads : Obligations.WordLoads := by
  intro s q f hf p ea s1 hl hp hcx hq hb hpx
  obtain ⟨hsize, hacc⟩ := normal_accesses hf
  have h := loads_sized hacc .nw .w32 false 1 p s1 (by rw [hsize]; rfl) (by simp) (hp.reached hl) hcx hq hb hpx
  refine h.imp fun t ht => ⟨ht, ?_⟩
  obtain ⟨hd, hi, hm⟩ := ht.reads
  refine ⟨fun n e => ?_, fun n e => ?_, fun n e => ?_, fun n e => ?_⟩
  all_goals rw [e] at hd hi hm
  · exact (hd false n).trans (State.dreg_setDreg_self ..)
  · exact (hd true n).trans (State.dreg_setDreg_self ..)
  · exact (hi n).trans (by simp [State.writeU, ireg_setI, State.loaded])
  · exact (hm n).trans (by simp [State.writeU, mreg_setM, State.loaded])

/-- A constant as a store of at most 32 bits by its explicit transfer alone. -/
theorem constant_stores {s : State} {i : Instr} {m : Move} {a : Addr} {v : Word} {sp : Config.Space} {w : Width} {n p : Nat}
    {imdw : Bool} {s1 : State} (hm : IsAccess m a (.imm v) .none true) (hi : Makes i s m true true)
    (hw : accessWidth .none sp = some (w, n)) (hk : w = .w32 → imdw = false) (hr : Reaches s a sp w imdw n p s1)
    (hq : s.simd = false) : Completes i s fun t => StoredBytes s t p w.bytes v ∧ ButStores s1 t [(p, w.bytes)] := by
  obtain ⟨hshort, -⟩ := width_sized hw
  refine stores_short hm hi hw (by simp) (fun himdw => .inl fun e => ?_) hr rfl
    (.inl (row_sisd hshort (store_notBroadcast s hm.store) hq imdw))
  exact absurd himdw (by simp [hk e])

/-- Settles O25. -/
theorem wordStores : Obligations.WordStores := by
  intro s q d16
  have hconst : ∀ x ∈ [(Instr.storeImm q.pm q.i q.m q.data, q.data), (.storeImm16 q.pm q.i q.m d16, d16.signExtend 32)],
      StoresWord x.1 s (s.regAddr q.pm true q.i q.m) x.2 := by
    intro x hx p ea s1 hl hp hq
    obtain ⟨m, hm, hi⟩ := constant_accesses hx
    exact constant_stores hm hi (sp := .nw) rfl (fun _ => rfl) (hp.reached hl) hq
  refine ⟨fun f hf hcx hpx p ea s1 hl hp hq => ?_, hconst (.storeImm q.pm q.i q.m q.data, q.data) (by simp),
    hconst (.storeImm16 q.pm q.i q.m d16, d16.signExtend 32) (by simp)⟩
  obtain ⟨hsize, hacc⟩ := normal_accesses hf
  exact stores_sized hacc .nw .w32 false 1 p s1 (by rw [hsize]; rfl) (by simp) (hp.reached hl) hcx hq hpx

/-! ### 40 and 48 bits -/

theorem row_forty (s : State) (m : Move) (imdw : Bool) : s.row m .w40 imdw = .single := rfl

/-- PX moves with one transfer (R290, R303). -/
theorem row_px {s : State} {m : Move} (hm : m.what = .reg .px) (imdw : Bool) :
    s.row m .w48 imdw = if s.simd then .alone else .single := by
  have hb : s.isBroadcast m = false := by
    unfold State.isBroadcast
    rw [hm]
    simp [Mover.isData, dregOf]
  cases hq : s.simd <;> simp [State.row, hb, hq, hm, Mover.hasComp, compOf]

/-- The spaces of 40- and 48-bit words, and the addresses such a word takes (R258, R276). -/
theorem step_words {sp : Config.Space} {n : Nat} (h : (sp, n) ∈ [(Config.Space.nw, 1), (.bw, 4)]) :
    stepSize .none sp = n ∧ (sp = .nw ∨ sp = .bw) := by
  simp only [List.mem_cons, List.not_mem_nil, or_false, Prod.mk.injEq] at h
  rcases h with ⟨rfl, rfl⟩ | ⟨rfl, rfl⟩
  · exact ⟨rfl, .inl rfl⟩
  · exact ⟨rfl, .inr rfl⟩

theorem width_forty {sp : Config.Space} (h : sp = .nw ∨ sp = .bw) {x : Mover} (hx : x ≠ .reg .px) (hd : x.isData = true) :
    x.width .none sp true = .w40 := by
  rcases h with rfl | rfl <;> simp [Mover.width, hx, hd]

theorem width_px {sp : Config.Space} (h : sp = .nw ∨ sp = .bw) (imdw : Bool) : (Mover.reg .px).width .none sp imdw = .w48 := by
  rcases h with rfl | rfl <;> rfl

theorem sizeIn_none (sp : Config.Space) : sizeIn .none sp = .none := ite_self _

theorem dregOf_eq {u : UReg} {y : Bool} {k : RegNo} (h : dregOf u = some (y, k)) : u = peReg y k := by
  cases u <;> simp only [dregOf, Option.some.injEq, Prod.mk.injEq, reduceCtorEq] at h
  all_goals
    obtain ⟨rfl, rfl⟩ := h
    rfl

theorem peReg_ne_px (y : Bool) (k : RegNo) : peReg y k ≠ .px := by cases y <;> exact UReg.noConfusion

theorem moves_forty {s : State} {store : Bool} {f : MoveForm} (hf : f.accesses s store) : Moves40 s store f := by
  intro sp n p s1 y k hsp hz hu hr hcx _
  obtain ⟨m, hm, hi⟩ := hf
  obtain ⟨rfl, hspace⟩ := step_words hsp
  have hreg := dregOf_eq hu
  obtain ⟨ea, s0, l, hl, hloc, rfl⟩ := hr
  rw [hz, hreg] at hm
  have hw : (Mover.reg (peReg y k)).width (sizeIn .none sp) sp true = .w40 :=
    (sizeIn_none sp).symm ▸ width_forty hspace (by simpa using peReg_ne_px y k) (by rw [← hreg]; simp [Mover.isData, hu])
  cases store with
  | false =>
    refine (completes_one_load hm hi (by simp [hcx]) hl hloc hw (row_forty s m true) (.inl rfl) hcx).imp fun t ht => ?_
    cases y <;> exact ht
  | true =>
    exact completes_one_given hm hi (by simp [hcx]) hl hloc hw (row_forty s m true) (.inl rfl) hcx (storeVal_data40 s y k m.slot)

/-- A constant in a block in 48-bit mode, above zeros (R626). -/
theorem constant_forty {s : State} {i : Instr} {m : Move} {a : Addr} {v : Word} {sp : Config.Space} {n p : Nat} {s1 : State}
    (hm : IsAccess m a (.imm v) .none true) (hi : Makes i s m true true) (hsp : (sp, n) ∈ [(Config.Space.nw, 1), (.bw, 4)])
    (hr : Reaches s a sp .w40 true n p s1) :
    Completes i s fun t => StoredBytes s t p 6 (v ++ 0#16) ∧ ButStores s1 t [(p, 6)] := by
  obtain ⟨rfl, hspace⟩ := step_words hsp
  obtain ⟨ea, s0, l, hl, hloc, rfl⟩ := hr
  have hw : (Mover.imm v).width (sizeIn .none sp) sp true = .w40 := (sizeIn_none sp).symm ▸ width_forty hspace (by simp) rfl
  refine completes_one_given hm hi rfl hl hloc hw (row_forty s m true) (.inl rfl) rfl ?_
  change v.toNat * 0x10000 = _
  rw [BitVec.toNat_append]
  simp [Nat.shiftLeft_eq]

theorem moves_px {s : State} {store : Bool} {f : MoveForm} (hf : f.accesses s store) : Moves48 s store f := by
  intro sp n imdw p s1 hsp hz hu hr hcx
  obtain ⟨m, hm, hi⟩ := hf
  obtain ⟨rfl, hspace⟩ := step_words hsp
  obtain ⟨ea, s0, l, hl, hloc, rfl⟩ := hr
  rw [hz, hu] at hm
  have hw : (Mover.reg .px).width (sizeIn .none sp) sp imdw = .w48 := (sizeIn_none sp).symm ▸ width_px hspace imdw
  have hrow : (s.row m .w48 imdw).plain := by
    rw [row_px hm.what]
    cases s.simd
    · exact .inl rfl
    · exact .inr rfl
  have hgo : ∀ b, explicitGate (s.row m .w48 imdw) b f.cx f.cy = true := by
    intro b
    rcases hrow with h | h <;> simp [h, explicitGate, hcx]
  cases store with
  | false => exact completes_one_load hm hi (by simp [hcx]) hl hloc hw rfl hrow (hgo false)
  | true => exact completes_one_given hm hi (by simp [hcx]) hl hloc hw rfl hrow (hgo true) rfl

/-! ### Sizes that the space does not have -/

/-- An illegal size gives the access the width of its space (R265, R266). -/
theorem illegal_size {z : Size} {sp : Config.Space} {w : Width} (hz : z ≠ .none) (hw : accessWidth .none sp = some (w, 1))
    (hlw : z = .lw → sp = .sw) : sizeLegal z (some sp) = false := by
  have hsp : sp = .nw ∨ sp = .sw := by
    cases sp with
    | nw => exact .inl rfl
    | sw => exact .inr rfl
    | lw | bw => exact absurd hw (by simp [accessWidth])
  rcases hsp with rfl | rfl
  · cases z <;> simp_all [sizeLegal]
  · cases z <;> simp_all [sizeLegal]

theorem moves_illegally {s : State} {store : Bool} {f : MoveForm} (hf : f.accesses s store) : MovesIllegally s store f := by
  intro sp w imdw p s1 hz hw hlw hk hr hcx hq hb hpx
  obtain ⟨m, hm, hi⟩ := hf
  obtain ⟨hshort, -, -, -, hwidth⟩ := width_sized hw
  have hlegal := illegal_size hz hw hlw
  have hsize : sizeIn f.size sp = .none := by simp [sizeIn, hlegal]
  obtain ⟨ea, s0, l, hl, hloc, rfl⟩ := hr
  rw [← step_illegal hlegal] at hl
  have hw' : (Mover.reg f.reg).width (sizeIn f.size sp) sp imdw = w := hsize ▸ hwidth (by simpa using hpx) (keepsWidth_data hk)
  have hrow := row_sisd (m := m) hshort (notBroadcast hb m) hq imdw
  cases store with
  | false =>
    have h := completes_one_load hm hi (by simp [hcx]) hl hloc hw' hrow (.inl rfl) hcx
    rw [hsize, hlegal, settled_illegal, loadVal_loaded s hw hpx, writeVal_w32] at h
    exact h
  | true =>
    have h := completes_one_given hm hi (by simp [hcx]) hl hloc hw' hrow (.inl rfl) hcx
      (storeVal_given s hshort (by simpa using hpx) m.slot)
    rw [hlegal, settled_illegal] at h
    exact h

theorem sizes_access {q : MoveArgs} {s : State} {store : Bool} {z : Size} {f : MoveForm}
    (hf : f ∈ q.normal s store ++ q.sized s store z) : f.accesses s store :=
  (List.mem_append.mp hf).elim (fun h => (normal_accesses h).2) fun h => (sized_accesses h).2

/-- Settles O26. -/
theorem byteSpaceMoves : Obligations.ByteSpaceMoves := by
  intro s q z d16
  refine ⟨fun f hf => ?_, fun f hf => ?_, fun f hf => ?_, fun f hf => ?_, fun x hx => ?_⟩
  · have h := sizes_access hf
    exact ⟨loads_sized h, moves_illegally h, moves_forty h, moves_px h⟩
  · have h := sizes_access hf
    exact ⟨stores_sized h, moves_illegally h, moves_forty h, moves_px h⟩
  · exact moves_illegally (long_accesses hf).2
  · exact moves_illegally (long_accesses hf).2
  · obtain ⟨m, hm, hi⟩ := constant_accesses hx
    exact ⟨fun sp w n imdw p s1 hw hk hr hq => constant_stores hm hi hw hk hr hq,
      fun sp n p s1 hsp hr => constant_forty hm hi hsp hr⟩

end Sys2Proof.Machine
end

section
/-! PROOFS. Moves of 64 bits (R263, R265, R298 to R304, R311, R338, R626, R627). -/

namespace Sys2Proof.Machine

open Sys2Proof

/-! ### The registers of a 64-bit move -/

theorem applyRegs_append (s : State) (k l : List (UReg × RegVal)) : s.applyRegs (k ++ l) = (s.applyRegs k).applyRegs l :=
  List.foldl_append ..

theorem words_append (x : Long) : x.extractLsb' 32 32 ++ x.truncate 32 = x := by
  ext k hk
  rw [BitVec.getElem_append]
  split
  · simpa using BitVec.getLsbD_eq_getElem hk
  · rw [BitVec.getElem_extractLsb', ← BitVec.getLsbD_eq_getElem]
    congr 1
    omega

/-- The registers of a 64-bit load, written one after the other, take its two words. -/
theorem applyRegs_loadLong {s t : State} (h : t.simd = s.simd) (u : UReg) (x : Long) :
    t.applyRegs (s.loadLong u x) = t.takeLong u (x.truncate 32) (x.extractLsb' 32 32) := by
  cases u with
  | px => exact congrArg (fun v : Long => ({ t with data := { t.data with px := v } } : State)) (words_append x).symm
  | r | s | i | m | l | b => rfl
  | sys | px1 | px2 =>
    simp only [State.loadLong, State.takeLong, h]
    cases compOf _ <;> cases s.simd <;> simp [writeVal_w32]
  | _ =>
    simp only [State.loadLong, State.takeLong, compOf]
    cases t.simd <;> rfl

/-- The registers of a 64-bit store. -/
theorem storeLong_reg (s : State) (u : UReg) : s.storeLong (.reg u) = s.giveLong u := by
  cases u <;> rfl

/-! ### Accesses of 64 bits -/

/-- Such an access has 64 bits, is scaled as its size says, and is legal but for the sizes of bytes and short words. -/
theorem wide_size {z : Size} {sp : Config.Space} {n : Nat} (h : wideAccess z sp n) :
    stepSize z sp = n ∧ sizeLegal z (some sp) = decide (z = .none ∨ z = .lw) ∧
    ∀ (x : Mover) (imdw : Bool), x.width (sizeIn z sp) sp imdw = .w64 := by
  rcases h with ⟨rfl, rfl⟩ | ⟨rfl, ⟨rfl, rfl⟩ | ⟨rfl, rfl⟩⟩
  · exact ⟨rfl, by cases z <;> rfl, fun x imdw => by cases z <;> rfl⟩
  · exact ⟨rfl, rfl, fun x imdw => rfl⟩
  · exact ⟨rfl, rfl, fun x imdw => rfl⟩

theorem settled_wide (s : State) (z : Size) (forced : Bool) : s.settled (decide (z = .none ∨ z = .lw)) forced =
    if z = .none ∨ z = .lw then s.aligned forced else (s.aligned forced).illegalSpace := by
  unfold State.settled
  simp only [decide_eq_true_eq]

theorem row_long (s : State) (m : Move) (imdw : Bool) : s.row m .w64 imdw = .long := rfl

theorem settled_simd (s : State) (legal forced : Bool) : (s.settled legal forced).simd = s.simd := by
  unfold State.settled State.aligned
  cases legal <;> cases forced <;> rfl

theorem lands_simd {s s0 : State} {a : Addr} {sp : Config.Space} {n : Nat} {ea : Word} (h : Lands s a sp n ea s0) :
    s0.simd = s.simd := by
  cases a with
  | direct x => rw [h.2]
  | post k md =>
    obtain ⟨-, -, -, rfl⟩ := h
    rw [(setI_keeps s k _).1]
    rfl
  | pre k md => rw [h.2.2.2]

section
variable {s : State} {i : Instr} {m : Move} {a : Addr} {z : Size} {sp : Config.Space} {n p : Nat} {imdw cx cy : Bool} {s0 : State}

/-- A load of 64 bits: the registers, of both pairs if it is a broadcast load. -/
theorem loads_long {u : UReg} (hm : IsAccess m a (.reg u) z false) (hi : Makes i s m cx cy) (hz : wideAccess z sp n)
    (hr : Reaches s a sp .w64 imdw n p s0) (hcx : cx = true) :
    ∃ s1, s1 = (if z = .none ∨ z = .lw then s0 else s0.illegalSpace) ∧ s1.simd = s.simd ∧
    Completes i s fun t => ButHits (s1.applyRegs (s.longRegs (s.isBroadcast m) u (s.mem.readLE p 8))) t := by
  obtain ⟨rfl, hlegal, hwidth⟩ := wide_size hz
  obtain ⟨ea, s', l, hl, hloc, rfl⟩ := hr
  have hd := access_single (cy := cy) hm (by simp [hcx]) hl hloc (hwidth _ _) (row_long s m imdw) (by simp) hcx
  rw [State.rowFx, transferLong_load hm.store hm.what, hlegal] at hd
  obtain ⟨⟨hs, ht, hlines, hmmr, haz, hbus⟩, heq⟩ := loadFx_plain (e := ⟨l.region, p, .w64⟩) hm.ex hloc.plain false m.slot
    (s.longRegs (s.isBroadcast m) u)
  have h := completes_load hi hd ⟨hs, ht, hlines, hmmr, haz, hbus⟩ (by rw [heq]) (by rw [heq])
  rw [heq] at h
  exact ⟨_, settled_wide .., (settled_simd ..).trans (lands_simd hl), h⟩

/-- A store of 64 bits. -/
theorem stores_long {x : Mover} (hm : IsAccess m a x z true) (hi : Makes i s m cx cy) (hz : wideAccess z sp n)
    (hr : Reaches s a sp .w64 imdw n p s0) (hcx : cx = true) :
    Completes i s fun t => StoredBytes s t p 8 (s.storeLong x) ∧
      ButStores (if z = .none ∨ z = .lw then s0 else s0.illegalSpace) t [(p, 8)] := by
  obtain ⟨rfl, hlegal, hwidth⟩ := wide_size hz
  obtain ⟨ea, s', l, hl, hloc, rfl⟩ := hr
  have hd := access_single (cy := cy) hm (by simp [hcx]) hl hloc (hwidth _ _) (row_long s m imdw) (by simp) hcx
  rw [State.rowFx, transferLong_store hm.store, hm.what, hlegal] at hd
  obtain ⟨hplain, heq⟩ := storeFx_plain (e := ⟨l.region, p, .w64⟩) hm.ex hloc.plain false (s.storeLong x).toNat
  rw [heq] at hd hplain
  rw [settled_wide] at hd
  exact completes_one_store hi hd hplain

end

theorem moves_long {s : State} {store : Bool} {f : MoveForm} (hf : f.accesses s store) : MovesLong s store f := by
  intro sp n imdw p s0 hz hr hcx hb s1
  obtain ⟨m, hm, hi⟩ := hf
  cases store with
  | false =>
    obtain ⟨s2, hs2, hsimd, h⟩ := loads_long hm hi hz hr hcx
    obtain ⟨hlo, hhi⟩ := readLE_words s p
    refine h.imp fun t ht => ?_
    rw [notBroadcast hb, State.longRegs, if_neg (by simp), List.append_nil, applyRegs_loadLong hsimd, hlo, hhi, hs2] at ht
    exact ht
  | true =>
    have h := stores_long hm hi hz hr hcx
    rw [storeLong_reg] at h
    exact h

/-- Settles O28. -/
theorem longWordMoves : Obligations.LongWordMoves := by
  intro s q z d16
  have hforms : ∀ store, ∀ f ∈ q.long s store ++ q.normal s store ++ q.sized s store z, MovesLong s store f := by
    intro store f hf
    rw [List.append_assoc] at hf
    exact moves_long ((List.mem_append.mp hf).elim (fun h => (long_accesses h).2) sizes_access)
  refine ⟨hforms false, hforms true, fun x hx p s1 hr => ?_⟩
  obtain ⟨m, hm, hi⟩ := constant_accesses hx
  exact stores_long hm hi (.inl ⟨rfl, rfl⟩) hr rfl

end Sys2Proof.Machine
end

section
/-! PROOFS. Moves in SIMD mode and broadcast loads (R290 to R293, R296, R505). -/

namespace Sys2Proof.Machine

open Sys2Proof

/-! ### Rows -/

/-- A register without a complement is no data register. -/
theorem alone_notData {u : UReg} (h : compOf u = none) : dregOf u = none := by
  cases u with
  | r | s => exact absurd h (by simp [compOf])
  | _ => rfl

theorem alone_notBroadcast (s : State) {m : Move} {u : UReg} (hm : m.what = .reg u) (h : compOf u = none) : s.isBroadcast m = false := by
  unfold State.isBroadcast
  rw [hm]
  simp [Mover.isData, alone_notData h]

theorem row_pair {s : State} {m : Move} {w : Width} (hw : w.short) (hb : s.isBroadcast m = false) (hq : s.simd = true)
    (hc : m.what.hasComp = true) : s.row m w false = .pair := by
  rcases hw with rfl | rfl | rfl <;> simp [State.row, hb, hq, hc]

theorem row_broadcast {s : State} {m : Move} {w : Width} (hw : w.short) (hb : s.isBroadcast m = true) (imdw : Bool) :
    s.row m w imdw = .broadcast := by
  rcases hw with rfl | rfl | rfl <;> simp [State.row, hb]

/-- A load of a data register through I1 or I9 with its broadcast bit (R296). -/
theorem isBroadcast_access {s : State} {m : Move} {a : Addr} {u : UReg} {z : Size} (hm : IsAccess m a (.reg u) z false)
    (ha : throughBroadcast s a) (hu : (dregOf u).isSome = true) : s.isBroadcast m = true := by
  unfold State.isBroadcast
  rw [hm.addr, hm.what, hm.store]
  cases a with
  | direct x => exact absurd ha id
  | post k md | pre k md => simpa [Mover.isData, hu, throughBroadcast] using ha

/-! ### An access of two elements -/

theorem plainFx_empty (s : State) : PlainFx s {} := ⟨by simp, by simp, by simp, rfl, rfl, rfl⟩

theorem PlainFx.when {s : State} {f : Fx} (h : PlainFx s f) (go : Bool) : PlainFx s (f.when go) := by
  cases go
  · exact plainFx_empty s
  · exact h

theorem when_regs (go : Bool) (f : Fx) : (f.when go).regs = if go then f.regs else [] := by cases go <;> rfl

theorem when_stores (go : Bool) (f : Fx) : (f.when go).stores = if go then f.stores else [] := by cases go <;> rfl

theorem when_monitor {f : Fx} (h : f.monitor = none) (go : Bool) : (f.when go).monitor = none := by
  cases go
  · rfl
  · exact h

theorem both_monitor {f g : Fx} (hf : f.monitor = none) (hg : g.monitor = none) : (f.both g).monitor = none := by
  simp [Fx.both, hf, hg]

/-- The implicit access asks for no alignment of its own. -/
theorem misalign_alone {w : Width} (h : w.short) (sp : Config.Space) (k : Nat) : misalign sp w false k = 0 := by
  rcases h with rfl | rfl | rfl <;> cases sp <;> rfl

section
variable {s s0 s1 : State} {i : Instr} {m : Move} {a : Addr} {x : Mover} {u : UReg} {z : Size} {store : Bool} {sp : Config.Space}
  {w : Width} {imdw : Bool} {p q n : Nat} {cx cy : Bool} {ea : Word}

/-- A SIMD access makes the explicit and the implicit transfer, each under its gate (R290, R292). -/
theorem access_pair {l k : Loc} (hm : IsAccess m a x z store) (hg : (cx || cy) = true) (hl : Lands s a sp (stepSize z sp) ea s0)
    (hloc : Located s ea sp w false true l p)
    (hnext : Located s (ea - BitVec.ofNat 32 (misalign sp w true l.off) + implicitStep sp w) sp w false false k q)
    (hshort : w.short) (hw : x.width (sizeIn z sp) sp false = w) (hr : s.row m w false = .pair) :
    Delivers s m cx cy
      (((s.transfer m x ⟨l.region, p, w⟩ (s.signed sp (sizeIn z sp)) false m.slot).when cx).both
        ((s.transfer m x.comp ⟨k.region, q, w⟩ (s.signed sp (sizeIn z sp)) true (m.slot + 1)).when cy))
      (s0.settled (sizeLegal z (some sp)) (decide (misalign sp w true l.off ≠ 0))) := by
  have ht := hloc.plain.memory
  have hfx : ∀ il upd, s.memoryFx m ⟨ea, sizeIn z sp, il, upd⟩ l cx cy = .ok
      { ((s.transfer m x ⟨l.region, p, w⟩ (s.signed sp (sizeIn z sp)) false m.slot).when cx).both
          ((s.transfer m x.comp ⟨k.region, q, w⟩ (s.signed sp (sizeIn z sp)) true (m.slot + 1)).when cy) with
        u64ma := misalign sp w true l.off != 0, iira := false } := by
    intro il upd
    have hwidth : s.memWidth m ⟨ea, sizeIn z sp, il, upd⟩ l = w := by rw [memWidth_access hm ht, hloc.space, hloc.wide, hw]
    have hmrow : s.memRow m ⟨ea, sizeIn z sp, il, upd⟩ l = .pair := by rw [State.memRow, hwidth, hloc.wide, hr]
    obtain ⟨hx, hpad⟩ := explicitFx_access (cx := cx) (cy := cy) (q := ⟨ea, sizeIn z sp, il, upd⟩) hm hwidth hmrow hloc
    have hsame : (Row.pair == Row.pair) = true := rfl
    rw [hsame] at hpad
    rw [State.rowFx, hm.what] at hx
    have hi : s.implicitFx m ⟨ea, sizeIn z sp, il, upd⟩ l cy =
        .ok ((s.transfer m x.comp ⟨k.region, q, w⟩ (s.signed sp (sizeIn z sp)) true (m.slot + 1)).when cy) := by
      rw [State.implicitFx, hpad, hwidth, hloc.space]
      dsimp only
      rw [elementAt_located hnext (misalign_alone hshort sp k.off), gated_when hm.ex, hm.what]
    rw [memoryFx_pair ht hmrow hx hi, hpad]
    rfl
  obtain ⟨f, hf, hsame, h1⟩ := moveFx_delivers hm.addr hm.size hg hl hloc.located hloc.space hfx rfl
  refine ⟨f, hf, ⟨hsame.regs, hsame.stores, hsame.mmr, hsame.touched, hsame.az, hsame.monitor, hsame.bus, hsame.lines, hsame.near⟩, ?_⟩
  rw [h1]
  cases misalign sp w true l.off <;> rfl

/-- What a SIMD access reaches, in the terms of the access. -/
theorem pair_reached (hm : IsAccess m a x z store) (hg : (cx || cy) = true) (hw : accessWidth z sp = some (w, n))
    (hr : ReachesPair s a sp w n p q s1) (hx : x ≠ .reg .px) (hb : s.isBroadcast m = false) (hq : s.simd = true) (hc : x.hasComp = true) :
    ∃ e e' : Element, e.phys = p ∧ e.width = w ∧ PlainBytes s e.region e.phys e.width.bytes ∧
      e'.phys = q ∧ e'.width = w ∧ PlainBytes s e'.region e'.phys e'.width.bytes ∧ (p + w.bytes ≤ q ∨ q + w.bytes ≤ p) ∧
      Delivers s m cx cy (((s.transfer m x e (s.signed sp z) false m.slot).when cx).both
        ((s.transfer m x.comp e' (s.signed sp z) true (m.slot + 1)).when cy)) s1 := by
  obtain ⟨hshort, hsize, hlegal, rfl, hwidth⟩ := width_sized hw
  obtain ⟨ea, s0, l, k, hl, hloc, hnext, hapart, rfl⟩ := hr
  have hnext' : Located s (ea - BitVec.ofNat 32 (misalign sp w true l.off) + implicitStep sp w) sp w false false k q := by
    cases sp <;> exact hnext
  have hd := access_pair hm hg hl hloc hnext' hshort (hsize.symm ▸ hwidth hx (by simp)) (row_pair hshort hb hq (hm.what ▸ hc))
  rw [hlegal, hsize, settled_legal] at hd
  exact ⟨_, _, rfl, rfl, hloc.plain, rfl, rfl, hnext.plain, hapart, hd⟩

/-- A SIMD load: each register takes the datum of its element. -/
theorem loads_pair {c : UReg} (hm : IsAccess m a (.reg u) z false) (hi : Makes i s m cx cy) (hg : (cx || cy) = true)
    (hw : accessWidth z sp = some (w, n)) (hr : ReachesPair s a sp w n p q s1) (hb : s.isBroadcast m = false) (hq : s.simd = true)
    (hc : compOf u = some c) :
    Completes i s fun t =>
      let s2 := if cx then s1.writeU u (s.loaded z sp p) else s1
      ButHits (if cy then s2.writeU c (s.loaded z sp q) else s2) t := by
  have hu : u ≠ .px := fun e => absurd hc (by simp [e, compOf])
  have hcpx : c ≠ .px := compOf_ne_px hc
  have hcomp : Mover.comp (.reg u) = .reg c := by simp [Mover.comp, hc]
  obtain ⟨⟨r, p, _⟩, ⟨r', q, w⟩, rfl, rfl, hp, rfl, rfl, hq', -, hd⟩ :=
    pair_reached hm hg hw hr (by simpa using hu) hb hq (by simp [Mover.hasComp, hc])
  rw [transfer_load hm.store, hcomp, transfer_load hm.store] at hd
  obtain ⟨hplain, heq⟩ := loadFx_plain hm.ex hp false m.slot (fun v => [(u, s.loadVal u w (s.signed sp z) v m.slot)])
  obtain ⟨hplain', heq'⟩ := loadFx_plain hm.ex hq' true (m.slot + 1) (fun v => [(c, s.loadVal c w (s.signed sp z) v (m.slot + 1))])
  have hv := loadVal_loaded s hw hu p m.slot
  have hv' := loadVal_loaded s hw hcpx q (m.slot + 1)
  dsimp only at heq heq' hd hplain hplain'
  rw [heq, heq', hv, hv'] at hd
  rw [heq, hv] at hplain
  rw [heq', hv'] at hplain'
  have h := completes_load hi hd ((hplain.when cx).both (hplain'.when cy)) (by cases cx <;> cases cy <;> rfl)
    (both_monitor (when_monitor rfl cx) (when_monitor rfl cy))
  refine h.imp fun t ht => ?_
  cases cx <;> cases cy <;> simpa [Fx.both, when_regs, writeVal_w32] using ht

end

/-! ### The bytes of two stores -/

theorem bytesAt_inside {b p n k : Nat} (v : BitVec b) (h : k < n) : bytesAt v p n (p + k) = some (v.extractLsb' (8 * k) 8) := by
  rw [bytesAt, if_pos (by omega), Nat.add_sub_cancel_left]

theorem bytesAt_outside {b p n r : Nat} (v : BitVec b) (h : r < p ∨ p + n ≤ r) : bytesAt v p n r = none := if_neg (by omega)

/-- What the stores of a SIMD access leave in memory: each run of bytes under the gate of its element. -/
theorem reads_pair {s t : State} {x y : Stored} {v v' : Word} {cx cy : Bool} {p q n : Nat} (hapart : p + n ≤ q ∨ q + n ≤ p)
    (hx : ∀ r, x.bytes r = bytesAt v p n r) (hy : ∀ r, y.bytes r = bytesAt v' q n r)
    (hread : ∀ r, t.mem.read r = (storedBytes ((if cx then [x] else []) ++ if cy then [y] else []) r).getD (s.mem.read r)) :
    (∀ k, k < n → t.mem.read (p + k) = (if cx then v.extractLsb' (8 * k) 8 else s.mem.read (p + k)) ∧
      t.mem.read (q + k) = (if cy then v'.extractLsb' (8 * k) 8 else s.mem.read (q + k))) ∧
    ∀ r, (r < p ∨ p + n ≤ r) → (r < q ∨ q + n ≤ r) → t.mem.read r = s.mem.read r := by
  have hbytes : ∀ r, storedBytes ((if cx then [x] else []) ++ if cy then [y] else []) r =
      (if cy then bytesAt v' q n r else none).or (if cx then bytesAt v p n r else none) := by
    intro r
    cases cx <;> cases cy <;> simp [storedBytes, hx, hy]
  refine ⟨fun k hk => ⟨?_, ?_⟩, fun r hp hq => ?_⟩
  · rw [hread, hbytes, bytesAt_inside v hk, bytesAt_outside v' (by omega)]
    cases cx <;> cases cy <;> rfl
  · rw [hread, hbytes, bytesAt_inside v' hk, bytesAt_outside v (by omega)]
    cases cx <;> cases cy <;> rfl
  · rw [hread, hbytes, bytesAt_outside v hp, bytesAt_outside v' hq]
    cases cx <;> cases cy <;> rfl

section
variable {s s1 : State} {i : Instr} {m : Move} {a : Addr} {x : Mover} {z : Size} {sp : Config.Space} {w : Width} {p q n : Nat}
  {cx cy : Bool}

/-- A SIMD store: each element's datum in its place. -/
theorem stores_pair (hm : IsAccess m a x z true) (hi : Makes i s m cx cy) (hg : (cx || cy) = true)
    (hw : accessWidth z sp = some (w, n)) (hr : ReachesPair s a sp w n p q s1) (hx : x ≠ .reg .px) (hx' : x.comp ≠ .reg .px)
    (hq : s.simd = true) (hc : x.hasComp = true) :
    Completes i s fun t =>
      (∀ k, k < w.bytes →
        t.mem.read (p + k) = (if cx then (s.given x).extractLsb' (8 * k) 8 else s.mem.read (p + k)) ∧
        t.mem.read (q + k) = (if cy then (s.given x.comp).extractLsb' (8 * k) 8 else s.mem.read (q + k))) ∧
      (∀ r, (r < p ∨ p + w.bytes ≤ r) → (r < q ∨ q + w.bytes ≤ r) → t.mem.read r = s.mem.read r) ∧
      ButStores s1 t ((if cx then [(p, w.bytes)] else []) ++ (if cy then [(q, w.bytes)] else [])) := by
  obtain ⟨hshort, -⟩ := width_sized hw
  obtain ⟨⟨r, p, _⟩, ⟨r', q, w⟩, rfl, rfl, hp, rfl, rfl, hq', hapart, hd⟩ :=
    pair_reached hm hg hw hr hx (store_notBroadcast s hm.store) hq hc
  rw [transfer_store hm.store, transfer_store hm.store] at hd
  dsimp only at hd hapart hshort ⊢
  rw [storeVal_given s hshort hx, storeVal_given s hshort hx'] at hd
  obtain ⟨hplain, heq⟩ := storeFx_plain hm.ex hp false (s.given x).toNat
  obtain ⟨hplain', heq'⟩ := storeFx_plain hm.ex hq' true (s.given x.comp).toNat
  rw [heq] at hd hplain
  rw [heq'] at hd hplain'
  generalize hX : (⟨⟨r, p, w⟩, (s.given x).toNat, s.elementUses m ⟨r, p, w⟩⟩ : Stored) = X at hd hplain
  generalize hY : (⟨⟨r', q, w⟩, (s.given x.comp).toNat, s.elementUses m ⟨r', q, w⟩⟩ : Stored) = Y at hd hplain'
  have h := completes_store hi hd ((hplain.when cx).both (hplain'.when cy)) (by cases cx <;> cases cy <;> rfl)
    (both_monitor (when_monitor rfl cx) (when_monitor rfl cy))
  have hstores : (Fx.both (.when cx { stores := [X], touched := [r.target] }) (.when cy { stores := [Y], touched := [r'.target] })).stores =
      (if cx then [X] else []) ++ if cy then [Y] else [] := by
    simp only [Fx.both, when_stores]
  rw [hstores] at h
  refine h.imp fun t ⟨hbut, hread⟩ => ?_
  obtain ⟨hin, hout⟩ := reads_pair (v := s.given x) (v' := s.given x.comp) hapart
    (fun b => by rw [← hX]; exact numberAt_toNat ..) (fun b => by rw [← hY]; exact numberAt_toNat ..) hread
  refine ⟨hin, hout, ?_⟩
  have hruns : ((if cx then [X] else []) ++ if cy then [Y] else []).map Stored.run =
      (if cx then [(p, w.bytes)] else []) ++ (if cy then [(q, w.bytes)] else []) := by
    rw [← hX, ← hY]
    cases cx <;> cases cy <;> rfl
  rw [← hruns]
  exact hbut

end

theorem moves_pair {s : State} {store : Bool} {f : MoveForm} (hf : f.accesses s store) : MovesPair s store f := by
  intro sp w n p q s1 c hw hr hq hb hc hg
  obtain ⟨m, hm, hi⟩ := hf
  have hg' : (f.cx || f.cy) = true := by simpa using hg
  have hcomp : Mover.comp (.reg f.reg) = .reg c := by simp [Mover.comp, hc]
  cases store with
  | false => exact loads_pair hm hi hg' hw hr (notBroadcast hb m) hq hc
  | true =>
    have hu : f.reg ≠ .px := fun e => absurd hc (by simp [e, compOf])
    have h := stores_pair hm hi hg' hw hr (by simpa using hu) (by simpa [hcomp] using compOf_ne_px hc) hq (by simp [Mover.hasComp, hc])
    rw [hcomp] at h
    exact h

/-! ### A register without a complement -/

/-- A register without a complement is loaded under either condition. -/
theorem loads_alone {s : State} {f : MoveForm} (hf : f.accesses s false) : MovesAlone s false f := by
  intro sp w n imdw p s1 hw hr hq hc hpx hg
  obtain ⟨m, hm, hi⟩ := hf
  obtain ⟨hshort, hsize, hlegal, rfl, hwidth⟩ := width_sized hw
  obtain ⟨ea, s0, l, hl, hloc, rfl⟩ := hr
  have hrow : s.row m w imdw = .alone :=
    row_alone hshort (alone_notBroadcast s hm.what hc) hq (by rw [hm.what]; simp [Mover.hasComp, hc]) imdw
  have hdata : (Mover.reg f.reg).isData = false := by simp [Mover.isData, alone_notData hc]
  have h := completes_one_load hm hi (by simpa using hg) hl hloc (hsize.symm ▸ hwidth (by simpa using hpx) fun _ => .inr hdata) hrow
    (.inr rfl) (by simpa [explicitGate] using hg)
  rw [hsize, hlegal, settled_legal, loadVal_loaded s hw hpx, writeVal_w32] at h
  exact h

/-- A register without a complement is stored under the condition of PEx. -/
theorem stores_alone {s : State} {f : MoveForm} (hf : f.accesses s true) : MovesAlone s true f := by
  intro sp w n imdw p s1 hw hr hq hc hpx hg
  obtain ⟨m, hm, hi⟩ := hf
  obtain ⟨hshort, hsize, hlegal, hstep, hwidth⟩ := width_sized hw
  have hrow : s.row m w imdw = .alone :=
    row_alone hshort (alone_notBroadcast s hm.what hc) hq (by rw [hm.what]; simp [Mover.hasComp, hc]) imdw
  have hdata : (Mover.reg f.reg).isData = false := by simp [Mover.isData, alone_notData hc]
  cases hcx : f.cx with
  | true => exact stores_short hm hi hw (by simpa using hpx) (fun _ => .inr hdata) hr hcx (hrow ▸ .inr rfl)
  | false =>
    obtain ⟨ea, s0, l, hl, hloc, rfl⟩ := hr
    subst hstep
    have hd := access_gated hm (by simpa using hg) hl hloc (hsize.symm ▸ hwidth (by simpa using hpx) fun _ => .inr hdata) hrow (by simp)
    have hgo : explicitGate .alone true f.cx f.cy = false := by simp [explicitGate, hcx]
    rw [hgo, hlegal, settled_legal] at hd
    exact completes_load hi hd (plainFx_empty s) rfl rfl

theorem moves_alone {s : State} {store : Bool} {f : MoveForm} (hf : f.accesses s store) : MovesAlone s store f := by
  cases store with
  | false => exact loads_alone hf
  | true => exact stores_alone hf

/-! ### Broadcast loads -/

theorem loadLong_data_any (s t : State) {u : UReg} (h : (dregOf u).isSome = true) (x : Long) : s.loadLong u x = t.loadLong u x := by
  cases u with
  | r | s => rfl
  | _ => exact absurd h Bool.false_ne_true

theorem broadcasts {s : State} {f : MoveForm} (hf : f.accesses s false) : Broadcasts s f := by
  intro sp n p s1 c ha hu hc hcx
  obtain ⟨m, hm, hi⟩ := hf
  have hb := isBroadcast_access hm ha hu
  have hpx : f.reg ≠ .px := fun e => absurd hu (by simp [e, dregOf])
  refine ⟨fun w hw hr => ?_, fun hz hsize hr => ?_⟩
  · obtain ⟨hshort, hsize, hlegal, rfl, hwidth⟩ := width_sized hw
    obtain ⟨ea, s0, l, hl, hloc, rfl⟩ := hr
    have hd := access_single (cy := f.cy) hm (by simp [hcx]) hl hloc (hsize.symm ▸ hwidth (by simpa using hpx) (by simp))
      (row_broadcast hshort hb false) (by simp) hcx
    rw [State.rowFx, State.transferBroadcast, hm.what, transfer_load hm.store, hsize, hlegal, settled_legal] at hd
    obtain ⟨⟨ps, pt, pl, pm, pa, pb⟩, heq⟩ := loadFx_plain (e := ⟨l.region, p, w⟩) hm.ex hloc.plain false m.slot
      (fun v => [(f.reg, s.loadVal f.reg w (s.signed sp f.size) v m.slot)])
    have h := completes_load hi hd ⟨ps, pt, pl, pm, pa, pb⟩ (by dsimp only; rw [heq]) (by dsimp only; rw [heq])
    dsimp only at h heq
    rw [heq] at h
    simpa [loadVal_loaded s hw hpx, writeVal_w32, hc] using h
  · obtain ⟨s2, hs2, hsimd, h⟩ := loads_long hm hi hz hr hcx
    obtain ⟨hlo, hhi⟩ := readLE_words s p
    rw [if_pos hsize] at hs2
    subst hs2
    refine h.imp fun t ht => ?_
    have hdata : (dregOf c).isSome = true := by
      have := comp_data hu
      rwa [hc] at this
    rw [hb, State.longRegs, if_pos rfl, hc, Option.getD_some, applyRegs_append, applyRegs_loadLong hsimd,
      loadLong_data_any s _ hdata, applyRegs_loadLong rfl, hlo, hhi] at ht
    exact ht

/-! ### No element -/

theorem form_idle {s : State} {store : Bool} {f : MoveForm} (hf : f.accesses s store) (hcx : f.cx = false) (hcy : f.cy = false) :
    exec f.instr s = .next s := by
  obtain ⟨m, -, hi⟩ := hf
  exact (hi {} (moveFx_idle (by simp [hcx, hcy]))).trans (congrArg Host.Outcome.next (applyFx_regs s []))

/-- Settles O29. -/
theorem simdMoves : Obligations.SimdMoves := by
  intro s q z d16
  refine ⟨fun f hf => ?_, fun f hf => broadcasts (long_accesses hf).2, fun f hf => ?_, fun b f hf => ?_, fun x hx => ?_⟩
  · have h := sizes_access hf
    exact ⟨moves_pair h, moves_alone h, broadcasts h⟩
  · have h := sizes_access hf
    exact ⟨moves_pair h, moves_alone h⟩
  · exact form_idle ((List.mem_append.mp hf).elim sizes_access fun h => (long_accesses h).2)
  · intro sp w n p r s1 hw hr hq
    obtain ⟨m, hm, hi⟩ := constant_accesses hx
    exact stores_pair hm hi rfl hw hr (by simp) (by simp [Mover.comp]) hq rfl

end Sys2Proof.Machine
end

section
/-! PROOFS. Exclusive accesses and the monitor (R333 to R337). -/

namespace Sys2Proof.Machine

open Sys2Proof

/-! ### The move -/

/-- `m` is the exclusive access by `a` of a data register, over one bus, of a word. -/
structure IsExclusive (m : Move) (pm : Bool) (a : Addr) (n : RegNo) (store : Bool) : Prop where
  pm : m.pm = pm
  addr : m.addr = a
  what : m.what = .reg (.r n)
  size : m.size = .none
  ex : m.ex = true
  dual : m.dual = false
  store : m.store = store

section
variable {s s1 : State} {i : Instr} {m : Move} {pm : Bool} {a : Addr} {n : RegNo} {store : Bool} {ea : Word} {l : Loc} {p : Nat} {cy : Bool}

/-- The one transfer of an exclusive access to a word of a memory or a peripheral. -/
theorem memoryFx_exclusive (hm : IsExclusive m pm a n store) (hsmmr : l.region.target ≠ .smmr)
    (hsp : l.region.space = .nw ∨ (l.region.space = .bw ∧ l.off % 4 = 0)) (hi : s.imdw l.region = false) (hq : s.simd = false)
    (hb : s.noBroadcast) (hel : s.element ea l.region l.off .w32 = .ok ⟨l.region, p, .w32⟩)
    (hallowed : s.exclAllowed m ea ⟨l.region, p, .w32⟩ = .ok ()) (il : Bool) (upd : Option IndexWrite) :
    s.memoryFx m ⟨ea, .none, il, upd⟩ l true cy = .ok { s.transfer m (.reg (.r n)) ⟨l.region, p, .w32⟩ (s.signed l.region.space .none) false
      m.slot with u64ma := false, iira := false } := by
  have hat : m.at l.region.target = m := by simp [Move.at, hm.what]
  have hsize : m.sizeAt l.region.target .none = .none := by simp [Move.sizeAt]
  have hwidth : (Mover.reg (.r n)).width .none l.region.space false = .w32 := by
    rcases hsp with h | ⟨h, -⟩ <;> rw [h] <;> rfl
  have hrow : s.row m .w32 false = .single := row_sisd (.inr (.inr rfl)) (notBroadcast hb m) hq false
  have hpad : l.off % boundary l.region.space .w32 true false = 0 := by
    rcases hsp with h | ⟨h, h4⟩
    · rw [h]
      exact Nat.mod_one _
    · rw [h]
      exact h4
  have hpair : (Row.single == Row.pair) = false := rfl
  have hne : (l.region.target == Config.Target.smmr) = false := by simpa using hsmmr
  unfold State.memoryFx
  simp only [hat, hsize, hm.what, hwidth, hi, hrow, hpair, hm.ex, hpad, hne, Bool.false_and, Bool.false_eq_true, ↓reduceIte, Nat.sub_zero,
    hel, State.gated, explicitGate, hallowed, State.rowFx]
  rfl

/-- An exclusive access to a word of a memory or a peripheral delivers its transfer. -/
theorem exclusive_delivers (hm : IsExclusive m pm a n store) (hland : Lands s a l.region.space (stepSize .none l.region.space) ea s1)
    (hl : locate ea.toNat = some l) (hsmmr : l.region.target ≠ .smmr)
    (hsp : l.region.space = .nw ∨ (l.region.space = .bw ∧ l.off % 4 = 0)) (hi : s.imdw l.region = false) (hq : s.simd = false)
    (hb : s.noBroadcast) (hel : s.element ea l.region l.off .w32 = .ok ⟨l.region, p, .w32⟩)
    (hallowed : s.exclAllowed m ea ⟨l.region, p, .w32⟩ = .ok ()) :
    Delivers s m true cy (s.transfer m (.reg (.r n)) ⟨l.region, p, .w32⟩ (s.signed l.region.space .none) false m.slot) s1 := by
  obtain ⟨f, hf, hsame, h1⟩ := moveFx_delivers (cy := cy) hm.addr hm.size rfl hland hl rfl
    (fun il upd => memoryFx_exclusive hm hsmmr hsp hi hq hb hel hallowed il upd) rfl
  exact ⟨f, hf, ⟨hsame.regs, hsame.stores, hsame.mmr, hsame.touched, hsame.az, hsame.monitor, hsame.bus, hsame.lines, hsame.near⟩, h1⟩

/-! ### The transfer -/

/-- An exclusive load of a word (R334): from L2 and L3 it brings the word and marks its granule, else it fails and brings any value. -/
theorem exclusive_load (hm : IsExclusive m pm a n false) (r : Config.Region) (hr : isSystem r.target = false ∨ supportsExcl r.target = false)
    (sgn : Bool) : ∃ v lines,
      s.transfer m (.reg (.r n)) ⟨r, p, .w32⟩ sgn false m.slot = {
        regs := [(.r n, .w32 v)], touched := [r.target], az := [(false, supportsExcl r.target)]
        monitor := if supportsExcl r.target then some (p / 8) else none, lines := lines } ∧
      (supportsExcl r.target = true → v = BitVec.ofNat 32 (s.readElement m ⟨r, p, .w32⟩ m.slot)) := by
  rw [transfer_load hm.store]
  refine ⟨BitVec.ofNat 32 (if supportsExcl r.target then s.readElement m ⟨r, p, .w32⟩ m.slot else (Config.freeLong (s.slot m.slot)).toNat),
    s.elementUses m ⟨r, p, .w32⟩, ?_, fun h => by rw [if_pos h]⟩
  have hbus : (isSystem r.target && supportsExcl r.target) = false := by
    rcases hr with h | h <;> simp [h]
  simp only [State.loadFx, hm.ex, hbus, Bool.not_true, Bool.false_or, Bool.true_and, Bool.false_eq_true, ↓reduceIte]
  rfl

/-- An exclusive store of a word (R334): it takes place while the monitor holds its granule in L2 or L3. -/
theorem exclusive_store (hm : IsExclusive m pm a n true) (r : Config.Region) (sgn : Bool) :
    let e : Element := ⟨r, p, .w32⟩
    s.transfer m (.reg (.r n)) e sgn false m.slot = {
      stores := if s.exclHolds e then [⟨e, (s.fx false n).toNat, s.elementUses m e⟩] else [], touched := [r.target]
      az := [(false, s.exclHolds e)] } := by
  intro e
  rw [transfer_store hm.store, State.storeFx, hm.ex]
  rfl

/-! ### L2 and L3 -/

/-- The blocks of L1 lie below 0x20000000. -/
theorem l1_below : ∀ r ∈ Config.regions, isL1 r.target = true → r.phys + r.bytes ≤ 0x20000000 := by decide

/-- A word of memory from 0x20000000 on lies in L2 or L3, which support exclusive accesses. -/
theorem shared_supports {t : Config.Target} (hl1 : isL1 t = false) (hs : isSystem t = false) : supportsExcl t = true := by
  cases t <;> simp_all [isL1, isSystem, supportsExcl]

/-- What an exclusive access to a word of L2 or L3 delivers (R336). -/
theorem shared_delivers (hm : IsExclusive m pm a n store) (hq : s.simd = false) (hb : s.noBroadcast) (hland : Lands s a .nw 1 ea s1)
    (hp : OrdinaryWord s ea p) (habove : 0x20000000 ≤ p) (hc : s.cacheable pm p = false) :
    ∃ r sgn, supportsExcl r.target = true ∧ PlainBytes s r p 4 ∧
      Delivers s m true cy (s.transfer m (.reg (.r n)) ⟨r, p, .w32⟩ sgn false m.slot) s1 := by
  obtain ⟨l, hl, hsp, hphys, hi, hplain⟩ := hp.located
  obtain ⟨-, hmem, -, hoff⟩ := locate_some hl
  have hl1 : isL1 l.region.target = false := by
    by_contra h
    have hle := l1_below _ hmem (by simpa using h)
    simp only [hphys, physOf, placeIn, nwPlace, hsp] at habove
    simp only [Config.Region.bytes, Config.Space.unit, hsp] at hle
    omega
  have hsupports := shared_supports hl1 hplain.memory
  have hallowed : s.exclAllowed m ea ⟨l.region, p, .w32⟩ = .ok () := by
    unfold State.exclAllowed
    rw [hm.ex, hm.pm]
    cases ht : l.region.target <;> simp_all [isL1, refuseIf]
  have hsmmr : l.region.target ≠ .smmr := fun e => absurd hplain.memory (by rw [e]; decide)
  refine ⟨l.region, _, hsupports, hplain, exclusive_delivers hm (hsp ▸ hland) hl hsmmr (.inl hsp) hi hq hb
    (element_word hl hsp hphys hi hplain) hallowed⟩

theorem shared_load (hm : IsExclusive m pm a n false) (hi : Makes i s m true cy) (hq : s.simd = false) (hb : s.noBroadcast)
    (hland : Lands s a .nw 1 ea s1) (hp : OrdinaryWord s ea p) (habove : 0x20000000 ≤ p) (hc : s.cacheable pm p = false) :
    Completes i s fun t => ButHits { (s1.writeU (.r n) (s.wordAt p)).applyAz (false, true) with excl := some (p / 8) } t := by
  obtain ⟨r, sgn, hsup, hplain, hd⟩ := shared_delivers (cy := cy) hm hq hb hland hp habove hc
  obtain ⟨v, lines, heq, hv⟩ := exclusive_load (p := p) hm r (.inl hplain.memory) sgn
  rw [heq, hv hsup, readElement_plain m m.slot hplain rfl rfl, hsup] at hd
  exact completes_read hi hd rfl rfl rfl fun b hb => hplain.awake (List.mem_singleton.mp hb).symm

/-- A store touches the granule of its first byte. -/
theorem dropMonitor_own (p : Nat) : dropMonitor (some (p / 8)) p 4 = none := by
  rw [dropMonitor, if_pos]
  simp only [Config.exclGranule]
  omega

theorem applyAz_stores {s t : State} {runs : List (Nat × Nat)} (x : Bool × Bool) (h : ButStores s t runs) :
    ButStores (s.applyAz x) (t.applyAz x) runs := by
  obtain ⟨cells, b, c, rfl⟩ := h
  refine ⟨cells, b, c, ?_⟩
  unfold State.applyAz
  split <;> rfl

/-- A store of one element with an exclusive result for PEx. -/
theorem completes_exclusive_store {e : Element} {b : Nat} {v : BitVec b} {uses : List LineUse} {ts : List Config.Target}
    (hi : Makes i s m true cy) (hd : Delivers s m true cy { stores := [⟨e, v.toNat, uses⟩], touched := ts, az := [(false, true)] } s1)
    (hp : PlainFx s { stores := [⟨e, v.toNat, uses⟩], touched := ts }) :
    Completes i s fun t => StoredBytes s t e.phys e.width.bytes v ∧
      ButStores (s1.applyAz (false, true)) t [(e.phys, e.width.bytes)] := by
  obtain ⟨f, hf, hsame, h1⟩ := hd
  have hplain : PlainFx s { f with az := [] } := by
    obtain ⟨hs, ht, hlines, -, -, -⟩ := hp
    refine ⟨?_, ?_, ?_, hsame.mmr, rfl, hsame.bus⟩
    · rw [hsame.stores]
      exact hs
    · rw [hsame.touched]
      exact ht
    · rw [hsame.lines]
      exact hlines
  obtain ⟨hbut, hread⟩ := applyFx_stores (f := { f with az := [] }) h1 hplain hsame.regs hsame.monitor
  have hlast : s.applyFx f = (s.applyFx { f with az := [] }).applyAz (false, true) := by
    change (((s.applyLatches f).applyUpdate f.update).applyRegs f.regs).applyMemory f = _
    rw [applyMemory_eq, hsame.az]
    rfl
  generalize s.applyFx { f with az := [] } = t at hbut hread hlast
  dsimp only at hbut hread
  rw [hsame.stores] at hbut hread
  refine ⟨_, hi f hf, ?_⟩
  rw [hlast]
  refine ⟨storedBytes_of_read fun q => ?_, applyAz_stores _ hbut⟩
  change t.mem.read q = _
  rw [hread, ← numberAt_toNat]
  simp [storedBytes, Stored.bytes]

theorem shared_store (hm : IsExclusive m pm a n true) (hi : Makes i s m true cy) (hq : s.simd = false) (hb : s.noBroadcast)
    (hland : Lands s a .nw 1 ea s1) (hp : OrdinaryWord s ea p) (habove : 0x20000000 ≤ p) (hc : s.cacheable pm p = false) :
    Completes i s fun t =>
      if s.excl = some (p / 8) then
        StoredBytes s t p 4 (s.fx false n) ∧ ButStores (s1.applyAz (false, true)) t [(p, 4)] ∧ t.excl = none
      else ButHits (s1.applyAz (false, false)) t := by
  obtain ⟨r, sgn, hsup, hplain, hd⟩ := shared_delivers (cy := cy) hm hq hb hland hp habove hc
  have hholds : s.exclHolds ⟨r, p, .w32⟩ = decide (s.excl = some (p / 8)) := by
    simp [State.exclHolds, hsup, granuleOf, Config.exclGranule, beq_eq_decide]
  rw [exclusive_store hm r sgn, hholds] at hd
  have hexcl : s1.excl = s.excl := by
    obtain ⟨f, -, -, h1⟩ := hd
    obtain ⟨d, y, haddr⟩ := update_addressed s f
    rw [← h1, haddr]
  by_cases h : s.excl = some (p / 8)
  · simp only [h, decide_true, ↓reduceIte] at hd ⊢
    have hstore : PlainFx s {
        stores := [⟨⟨r, p, .w32⟩, (s.fx false n).toNat, s.elementUses m ⟨r, p, .w32⟩⟩], touched := [r.target] } := by
      refine ⟨fun x hx => ?_, plain_awake hplain.reads, by simp, rfl, rfl, rfl⟩
      rw [List.mem_singleton.1 hx]
      exact ⟨hplain.memory, hplain.writes, elementUses_plain hplain⟩
    refine (completes_exclusive_store hi hd hstore).imp fun t ⟨hbytes, hbut⟩ => ⟨hbytes, hbut, ?_⟩
    obtain ⟨cells, b, c, rfl⟩ := hbut
    change dropMonitor s1.excl p 4 = none
    rw [hexcl, h, dropMonitor_own]
  · simp only [h, decide_false, Bool.false_eq_true, ↓reduceIte] at hd ⊢
    exact completes_read hi hd rfl rfl rfl fun b hb => hplain.awake (List.mem_singleton.mp hb).symm

/-! ### Peripherals -/

/-- What an exclusive access to a peripheral delivers (R336). -/
theorem peripheral_delivers (hm : IsExclusive m pm a n store) (hq : s.simd = false) (hb : s.noBroadcast) (hh : s.seq.cacheHold = 0)
    (hland : Lands s a .bw 4 ea s1) (hl : locate ea.toNat = some l) (ht : l.region.target = .device) (h4 : l.off % 4 = 0)
    (ho : l.off + 4 ≤ l.region.count) : ∃ p sgn,
      Delivers s m true cy (s.transfer m (.reg (.r n)) ⟨l.region, p, .w32⟩ sgn false m.slot) s1 := by
  obtain ⟨-, hmem, -, -⟩ := locate_some hl
  have hsys : isSystem l.region.target = true := by rw [ht]; rfl
  obtain ⟨hsp, -⟩ := system_region _ hmem hsys
  have hallowed : s.exclAllowed m ea ⟨l.region, l.region.phys + l.off, .w32⟩ = .ok () := by
    unfold State.exclAllowed
    rw [hm.ex, ht]
    rfl
  exact ⟨_, _, exclusive_delivers hm (hsp ▸ hland) hl (by rw [ht]; exact Config.Target.noConfusion) (.inr ⟨hsp, h4⟩)
    (imdw_system s hsys) hq hb (element_system hl hsys ho hh) hallowed⟩

theorem peripheral_load (hm : IsExclusive m pm a n false) (hi : Makes i s m true cy) (hq : s.simd = false) (hb : s.noBroadcast)
    (hh : s.seq.cacheHold = 0) (hland : Lands s a .bw 4 ea s1) (hl : locate ea.toNat = some l) (ht : l.region.target = .device)
    (h4 : l.off % 4 = 0) (ho : l.off + 4 ≤ l.region.count) :
    Completes i s fun t => ∃ v, ButHits ((s1.writeU (.r n) v).applyAz (false, false)) t := by
  obtain ⟨p, sgn, hd⟩ := peripheral_delivers (cy := cy) hm hq hb hh hland hl ht h4 ho
  have hsup : supportsExcl l.region.target = false := by rw [ht]; rfl
  obtain ⟨v, lines, heq, -⟩ := exclusive_load (p := p) hm l.region (.inr hsup) sgn
  rw [heq, hsup] at hd
  refine (completes_read hi hd rfl rfl rfl fun b hb => ?_).imp fun t h => ⟨v, h⟩
  exact absurd (List.mem_singleton.mp hb) (by simp [ht])

theorem peripheral_store (hm : IsExclusive m pm a n true) (hi : Makes i s m true cy) (hq : s.simd = false) (hb : s.noBroadcast)
    (hh : s.seq.cacheHold = 0) (hland : Lands s a .bw 4 ea s1) (hl : locate ea.toNat = some l) (ht : l.region.target = .device)
    (h4 : l.off % 4 = 0) (ho : l.off + 4 ≤ l.region.count) :
    Completes i s fun t => ButHits (s1.applyAz (false, false)) t := by
  obtain ⟨p, sgn, hd⟩ := peripheral_delivers (cy := cy) hm hq hb hh hland hl ht h4 ho
  have hholds : s.exclHolds ⟨l.region, p, .w32⟩ = false := by
    rw [State.exclHolds, ht]
    rfl
  rw [exclusive_store hm l.region sgn, hholds] at hd
  exact completes_read hi hd rfl rfl rfl fun b hb => absurd (List.mem_singleton.mp hb) (by simp [ht])

end

/-! ### Core memory-mapped registers -/

/-- The core memory-mapped registers lie in no space. -/
theorem locate_core {ea : Word} (h : Config.inCmmrRange ea.toNat = true) : locate ea.toNat = none := by
  unfold locate
  rw [if_pos h]

/-- An address of a core memory-mapped register, which is not scaled, resolves to itself. -/
theorem resolve_core {s s0 : State} {m : Move} {ea : Word} (hz : m.size = .none) (hp : ∀ k md, m.addr ≠ .pre k md)
    (hl : Lands s m.addr .nw 1 ea s0) (hc : Config.inCmmrRange ea.toNat = true) :
    ∃ upd, s.resolve m = .ok ⟨ea, .none, false, upd⟩ ∧ unwrapped upd ∧ s0 = s.applyUpdate upd := by
  have hsp : spaceOf ea = none := by rw [spaceOf, locate_core hc]; rfl
  unfold State.resolve
  cases ha : m.addr with
  | direct x =>
    rw [ha] at hl
    obtain ⟨rfl, rfl⟩ := hl
    exact ⟨none, by simp [hz, sizeLegal], fun _ h => absurd h (by simp), rfl⟩
  | post k md =>
    rw [ha] at hl
    obtain ⟨rfl, -, hcirc, rfl⟩ := hl
    have hscale : s.scaleFor k (sizeScale .none) = 0 := by simp [State.scaleFor, hsp]
    have hsum : BitVec.ofInt 32 ((s.ireg k).toNat + s.scaledMod k md 0) = s.ireg k + md * BitVec.ofNat 32 1 := by
      have hzero : s.scaledMod k md 0 = md.toInt := by simp [State.scaledMod]
      rw [hzero, ofInt_add]
      simp
    refine ⟨some ⟨k, s.ireg k + md * BitVec.ofNat 32 1, false⟩, ?_, fun w h => by rw [← Option.some.inj h], ?_⟩
    · simp only [hscale, State.modified, hcirc, Bool.false_eq_true, ↓reduceIte, hsum, hz, sizeLegal, Bool.not_true]
    · exact (applyIndex_unwrapped (w := ⟨k, _, false⟩) rfl s).symm
  | pre k md => exact absurd ha (hp k md)

/-- The latches of an unintended access (R339). -/
theorem latches_unintended {f : Fx} (h : unwrapped f.update) (s : State)
    (hii : f.iira = s.sys.mode2.getLsbD 20) (hil : f.iladi = false) (hu : f.u64ma = false) :
    (s.applyLatches f).applyUpdate f.update = (s.applyUpdate f.update).unintended := by
  rw [latches_update h, unintended_marked, applyUpdate_mode2 s h, Fx.sticks, Fx.raises, hii, hil, hu]
  simp [flagBit]

/-- An access to a core memory-mapped register with its latch and its update. -/
theorem core_delivers {s s0 : State} {m : Move} {ea : Word} {cx cy : Bool} {f0 : Fx} (hz : m.size = .none)
    (hp : ∀ k md, m.addr ≠ .pre k md) (hg : (cx || cy) = true) (hl : Lands s m.addr .nw 1 ea s0)
    (hc : Config.inCmmrRange ea.toNat = true) (hf : ∀ upd, s.mmrFx m ⟨ea, .none, false, upd⟩ cx cy = .ok f0)
    (hi : f0.iira = s.sys.mode2.getLsbD 20) (hu : f0.u64ma = false) : Delivers s m cx cy f0 s0.unintended := by
  obtain ⟨upd, hres, hun, rfl⟩ := resolve_core hz hp hl hc
  have hmove : s.moveFx m cx cy = .ok { f0 with
      update := upd, iladi := false, hits := if f0.performed then s.dataHits m.pm m.store ea else 0#3 } := by
    unfold State.moveFx
    simp only [hg, hres, hc, hf, Bool.not_true, Bool.false_eq_true, ↓reduceIte]
  refine ⟨_, hmove, ⟨rfl, rfl, rfl, rfl, rfl, rfl, rfl, rfl, rfl⟩, latches_unintended ?_ s ?_ rfl ?_⟩
  · exact hun
  · exact hi
  · exact hu

section
variable {s s1 : State} {i : Instr} {m : Move} {pm : Bool} {a : Addr} {n : RegNo} {store : Bool} {ea : Word} {cy : Bool}

/-- An exclusive access to a core memory-mapped register fails (R334, R336). -/
theorem mmrFx_exclusive (hm : IsExclusive m pm a n store) (hq : s.simd = false) (hb : s.noBroadcast) :
    ∃ near v, ∀ upd, s.mmrFx m ⟨ea, .none, false, upd⟩ true cy = .ok {
      iira := s.sys.mode2.getLsbD 20, near := near, az := [(false, false)], regs := if store then [] else [(.r n, .w32 v)] } := by
  refine ⟨((mmrAt ea.toNat).map CoreMmr.isCache).getD false, (Config.freeLong (s.slot m.slot)).truncate 32, fun upd => ?_⟩
  have hreach : s.reaches m ⟨ea, .none, false, upd⟩ true cy = true := by
    simp [State.reaches, hq, notBroadcast hb m]
  unfold State.mmrFx
  simp only [hreach, hm.dual, hq, notBroadcast hb m, hm.ex, hm.store, hm.what]
  cases store <;> rfl

/-- What an exclusive access to a core memory-mapped register does: it fails, and is an unintended access all the same (R339). -/
theorem core_exclusive (hm : IsExclusive m pm a n store) (hi : Makes i s m true cy) (hq : s.simd = false) (hb : s.noBroadcast)
    (hp : ∀ k md, a ≠ .pre k md) (hl : Lands s a .nw 1 ea s1) (hc : Config.inCmmrRange ea.toNat = true) :
    Completes i s fun t => ∃ v, ButHits ((s1.unintended.applyRegs (if store then [] else [(.r n, .w32 v)])).applyAz (false, false)) t := by
  obtain ⟨near, v, hf⟩ := mmrFx_exclusive (ea := ea) (cy := cy) hm hq hb
  have hd := core_delivers hm.size (by rw [hm.addr]; exact hp) rfl (by rw [hm.addr]; exact hl) hc hf rfl rfl
  exact (completes_read hi hd rfl rfl rfl (by simp)).imp fun t h => ⟨v, h⟩

end

/-- Settles O27. -/
theorem exclusiveAccesses : Obligations.ExclusiveAccesses := by
  intro s cond post pm i m n addr hcx hq hb shared peripheral core az loads stores
  have hloads : ∀ {x mv pm a cy}, IsExclusive mv pm a n false → Makes x s mv true cy → loads x pm a := by
    intro x mv pm a cy hm hi s1
    refine ⟨fun p ⟨ea, hl, hp, habove, hc⟩ => shared_load hm hi hq hb hl hp habove hc,
      fun ⟨ea, l, hh, hl, hloc, ht, h4, ho⟩ => peripheral_load hm hi hq hb hh hl hloc ht h4 ho,
      fun ⟨ea, hp, hl, hc⟩ => core_exclusive hm hi hq hb hp hl hc⟩
  have hstores : ∀ {x mv pm a cy}, IsExclusive mv pm a n true → Makes x s mv true cy → stores x pm a := by
    intro x mv pm a cy hm hi s1
    refine ⟨fun p ⟨ea, hl, hp, habove, hc⟩ => shared_store hm hi hq hb hl hp habove hc,
      fun ⟨ea, l, hh, hl, hloc, ht, h4, ho⟩ => peripheral_store hm hi hq hb hh hl hloc ht h4 ho,
      fun ⟨ea, hp, hl, hc⟩ => (core_exclusive hm hi hq hb hp hl hc).imp fun t ⟨v, h⟩ => h⟩
  let byReg (store : Bool) : Move := {
    pm := pm, addr := s.regAddr pm post i m, store := store, what := .reg (.r n), ex := true, gate := cond }
  let direct (store : Bool) : Move := { pm := false, addr := .direct addr, store := store, what := .reg (.r n), ex := true }
  have hmake {x : Instr} {store : Bool} (h : exec x s = (s.moveOnly (byReg store) (s.cx cond) (s.cy cond)).outcome) :
      Makes x s (byReg store) true (s.cy cond) := by
    rw [hcx] at h
    exact makes_alone h
  refine ⟨hloads (mv := byReg false) (cy := s.cy cond) ⟨rfl, rfl, rfl, rfl, rfl, rfl, rfl⟩ (hmake rfl),
    hloads (mv := direct false) (cy := true) ⟨rfl, rfl, rfl, rfl, rfl, rfl, rfl⟩ (makes_alone rfl),
    hstores (mv := byReg true) (cy := s.cy cond) ⟨rfl, rfl, rfl, rfl, rfl, rfl, rfl⟩ (hmake rfl),
    hstores (mv := direct true) (cy := true) ⟨rfl, rfl, rfl, rfl, rfl, rfl, rfl⟩ (makes_alone rfl)⟩

end Sys2Proof.Machine
end

section
/-! PROOFS. Core memory-mapped registers (R318 to R324, R327, R339, R346, R358, R370, R372, R1081, R1138, R1153, R1176, R1177). -/

namespace Sys2Proof.Machine

open Sys2Proof

/-! ### Blocks that lose their contents (R324) -/

theorem lookupCell_filter {p : Nat} {keep : Host.Cell → Bool} (h : ∀ c : Host.Cell, c.1 = p → keep c = true) (l : List Host.Cell) :
    lookupCell p (l.filter keep) = lookupCell p l := by
  induction l with
  | nil => rfl
  | cons c l ih =>
    obtain ⟨a, v⟩ := c
    by_cases ha : a = p
    · rw [List.filter_cons_of_pos (h _ ha), lookupCell, lookupCell, if_pos ha, if_pos ha]
    · by_cases hk : keep (a, v) = true
      · rw [List.filter_cons_of_pos hk, lookupCell, lookupCell, if_neg ha, if_neg ha, ih]
      · rw [List.filter_cons_of_neg hk, ih, lookupCell, if_neg ha]

/-- The loss of a block leaves the bytes of the others. -/
theorem Memory.lose_read (m : Memory) {b : Fin 4} (k : Nat) {p : Nat} (h : blockOf p ≠ some b) : (m.lose b k).read p = m.read p := by
  have hcells : lookupCell p (m.lose b k).cells = lookupCell p m.cells :=
    lookupCell_filter (fun c hc => by simpa [hc] using h) m.cells
  rw [Memory.read, Memory.read, Memory.fill_lose m b k p h, hcells]

/-- A shutdown of blocks keeps the power states, and the bytes of every block that it does not newly shut down. -/
theorem setShutdown_mem (s : State) (sysctl pwr : Word) :
    (s.setShutdown sysctl pwr).mem.power = s.mem.power ∧
    ∀ p, (∀ b, blockOf p = some b → shutBlocks sysctl pwr b = true → shutBlocks s.mmr.sysctl s.mmr.pwrL1Sd b = true) →
      (s.setShutdown sysctl pwr).mem.read p = s.mem.read p := by
  unfold State.setShutdown
  dsimp only
  generalize [(0 : Fin 4), 1, 2, 3] = l
  generalize s.mem = m
  induction l generalizing m with
  | nil => exact ⟨rfl, fun _ _ => rfl⟩
  | cons b l ih =>
    obtain ⟨hpower, hread⟩ := ih (if shutBlocks sysctl pwr b && !shutBlocks s.mmr.sysctl s.mmr.pwrL1Sd b then m.lose b (s.slot 24) else m)
    refine ⟨hpower.trans (by split <;> rfl), fun p hp => (hread p hp).trans ?_⟩
    split
    · rename_i hlost
      obtain ⟨hnew, hold⟩ := (Bool.and_eq_true _ _).mp hlost
      exact Memory.lose_read m _ fun hb => absurd (hp b hb hnew) (by simpa using hold)
    · rfl

/-! ### A store, register by register -/

section
variable (s : State) (r : CoreMmr) (v : Word)

/-- A store to a core memory-mapped register leaves these parts of the state. -/
theorem writeMmr_keeps :
    (s.writeMmr r v).data = s.data ∧ (s.writeMmr r v).dag = s.dag ∧ (s.writeMmr r v).excl = s.excl ∧ (s.writeMmr r v).free = s.free := by
  unfold State.writeMmr State.storeMmr State.writeSysctl State.writeGperr
  cases r <;> dsimp only <;> (repeat' split) <;> exact ⟨rfl, rfl, rfl, rfl⟩

/-- The register takes the value by its rule. -/
theorem writeMmr_mmr : (s.writeMmr r v).mmr = storedMmr s r v := by
  unfold State.writeMmr State.storeMmr State.writeSysctl State.writeGperr storedMmr
  cases r <;> dsimp only <;> (repeat' split) <;> rfl

theorem writeMmr_posted : (s.writeMmr r v).posted = { was := s.mmr, left := 5 } :: s.posted := rfl

/-- A store to SHL1C_CFG drops the lines of the caches that it invalidates. -/
theorem writeMmr_lines : (s.writeMmr r v).cache.lines =
    if r = .l1cCfg then s.cache.lines.filter fun x => !v.getLsbD (x.unit.base + 6) else s.cache.lines := by
  by_cases h : r = .l1cCfg
  · rw [if_pos h, h]
    rfl
  · rw [if_neg h]
    unfold State.writeMmr State.storeMmr State.writeSysctl State.writeGperr
    cases r with
    | l1cCfg => exact absurd rfl h
    | _ => dsimp only <;> (repeat' split) <;> rfl

theorem writeMmr_near : (s.writeMmr r v).cache.near = s.cache.near := by
  unfold State.writeMmr State.storeMmr State.writeSysctl State.writeGperr
  cases r <;> dsimp only <;> (repeat' split) <;> rfl

/-- The notes on early ranges change with the range registers and with their functions (R372). -/
theorem writeMmr_early (hrange : r.isRange = false) (hcfg2 : r ≠ .l1cCfg2) : (s.writeMmr r v).cache.early = s.cache.early := by
  unfold State.writeMmr State.storeMmr State.writeSysctl State.writeGperr
  cases r with
  | l1cStart k | l1cEnd k => exact absurd hrange (by simp [CoreMmr.isRange])
  | l1cCfg2 => exact absurd rfl hcfg2
  | _ => dsimp only <;> (repeat' split) <;> rfl

/-- A store asks for a reset, or opens the windows of the branch target buffer and of the caches (R372, R1138, R1204). -/
theorem writeMmr_seq : (s.writeMmr r v).seq = { s.seq with
    srst := if r = .sysctl ∧ v.getLsbD 0 = true then 2 else s.seq.srst
    btbHold := if r ∈ [.btbCfg, .btbLockStart, .btbLockEnd] then 13 else s.seq.btbHold
    cacheHold := if r ∈ [.l1cCfg, .l1cCfg2] then 13 else s.seq.cacheHold } := by
  unfold State.writeMmr State.storeMmr State.writeSysctl State.writeGperr
  cases r with
  | sysctl => cases hv : v.getLsbD 0 <;> simp [State.setShutdown]
  | btbCfg | btbLockStart | btbLockEnd | l1cCfg | l1cCfg2 => simp
  | _ => simp <;> (repeat' split) <;> rfl

/-- An artificial parity error latches PARI (R1081). -/
theorem writeMmr_sys_eq : (s.writeMmr r v).sys =
    { s.sys with irptl := s.sys.irptl ||| (if r = .gperrStat ∧ v ≠ 0#32 then 0x8#32 else 0#32) } := by
  by_cases h : r = .gperrStat ∧ v ≠ 0#32
  · obtain ⟨rfl, hv⟩ := h
    rw [if_pos ⟨rfl, hv⟩]
    unfold State.writeMmr State.storeMmr State.writeGperr
    dsimp only
    rw [if_neg hv]
    split <;> rfl
  · rw [if_neg h]
    unfold State.writeMmr State.storeMmr State.writeSysctl State.writeGperr
    cases r with
    | gperrStat =>
      have hv : v = 0#32 := by simpa using h
      simp [hv]
    | _ => simp <;> (repeat' split) <;> rfl

/-- A store to SECI_ID acknowledges the event (R1176). -/
theorem writeMmr_bus : (s.writeMmr r v).bus = if r = .seciId then Config.BusEvent.secAck :: s.bus else s.bus := by
  by_cases h : r = .seciId
  · rw [if_pos h, h]
    rfl
  · rw [if_neg h]
    unfold State.writeMmr State.storeMmr State.writeSysctl State.writeGperr
    cases r with
    | seciId => exact absurd rfl h
    | _ => dsimp only <;> (repeat' split) <;> rfl

/-- Only the power controls reach memory (R322, R324). -/
theorem writeMmr_mem (h : r ∉ [CoreMmr.sysctl, .pwrL1Sd, .pwrL1Ls]) : (s.writeMmr r v).mem = s.mem := by
  unfold State.writeMmr State.storeMmr State.writeSysctl State.writeGperr
  cases r with
  | sysctl | pwrL1Sd | pwrL1Ls => exact absurd h (by simp)
  | _ => dsimp only <;> (repeat' split) <;> rfl

/-- Light sleep puts blocks to sleep and wakes them, and keeps their bytes (R324). -/
theorem writeMmr_lightSleep : SameBytes s (s.writeMmr .pwrL1Ls v) ∧ ∀ b : Fin 4, (s.writeMmr .pwrL1Ls v).mem.power[b] =
    if v.getLsbD b then (if s.mmr.pwrL1Ls.getLsbD b then s.mem.power[b] else .asleep) else .awake := by
  have hbit : ∀ b : Fin 4, (v &&& 0xF#32).getLsbD b = v.getLsbD b := by
    intro b
    fin_cases b <;> simp
  refine ⟨fun _ => rfl, fun b => ?_⟩
  rw [← hbit b]
  fin_cases b <;> rfl

/-- A shutdown loses the bytes of the blocks that it newly shuts down, and no others (R322, R324). -/
theorem writeMmr_shutdown (h : r ∈ [CoreMmr.sysctl, .pwrL1Sd]) : let t := s.writeMmr r v
    t.mem.power = s.mem.power ∧ ∀ p, (∀ b, blockOf p = some b → shutBlocks t.mmr.sysctl t.mmr.pwrL1Sd b = true →
      shutBlocks s.mmr.sysctl s.mmr.pwrL1Sd b = true) → t.mem.read p = s.mem.read p := by
  simp only [List.mem_cons, List.not_mem_nil, or_false] at h
  rcases h with rfl | rfl
  · have hmem : (s.writeMmr .sysctl v).mem = (s.setShutdown (v &&& 0x4603FE0D#32) s.mmr.pwrL1Sd).mem := by
      unfold State.writeMmr State.storeMmr State.writeSysctl
      dsimp only
      split <;> rfl
    dsimp only
    rw [hmem, writeMmr_mmr]
    exact setShutdown_mem s _ _
  · exact setShutdown_mem s _ _

end

/-! ### The access -/

/-- An access that the restrictions on cache registers allow (R370, R372). -/
theorem mmrRefusal_free {s : State} {pm store : Bool} {r : CoreMmr} {v : Word} (h : s.cacheFree pm store r v) (addr : Nat) :
    s.mmrRefusal pm false store r addr v = none := by
  unfold State.mmrRefusal
  cases hc : r.isCache with
  | false => rfl
  | true =>
    obtain ⟨hruns, hpm, hext, hhold, hstore⟩ := h hc
    have hwindow : s.inCacheWindow store r = false := by simp [State.inCacheWindow, hhold]
    cases store with
    | false => simp [hruns, hpm, hext, hwindow]
    | true =>
      obtain ⟨hlow, hcfg, hcfg2⟩ := hstore rfl
      have hbits : (r.isRange && lowBits v) = false := by
        cases hr : r.isRange with
        | false => rfl
        | true => exact hlow hr
      have hflushed : s.unflushed r v = false := by
        cases r with
        | l1cCfg => simpa [State.unflushed] using hcfg rfl
        | l1cCfg2 =>
          rcases hcfg2 rfl with hl | hl
          · simp [State.unflushed, hl]
          · simp [State.unflushed, hl]
        | _ => rfl
      simp [hruns, hpm, hext, hwindow, hbits, hflushed]

/-- The latches of an unintended access lie in the system registers. -/
theorem unintended_sys (s : State) : s.unintended = { s with sys := s.unintended.sys } := by
  unfold State.unintended
  split <;> rfl

/-- The move of Type 14a. -/
def directMove (pm store : Bool) (u : UReg) (addr : Word) : Move := { pm := pm, addr := .direct addr, store := store, what := .reg u }

section
variable {s : State} {pm : Bool} {u : UReg} {addr : Word} {r : CoreMmr}

/-- A direct access to a core memory-mapped register in SISD mode. -/
theorem mmrFx_direct (store : Bool) (hr : mmrAt addr.toNat = some r) (hq : s.simd = false)
    (hfree : s.cacheFree pm store r (s.readU u)) (upd : Option IndexWrite) :
    s.mmrFx (directMove pm store u addr) ⟨addr, .none, false, upd⟩ true true = .ok {
      iira := s.sys.mode2.getLsbD 20, near := r.isCache, mmr := if store then some (r, s.readU u) else none
      regs := if store then [] else [(if u = .px then .px1 else u, .w32 (s.readMmr r))] } := by
  have hb : s.isBroadcast (directMove pm store u addr) = false := by simp [directMove, State.isBroadcast]
  have hreach : s.reaches (directMove pm store u addr) ⟨addr, .none, false, upd⟩ true true = true := by simp [State.reaches, hq, hb]
  have hallowed := mmrRefusal_free hfree addr.toNat
  have hgate : (Cond.true_ != Cond.true_) = false := rfl
  unfold State.mmrFx
  simp only [hreach, hb, hq, hr]
  dsimp only [directMove]
  rw [hgate, hallowed]
  cases store <;> rfl

theorem makes_direct (store : Bool) :
    Makes (if store then .storeUregDirect pm false u addr else .loadUregDirect pm false u addr) s (directMove pm store u addr) true true :=
  makes_alone (by cases store <;> rfl)

theorem core_load (hc : Config.inCmmrRange addr.toNat = true) (hr : mmrAt addr.toNat = some r) (hq : s.simd = false)
    (hfree : s.cacheFree pm false r (s.readU u)) : Completes (.loadUregDirect pm false u addr) s fun t =>
      ButHits (s.unintended.writeU (if u = .px then .px1 else u) (s.readMmr r)) t := by
  have hd := core_delivers (s := s) (s0 := s) (m := directMove pm false u addr) (cx := true) (cy := true) rfl
    (by simp [directMove]) rfl ⟨rfl, rfl⟩ hc (mmrFx_direct false hr hq hfree) rfl rfl
  refine (completes_read (makes_direct false) hd rfl rfl rfl (by simp)).imp fun t h => ?_
  rw [← writeVal_w32]
  exact h

/-- A store to a core memory-mapped register: its write, after the latches of the access. -/
theorem core_store (hc : Config.inCmmrRange addr.toNat = true) (hr : mmrAt addr.toNat = some r) (hq : s.simd = false)
    (hfree : s.cacheFree pm true r (s.readU u)) : ∃ b,
      exec (.storeUregDirect pm false u addr) s = .next (State.writeMmr { s with
        sys := s.unintended.sys
        cache := { s.cache with near := if r.isCache then 13 else s.cache.near }
        bdry := b } r (s.readU u)) := by
  have hfx : ∀ upd, s.mmrFx (directMove pm true u addr) ⟨addr, .none, false, upd⟩ true true = .ok {
      iira := s.sys.mode2.getLsbD 20, near := r.isCache, mmr := some (r, s.readU u) } := mmrFx_direct true hr hq hfree
  obtain ⟨f, hf, hsame, h1⟩ := core_delivers (s := s) (s0 := s) (m := directMove pm true u addr) (cx := true) (cy := true) rfl
    (by simp [directMove]) rfl ⟨rfl, rfl⟩ hc hfx rfl rfl
  refine ⟨{ s.unintended.bdry with hits := s.unintended.bdry.hits ||| f.hits }, ?_⟩
  have hexec : exec (.storeUregDirect pm false u addr) s = .next (s.applyFx f) := makes_direct true f hf
  have hregs : f.regs = [] := hsame.regs
  have hstores : f.stores = [] := hsame.stores
  have haz : f.az = [] := hsame.az
  have hmmr : f.mmr = some (r, s.readU u) := hsame.mmr
  have hnear : f.near = r.isCache := hsame.near
  rw [hexec, State.applyFx, h1, applyMemory_eq, haz, hmmr, hregs, hstores, applyRegs_nil]
  unfold State.accessed
  rw [hsame.touched, hsame.monitor, hsame.bus, hsame.lines, hnear, unintended_sys]
  rfl

/-- R372 rules out a conditional access to a cache register. -/
theorem cache_conditional {cond : Cond} {store : Bool} {i m : DagNo} {r : CoreMmr} {u : UReg}
    (hcond : cond ≠ .true_) (hcx : s.cx cond = true) (hq : s.simd = false) (hruns : s.mmr.invRuns = false)
    (hc : Config.inCmmrRange (s.present (dagNo false i) (s.ireg (dagNo false i))).toNat = true)
    (hr : mmrAt (s.present (dagNo false i) (s.ireg (dagNo false i))).toNat = some r) (hcache : r.isCache = true) :
    exec (.moveUregSized cond true false store i m u .none) s =
      .refused (.cacheRestriction (s.present (dagNo false i) (s.ireg (dagNo false i))).toNat) := by
  let mv : Move := { pm := false, addr := s.regAddr false true i m, store := store, what := .reg u, gate := cond }
  obtain ⟨w, hres⟩ := resolve_post (s := s) (m := mv) rfl rfl
  have hreach : ∀ q : Resolved, q.size = .none → s.reaches mv q true (s.cy cond) = true := by
    intro q hz
    simp [State.reaches, hz, hq]
  have hgate : (cond != Cond.true_) = true := by simpa using hcond
  have hrefused : ∀ a v, s.mmrRefusal false true store r a v = some (.cacheRestriction a) := by
    intro a v
    simp [State.mmrRefusal, hcache, hruns]
  change (s.moveOnly mv (s.cx cond) (s.cy cond)).outcome = _
  rw [State.moveOnly, hcx, State.moveFx, hres]
  simp only [Bool.true_or, Bool.not_true, Bool.false_eq_true, ↓reduceIte, hc]
  rw [State.mmrFx, hreach _ rfl]
  simp only [hr, hq]
  dsimp only [mv]
  rw [hgate, hrefused]
  rfl

end

/-- Settles O35: a load delivers its register, a store is its write after the latches of the access, and the write is told register by register. -/
theorem coreRegisters : Obligations.CoreRegisters := by
  refine ⟨fun s pm u addr r hc hr hq => ⟨core_load hc hr hq, fun hfree => ?_⟩,
    fun s cond store i m u r hcond hcx hq hruns hc hr hcache => cache_conditional hcond hcx hq hruns hc hr hcache, fun s => rfl⟩
  obtain ⟨b, hexec⟩ := core_store hc hr hq hfree
  obtain ⟨hdata, hdag, hexcl, hfree'⟩ := writeMmr_keeps _ r _
  exact ⟨_, hexec, writeMmr_mmr _ r _, writeMmr_posted _ r _, hdata, hdag, hexcl, hfree', writeMmr_lines _ r _, writeMmr_near _ r _,
    fun h h' => writeMmr_early _ r _ h h', writeMmr_seq _ r _, writeMmr_sys_eq _ r _, writeMmr_bus _ r _, writeMmr_mem _ r _,
    fun h => h ▸ writeMmr_lightSleep _ _, fun h => writeMmr_shutdown _ r _ h⟩

end Sys2Proof.Machine
end

section
/-! PROOFS. BITREV and the conversion of addresses (R261, R265, R280, R338, R533, R663). -/

namespace Sys2Proof.Machine

open Sys2Proof

/-! ### The ranges of one storage -/

theorem regions_disjoint : ∀ r ∈ Config.regions, ∀ q ∈ Config.regions,
    q = r ∨ q.base + q.count ≤ r.base ∨ r.base + r.count ≤ q.base := by decide

/-- Every normal-word range has a byte range of the same storage, and is the normal-word range of that one. -/
theorem nw_alias : ∀ r ∈ Config.regions, r.space = .nw → ∃ k ∈ Config.regions,
    aliasOf r .bw = some k ∧ aliasOf k .nw = some r ∧ k.space = .bw ∧ k.target = r.target ∧ k.phys = r.phys ∧
    4 * r.count ≤ k.count ∧ k.base + k.count ≤ 2 ^ 32 ∧ 0x40000 ≤ k.base := by decide

/-- A unit of a populated range is located there: no other range holds its address. -/
theorem locate_region {r : Config.Region} {off : Nat} (hr : r ∈ Config.regions) (hoff : off < r.count)
    (hc : Config.inCmmrRange (r.base + off) = false) : locate (r.base + off) = some ⟨r, off⟩ := by
  have hsome : (Config.regions.find? fun q => decide (q.base ≤ r.base + off ∧ r.base + off < q.base + q.count)).isSome = true :=
    List.find?_isSome.2 ⟨r, hr, by simpa using hoff⟩
  obtain ⟨q, hq⟩ := Option.isSome_iff_exists.1 hsome
  have hin := List.find?_some hq
  simp only [decide_eq_true_eq] at hin
  have hqr : q = r := by
    rcases regions_disjoint r hr q (List.mem_of_find?_eq_some hq) with h | h | h
    · exact h
    · omega
    · omega
  rw [locate, if_neg (by simp [hc]), hq, hqr, Option.map_some, Nat.add_sub_cancel_left]

/-! ### Conversions -/

theorem aliasAddr_of_located {a : Word} {l : Loc} {k : Config.Region} {sp : Config.Space} {off : Nat} (hl : locate a.toNat = some l)
    (hk : aliasOf l.region sp = some k) (hunits : l.off * l.region.space.unit / sp.unit = off) (hoff : off < k.count) :
    aliasAddr a sp = some (BitVec.ofNat 32 (k.base + off)) := by
  unfold aliasAddr
  rw [hl]
  dsimp only
  rw [hk]
  dsimp only
  rw [hunits, if_pos hoff]

/-- A normal-word address converts to the byte address of the same storage, which converts to itself, and back. -/
theorem convert_nw {a : Word} {l : Loc} (hl : locate a.toNat = some l) (hsp : l.region.space = .nw) : ∃ r k,
    convert true a = (r, false) ∧ convert false r = (a, false) ∧ convert true r = (r, false) ∧
    locate r.toNat = some k ∧ k.region.space = .bw ∧ k.region.target = l.region.target ∧ k.region.phys = l.region.phys ∧
    k.off = 4 * l.off := by
  obtain ⟨-, hmem, ha, hoff⟩ := locate_some hl
  obtain ⟨k, hk, hbw, hnw, hksp, htarget, hphys, hcount, hend, hstart⟩ := nw_alias _ hmem hsp
  have hin : 4 * l.off < k.count := by omega
  have hto := aliasAddr_of_located hl hbw (off := 4 * l.off) (by rw [hsp]; simp [Config.Space.unit, Nat.mul_comm]) hin
  obtain ⟨r, hr⟩ : ∃ r, r = BitVec.ofNat 32 (k.base + 4 * l.off) := ⟨_, rfl⟩
  have hlr : locate r.toNat = some ⟨k, 4 * l.off⟩ := by
    rw [hr, BitVec.toNat_ofNat, Nat.mod_eq_of_lt (by omega)]
    exact locate_region hk hin (by simp [Config.inCmmrRange]; omega)
  have hback : aliasAddr r .nw = some a := by
    rw [aliasAddr_of_located hlr hnw (off := l.off) (by rw [hksp]; simp [Config.Space.unit]) hoff, ← ha, BitVec.ofNat_toNat,
      BitVec.setWidth_eq]
  refine ⟨r, _, ?_, ?_, ?_, hlr, hksp, htarget, hphys, rfl⟩
  · simp [convert, spaceOf_locate hl, hsp, hto, hr]
  · simp [convert, spaceOf_locate hlr, hksp, hback]
  · simp [convert, spaceOf_locate hlr, hksp]

/-- A long-word or short-word address has no conversion (R265). -/
theorem convert_illegal {a : Word} (h : spaceOf a = some .lw ∨ spaceOf a = some .sw) (toByte : Bool) : convert toByte a = (a, true) := by
  rcases h with h | h <;> simp [convert, h]

/-! ### The instructions -/

theorem exec_bitrevImm (s : State) (pm : Bool) (src dst : DagNo) (data : Word) :
    exec (.bitrevImm pm src dst data) s = .next (s.setI (dagNo pm dst) (s.ireg (dagNo pm src) + data).reverse) := by
  have hindex := applyFx_index s false ⟨dagNo pm dst, (s.ireg (dagNo pm src) + data).reverse, false⟩
  rw [applyIndex_unwrapped rfl] at hindex
  exact congrArg _ hindex

section
variable {s : State} {cond : Cond} (hcx : s.cx cond = true) (pm : Bool) (src dst : DagNo) {toByte : Bool} {a r : Word}
include hcx

theorem exec_convertAddr (toByte breg : Bool) :
    exec (.convertAddr cond .none pm src dst toByte breg) s = .next (s.applyConvert (dagNo pm src) (dagNo pm dst) toByte breg true) := by
  change execConvertAddr cond .none pm src dst toByte breg s = _
  rw [execConvertAddr, compute_none, hcx]
  rfl

/-- A conversion that the space of the index register allows. -/
theorem exec_convertAddr_index (ha : s.ireg (dagNo pm src) = a) (h : convert toByte a = (r, false)) :
    exec (.convertAddr cond .none pm src dst toByte false) s = .next (s.setI (dagNo pm dst) r) := by
  rw [exec_convertAddr hcx]
  simp [State.applyConvert, State.raiseIf, ha, h]

/-- A conversion that the space of the base register allows. -/
theorem exec_convertAddr_base (h : convert toByte (s.breg (dagNo pm src)) = (r, false)) :
    exec (.convertAddr cond .none pm src dst toByte true) s = .next (s.setBOnly (dagNo pm dst) r) := by
  rw [exec_convertAddr hcx]
  simp [State.applyConvert, State.raiseIf, h]

theorem exec_convertAddr_illegal (h : convert toByte (s.ireg (dagNo pm src)) = (a, true)) :
    exec (.convertAddr cond .none pm src dst toByte false) s = .next (s.illegalSpace.setI (dagNo pm dst) a) := by
  rw [exec_convertAddr hcx]
  simp only [State.applyConvert, h, Bool.false_eq_true, ↓reduceIte]
  rfl

end

/-- The write of an index register leaves the conditions. -/
theorem cx_setI (s : State) (n : RegNo) (v : Word) (cond : Cond) : (s.setI n v).cx cond = s.cx cond := by
  obtain ⟨d, hd⟩ := setI_machine s n v
  rw [hd]
  rfl

/-- Settles O32: the normal-word and byte ranges stand in pairs, so that a conversion and its way back meet the same storage. -/
theorem addressConversion : Obligations.AddressConversion := by
  intro s cond pm src dst data l hcx a d
  refine ⟨⟨_, exec_bitrevImm s pm src dst data, _, rfl, fun j hj => ?_⟩, fun hl hsp => ?_, fun hl hsp => ?_, fun toByte h => ?_⟩
  · rw [BitVec.getLsbD_reverse, BitVec.getMsbD_eq_getLsbD]
    simp [hj]
    rfl
  · obtain ⟨r, k, hto, hback, hself, hlr, hspace, htarget, hphys, hoff⟩ := convert_nw hl hsp
    have hcx' : (s.setI d r).cx cond = true := (cx_setI s d r cond).trans hcx
    have hr : (s.setI d r).ireg d = r := by rw [ireg_setI, if_pos rfl]
    exact ⟨_, exec_convertAddr_index hcx pm src dst rfl hto, r, rfl, ⟨k, hlr, hspace, htarget, hphys, hoff⟩,
      exec_convertAddr_index hcx' pm dst src hr hback, exec_convertAddr_index hcx' pm dst src hr hself⟩
  · obtain ⟨r, k, hto, -, -, hlr, hspace, htarget, -, hoff⟩ := convert_nw hl hsp
    exact ⟨_, exec_convertAddr_base hcx pm src dst hto, r, rfl, k, hlr, hspace, htarget, hoff⟩
  · exact ⟨_, exec_convertAddr_illegal hcx pm src dst (convert_illegal h toByte), rfl⟩

end Sys2Proof.Machine
end

section
/-! PROOFS. The caches: the invalidation registers, cache operations, ranges that stop them (R370 to R372, R376, R667). -/

namespace Sys2Proof.Machine

open Sys2Proof

/-! ### The invalidation registers -/

theorem wbiRange_iff (cfg2 : Word) (k : Fin 8) :
    wbiRange cfg2 k = true ↔ k.val < 2 ∧ cfg2.getLsbD (2 * k) = true ∧ cfg2.getLsbD (2 * k + 1) = true := by
  simp [wbiRange, and_assoc]

theorem compute_wbi {m : Mmr} {k : Fin 8} (h : wbiRange m.l1cCfg2 k = true) : m.compute k =
    { m with invIxstart := BitVec.ofNat 32 (normalAddr m.l1cStart[k] / 64 % cacheSets m.l1cCfg)
             invCnt := BitVec.ofNat 32 (min ((normalAddr m.l1cEnd[k] - normalAddr m.l1cStart[k] + 63) / 64) (cacheSets m.l1cCfg)) } :=
  if_pos h

/-- One index less is left of a range operation, and some are left if there were more than one. -/
theorem remaining_ne_zero_iff (n : Word) : (if n = 0#32 then 0#32 else n - 1#32) ≠ 0#32 ↔ 1 < n.toNat := by
  split <;> bv_omega

/-- The move to the next index, where the operation runs on as long as more than one index was left (R370). -/
theorem cacheStep_eq (s : State) : s.cacheStep = s.setMmrs fun m => { m with
    invIxstart := m.invIxstart + 1#32, invCnt := if m.invCnt = 0#32 then 0#32 else m.invCnt - 1#32
    invRuns := decide (1 < m.invCnt.toNat) } := by
  simp only [State.cacheStep, remaining_ne_zero_iff]

/-! ### The lines that an operation drops -/

theorem mem_invalidateIndex (s : State) (us : List CacheUnit) (x : CacheLine) :
    x ∈ (s.invalidateIndex us).lines ↔ x ∈ s.cache.lines ∧
      ¬ (x.unit ∈ us ∧ s.wbiRange x.line = true ∧
        x.line / 64 % x.unit.sets s.gov.l1cCfg = s.mmr.invIxstart.toNat % x.unit.sets s.gov.l1cCfg) := by
  rw [State.invalidateIndex, List.mem_filter, Bool.not_eq_true', ← Bool.not_eq_true]
  simp only [Bool.and_eq_true, List.contains_iff_mem, beq_iff_eq, CacheUnit.setOf, and_assoc]

/-- The caches whose lines a word of Type 20a drops: a bit each for the instruction cache and the two data caches. -/
def droppedUnits (i dm pm : Bool) : List CacheUnit :=
  (if i then [.i] else []) ++ (if dm then [.dm] else []) ++ (if pm then [.pm] else [])

theorem mem_droppedUnits {u : CacheUnit} {i dm pm : Bool} : u ∈ droppedUnits i dm pm ↔
    (u = .i ∧ i = true) ∨ (u = .dm ∧ dm = true) ∨ (u = .pm ∧ pm = true) := by
  simp only [droppedUnits, List.mem_append, List.mem_ite_nil_right, List.mem_singleton, and_comm, or_assoc]

/-! ### Ranges that break R372 -/

theorem brokenRange_of_mixed {s : State} {k : Fin 8} (hon : s.gov.l1cCfg2.getLsbD (2 * k + 1) = true)
    (h : mixedRange s.gov.l1cStart[k] s.gov.l1cEnd[k] = true) : s.brokenRange = true := by
  have hpairs : ∀ j : Fin 8, j ∈ [(0 : Fin 8), 1, 2, 3, 4, 5, 6, 7] := by decide
  exact List.any_eq_true.2 ⟨k, hpairs k, by rw [hon, h, Bool.or_true, Bool.and_self]⟩

/-! ### Cache operations -/

section
variable {s : State} {a b c d e : Bool}

theorem exec_cacheOp_unnamed (hn : (a || b || c || d || e) = false) : exec (.cacheOp a b c d e) s = .next s := by
  change execCacheOp a b c d e s = _
  rw [execCacheOp, hn]
  rfl

theorem exec_cacheOp_named (hn : (a || b || c || d || e) = true) (hhold : s.seq.cacheHold = 0) (hranges : s.brokenRange = false) :
    exec (.cacheOp a b c d e) s = .next { s.cacheStep with cache := s.invalidateIndex (droppedUnits a b d) } := by
  change execCacheOp a b c d e s = _
  rw [execCacheOp, hn, hhold, hranges]
  rfl

/-- R372: no cache operation in the window, and none by broken ranges. -/
theorem exec_cacheOp_restricted (hn : (a || b || c || d || e) = true) (h : s.seq.cacheHold ≠ 0 ∨ s.brokenRange = true) :
    exec (.cacheOp a b c d e) s = .refused (.cacheRestriction s.seq.pc.toNat) := by
  have hstop : (decide (s.seq.cacheHold ≠ 0) || s.brokenRange) = true := by simpa using h
  change execCacheOp a b c d e s = _
  rw [execCacheOp, hn, hstop]
  rfl

end

/-- Settles O36: a store of END is the computation of the controller, a cache operation one index of each cache it names. -/
theorem cacheRanges : Obligations.CacheRanges := by
  refine ⟨fun s k v hk hsel hon => ?_, fun s a b c d e => ⟨exec_cacheOp_unnamed, fun hn hhold hranges => ?_, exec_cacheOp_restricted,
    fun k hon hstart hend hspaces => brokenRange_of_mixed hon (decide_eq_true ⟨hstart, hend, hspaces⟩)⟩⟩
  · have hstored : storedMmr s (.l1cEnd k) v = _ := compute_wbi ((wbiRange_iff _ k).2 ⟨hk, hsel, hon⟩)
    have hend : (s.mmr.l1cEnd.set k v)[k] = v := Vector.getElem_set_self _
    rw [hstored, hend]
    exact ⟨rfl, rfl⟩
  · refine ⟨_, exec_cacheOp_named hn hhold hranges, ?_, rfl, rfl, fun x => ?_⟩
    · rw [cacheStep_eq]
      rfl
    · rw [mem_invalidateIndex, mem_droppedUnits]

end Sys2Proof.Machine
end

section
/-! PROOFS. The compute and shift-immediate fields decode from their own encodings (R440 to R448). A word is read part by part:
each part of a word put together is the field placed there. -/

namespace Sys2Proof

/-! ### Fields of a word put together -/

section
variable {k n : Nat} (lo a len : Nat) (f : BitVec k)

@[simp] theorem getElem_place {i : Nat} (h : i < n) : (place n lo f)[i] = (decide (lo ≤ i) && f.getLsbD (i - lo)) := by
  have hsmall : i - lo < n := by omega
  rw [← BitVec.getLsbD_eq_getElem, getLsbD_place]
  simp [h, hsmall, ← decide_not]

/-- Where a word is read from below a field on, the part read holds the field too. -/
theorem extract_place_from_below (hlo : a ≤ lo) (h : a + len ≤ n) : (place n lo f).extractLsb' a len = place len (lo - a) f := by
  apply BitVec.eq_of_getElem_eq
  intro i hi
  have hin : a + i < n := by omega
  have hreach : lo ≤ a + i ↔ lo - a ≤ i := by omega
  have hoff : a + i - lo = i - (lo - a) := by omega
  simp [hin, hreach, hoff]

/-- Any part of a word that holds one field. -/
@[simp] theorem extractLsb'_place (h : a + len ≤ n) : (place n lo f).extractLsb' a len =
    if lo + k ≤ a then 0#len else if lo ≤ a then f.extractLsb' (a - lo) len else place len (lo - a) f := by
  split_ifs with habove hin
  · exact extract_place_high n lo a len f habove
  · exact extract_place_sub n lo a len f hin h
  · exact extract_place_from_below lo a len f (by omega) h

@[simp] theorem place_zero_width (x : BitVec n) : place n 0 x = x := by
  simp [place]

@[simp] theorem place_ofNat (v : Nat) : place n lo (BitVec.ofNat k v) = BitVec.ofNat n (v % 2 ^ k * 2 ^ lo) := by
  apply BitVec.eq_of_toNat_eq
  simp [place, Nat.shiftLeft_eq, Nat.mod_mul_mod]

@[simp] theorem place_beyond (h : n ≤ lo) : place n lo f = 0#n :=
  BitVec.shiftLeft_eq_zero h

end

theorem ne_of_getLsbD {n : Nat} {x y : BitVec n} (i : Nat) (h : x.getLsbD i ≠ y.getLsbD i) : x ≠ y :=
  fun hxy => h (congrArg (·.getLsbD i) hxy)

theorem ne_zero_of_extractLsb' {n : Nat} {x : BitVec n} (a len : Nat) (h : x.extractLsb' a len ≠ 0#len) : x ≠ 0#n := by
  rintro rfl
  exact h BitVec.extractLsb'_zero

/-! ### Codes of operations -/

@[simp] theorem sysRegOf_code (q : SysReg) : sysRegOf q.code = q := by cases q <;> rfl

@[simp] theorem pairOf_dblCode (p : Pair) : pairOf p.dblCode = .ok p := by
  revert p
  decide

@[simp] theorem mrPart?_code (p : MrPart) : mrPart? p.code = some p := by cases p <;> rfl

@[simp] theorem mfFixAlu?_code (a : MfFixAlu) : mfFixAlu? a.code = some a := by cases a <;> rfl

@[simp] theorem mfFltAluOf_code (a : MfFltAlu) : mfFltAluOf a.code = a := by cases a <;> rfl

@[simp] theorem except_ok_bind {ε α β : Type} (x : α) (f : α → Except ε β) : (Except.ok x >>= f) = f x := rfl

/-! ### Single-function fields (R440) -/

/-- The code of an ALU operation other than a dual add/subtract (R443), as every one of the ALU tables is. -/
def aluCode (op : BitVec 8) : Bool := op != 0#8 && op.extractLsb' 4 4 != 0x7#4 && op.extractLsb' 4 4 != 0xF#4

section
variable (cu : BitVec 2) {op : BitVec 8} {rn rx ry : RegNo} {c : Compute}

@[simp] theorem packSingle_fields :
    (packSingle cu op rn rx ry)[22] = false ∧ (packSingle cu op rn rx ry).extractLsb' 20 2 = cu ∧
      (packSingle cu op rn rx ry).extractLsb' 12 8 = op ∧ (packSingle cu op rn rx ry).extractLsb' 16 4 = op.extractLsb' 4 4 ∧
      (packSingle cu op rn rx ry).extractLsb' 8 4 = rn ∧ (packSingle cu op rn rx ry).extractLsb' 4 4 = rx ∧
      (packSingle cu op rn rx ry).extractLsb' 0 4 = ry := by
  simp [packSingle, extract_or]

theorem decodeCompute_alu (hop : aluCode op = true) (h : decodeAlu op rn rx ry = .ok c) :
    decodeCompute (packSingle 0#2 op rn rx ry) = .ok c := by
  obtain ⟨⟨h0, h7⟩, hF⟩ : (op ≠ 0#8 ∧ op.extractLsb' 4 4 ≠ 0x7#4) ∧ op.extractLsb' 4 4 ≠ 0xF#4 := by
    simpa [aluCode] using hop
  have hne : packSingle 0#2 op rn rx ry ≠ 0#23 := ne_zero_of_extractLsb' 12 8 (by simpa using h0)
  have hfix : (op.extractLsb' 4 4).toNat ≠ 7 := fun h => h7 (BitVec.eq_of_toNat_eq h)
  have hflt : (op.extractLsb' 4 4).toNat ≠ 15 := fun h => hF (BitVec.eq_of_toNat_eq h)
  simp (disch := omega) [decodeCompute, hne, h, -BitVec.extractLsb'_toNat]

theorem decodeCompute_mul (h : decodeMul op rn rx ry = .ok c) : decodeCompute (packSingle 1#2 op rn rx ry) = .ok c := by
  have hne : packSingle 1#2 op rn rx ry ≠ 0#23 := ne_zero_of_extractLsb' 20 2 (by simp)
  simp [decodeCompute, hne, h, -BitVec.extractLsb'_toNat]

theorem decodeCompute_shift (h : decodeShift op rn rx ry = .ok c) : decodeCompute (packSingle 2#2 op rn rx ry) = .ok c := by
  have hne : packSingle 2#2 op rn rx ry ≠ 0#23 := ne_zero_of_extractLsb' 20 2 (by simp)
  simp [decodeCompute, hne, h, -BitVec.extractLsb'_toNat]

end

/-! ### Fixed-point multiplies (R445) -/

section
variable {kind : BitVec 2} {m : MulMod} {mr bg : Bool} {rn rx ry : RegNo} {c : Compute}

@[simp] theorem packMacOp_fields : (packMacOp kind m mr bg).extractLsb' 6 2 = kind ∧ (packMacOp kind m mr bg)[5] = m.ySigned ∧
    (packMacOp kind m mr bg)[4] = m.xSigned ∧ (packMacOp kind m mr bg)[3] = m.frac ∧ (packMacOp kind m mr bg)[2] = mr ∧
    (packMacOp kind m mr bg)[1] = bg ∧ (packMacOp kind m mr bg)[0] = m.round := by
  simp [packMacOp, extract_or]

/-- A multiply code, whose two upper bits are not 0, is none of those that `decodeMul` knows by name. -/
theorem decodeMul_of_kind {op : BitVec 8} (h : op.extractLsb' 6 2 ≠ 0#2) : decodeMul op rn rx ry = decodeMac op rn rx ry := by
  have hge : 64 ≤ op.toNat := by
    by_contra hlt
    exact h (BitVec.eq_of_toNat_eq (by simp [Nat.shiftRight_eq_div_pow]; omega))
  have hhigh : op.extractLsb' 4 4 ≠ 0#4 := fun h0 => by
    have hdiv := congrArg BitVec.toNat h0
    simp [Nat.shiftRight_eq_div_pow] at hdiv
    omega
  simp (disch := omega) only [decodeMul, if_neg hhigh]

theorem decodeCompute_mac (hkind : kind ≠ 0#2) (h : decodeMac (packMacOp kind m mr bg) rn rx ry = .ok c) :
    decodeCompute (packSingle 1#2 (packMacOp kind m mr bg) rn rx ry) = .ok c :=
  decodeCompute_mul (by rw [decodeMul_of_kind (by simpa using hkind), h])

theorem decodeCompute_mulRn (acc : MulAcc) (hm : m.wellFormed = true) :
    decodeCompute (Compute.mulRn acc m rn rx ry).encode = .ok (.mulRn acc m rn rx ry) := by
  cases acc <;> exact decodeCompute_mac (by decide) (by simp [decodeMac, hm, -BitVec.extractLsb'_toNat])

theorem decodeCompute_mulMr (acc : MrAcc) (hm : m.wellFormed = true) :
    decodeCompute (Compute.mulMr bg acc m rx ry).encode = .ok (.mulMr bg acc m rx ry) := by
  cases acc <;> exact decodeCompute_mac (by decide) (by simp [decodeMac, hm, -BitVec.extractLsb'_toNat])

theorem decodeMul_sat (f mr bg s : Bool) :
    decodeMul (packRndSat false f mr bg s) rn rx ry = .ok (if mr then .satMr bg f s else .satRn bg f s rn) := by
  cases f <;> cases mr <;> cases bg <;> cases s <;> rfl

theorem decodeMul_rnd (mr bg s : Bool) :
    decodeMul (packRndSat true true mr bg s) rn rx ry = .ok (if mr then .rndMr bg s else .rndRn bg s rn) := by
  cases mr <;> cases bg <;> cases s <;> rfl

end

/-! ### Multifunction fields and MR transfers (R444, R446) -/

section
variable (code : BitVec 6) (rm ra rs : RegNo) (m a : Pair) (q : MfIn) (d : MfDblIn)

theorem decodeCompute_mr (w : BitVec 1) (p : MrPart) (rn : RegNo) :
    decodeCompute (packMr w p.code rn) = .ok (if w = 1#1 then .writeMr p rn else .readMr p rn) := by
  have hne : packMr w p.code rn ≠ 0#23 := ne_of_getLsbD 22 (by simp [packMr])
  have hw : ∀ w : BitVec 1, w[0] = decide (w = 1#1) := by decide
  rw [decodeCompute, if_neg hne]
  simp [packMr, extract_or, hw]

@[simp] theorem packMf_fields : (packMf code rm ra q)[22] = true ∧ (packMf code rm ra q).extractLsb' 17 5 = code.extractLsb' 1 5 ∧
    (packMf code rm ra q).extractLsb' 20 2 = code.extractLsb' 4 2 ∧ (packMf code rm ra q).extractLsb' 18 3 = code.extractLsb' 2 3 ∧
    (packMf code rm ra q).extractLsb' 16 3 = code.extractLsb' 0 3 ∧ (packMf code rm ra q).extractLsb' 16 2 = code.extractLsb' 0 2 ∧
    (packMf code rm ra q).extractLsb' 12 4 = rm ∧ (packMf code rm ra q).extractLsb' 8 4 = ra ∧ mfInOf (packMf code rm ra q) = q := by
  simp [packMf, extract_or, mfInOf]

@[simp] theorem packMfDbl_fields : (packMfDbl code m a d)[22] = true ∧ (packMfDbl code m a d).extractLsb' 17 5 = code.extractLsb' 1 5 ∧
    (packMfDbl code m a d).extractLsb' 20 2 = code.extractLsb' 4 2 ∧ (packMfDbl code m a d).extractLsb' 18 3 = code.extractLsb' 2 3 ∧
    (packMfDbl code m a d).extractLsb' 16 2 = code.extractLsb' 0 2 ∧
    (packMfDbl code m a d).extractLsb' 12 4 = m.dblCode ∧ (packMfDbl code m a d).extractLsb' 8 4 = a.dblCode ∧
    mfDblInOf (packMfDbl code m a d) = .ok d := by
  simp [packMfDbl, extract_or, mfDblInOf]

@[simp] theorem packMfDual_fields (kind : BitVec 2) : (packMfDual kind rm ra rs q)[22] = true ∧
    (packMfDual kind rm ra rs q).extractLsb' 20 2 = kind ∧ (packMfDual kind rm ra rs q).extractLsb' 16 4 = rs ∧
    (packMfDual kind rm ra rs q).extractLsb' 12 4 = rm ∧ (packMfDual kind rm ra rs q).extractLsb' 8 4 = ra ∧
    mfInOf (packMfDual kind rm ra rs q) = q := by
  simp [packMfDual, extract_or, mfInOf]

/-- A field with bit 22 set whose code is neither that of an MR transfer nor that of a dual add/subtract. -/
theorem decodeCompute_mf {f : BitVec 23} {c : Compute} (h22 : f[22] = true) (hmr : f.extractLsb' 17 5 ≠ 0#5)
    (hdual : f.extractLsb' 20 2 = 0#2 ∨ f.extractLsb' 20 2 = 1#2) (h : decodeMf f = .ok c) : decodeCompute f = .ok c := by
  have hne : f ≠ 0#23 := ne_of_getLsbD 22 (by simp [h22])
  obtain hk | hk := hdual <;> simp [decodeCompute, hne, h22, hmr, hk, h, -BitVec.extractLsb'_toNat]

/-- A dual add/subtract beside a multiply, fixed-point (kind 10) or floating-point (kind 11). -/
theorem decodeCompute_mfDual {kind : BitVec 2} (hkind : kind = 2#2 ∨ kind = 3#2) : decodeCompute (packMfDual kind rm ra rs q) =
    .ok (if kind = 2#2 then .mfFixAddSub rm ra rs q else .mfFltAddSub rm ra rs q) := by
  have hne : packMfDual kind rm ra rs q ≠ 0#23 := ne_of_getLsbD 22 (by simp)
  have hmr : (packMfDual kind rm ra rs q).extractLsb' 17 5 ≠ 0#5 :=
    ne_of_getLsbD 4 (by obtain rfl | rfl := hkind <;> simp [packMfDual])
  obtain rfl | rfl := hkind <;> simp [decodeCompute, hne, hmr, -BitVec.extractLsb'_toNat]

variable {code q}

theorem decodeCompute_packMf {c : Compute} (hmr : code.extractLsb' 1 5 ≠ 0#5)
    (hdual : code.extractLsb' 4 2 = 0#2 ∨ code.extractLsb' 4 2 = 1#2) (h : decodeMf (packMf code rm ra q) = .ok c) :
    decodeCompute (packMf code rm ra q) = .ok c :=
  decodeCompute_mf (by simp) (by simpa using hmr) (by simpa using hdual) h

theorem decodeCompute_mfFix (mu : MfFixMul) (al : MfFixAlu) :
    decodeCompute (Compute.mfFix mu al rm ra q).encode = .ok (.mfFix mu al rm ra q) := by
  cases mu <;> exact decodeCompute_packMf _ _ (by cases al <;> decide) (by cases al <;> decide)
    (by simp [decodeMf, packCode, extract_or])

theorem decodeCompute_mfMac (sub : Bool) (al : MfFixAlu) :
    decodeCompute (Compute.mfMac sub al ra q).encode = .ok (.mfMac sub al ra q) := by
  cases sub <;> exact decodeCompute_packMf _ _ (by cases al <;> decide) (by cases al <;> decide)
    (by simp [decodeMf, packCode, extract_or])

theorem decodeMf_flt (h : code.extractLsb' 2 3 = 6#3 ∨ code.extractLsb' 2 3 = 7#3) :
    decodeMf (packMf code rm ra q) = .ok (.mfFlt (mfFltAluOf (code.extractLsb' 0 3)) rm ra q) := by
  obtain h | h := h <;> simp [decodeMf, h, -BitVec.extractLsb'_toNat]

theorem decodeCompute_mfFlt (al : MfFltAlu) : decodeCompute (Compute.mfFlt al rm ra q).encode = .ok (.mfFlt al rm ra q) :=
  decodeCompute_packMf _ _ (by cases al <;> decide) (by cases al <;> decide)
    (by rw [decodeMf_flt _ _ (by cases al <;> decide)]; simp [extract_or])

theorem decodeCompute_mfDbl (sub : Bool) : decodeCompute (Compute.mfDbl sub m a d).encode = .ok (.mfDbl sub m a d) := by
  have hadd : decodeCompute (packMfDbl 0x03#6 m a d) = .ok (.mfDbl false m a d) :=
    decodeCompute_mf (by simp) (by simp) (by simp) (by simp [decodeMf])
  have hsub : decodeCompute (packMfDbl 0x07#6 m a d) = .ok (.mfDbl true m a d) :=
    decodeCompute_mf (by simp) (by simp) (by simp) (by simp [decodeMf, mfFixAlu?])
  cases sub with
  | false => exact hadd
  | true => exact hsub

end

/-- R443: a dual add/subtract, fixed-point (code 0111) or floating-point (code 1111). -/
theorem decodeCompute_dual {code : RegNo} (hcode : code = 0x7#4 ∨ code = 0xF#4) (ra rs rx ry : RegNo) :
    decodeCompute (packDual code rs ra rx ry) = .ok (if code = 0x7#4 then .fixAddSub ra rs rx ry else .fltAddSub ra rs rx ry) := by
  have hne : packDual code rs ra rx ry ≠ 0#23 := ne_of_getLsbD 16 (by obtain rfl | rfl := hcode <;> simp [packDual])
  rw [decodeCompute, if_neg hne]
  obtain rfl | rfl := hcode <;> simp [packDual, extract_or]

/-- The compute field of a well-formed computation decodes to it. -/
theorem decodeCompute_encode {c : Compute} (h : c.wellFormed = true) : decodeCompute c.encode = .ok c := by
  cases c with
  | none => rfl
  | fix2 op rn rx ry => exact decodeCompute_alu (by cases op <;> rfl) (by cases op <;> rfl)
  | fix1 op rn rx => exact decodeCompute_alu (by cases op <;> rfl) (by cases op <;> rfl)
  | flt2 op rn rx ry => exact decodeCompute_alu (by cases op <;> rfl) (by cases op <;> rfl)
  | flt1 op rn rx => exact decodeCompute_alu (by cases op <;> rfl) (by cases op <;> rfl)
  | fixComp u rx ry => exact decodeCompute_alu (by cases u <;> rfl) (by cases u <;> rfl)
  | fltComp rx ry => exact decodeCompute_alu rfl rfl
  | dbl2 s m x z => exact decodeCompute_alu (by cases s <;> rfl) (by cases s <;> simp [decodeAlu])
  | dblToInt t rn x => exact decodeCompute_alu (by cases t <;> rfl) (by cases t <;> simp [decodeAlu])
  | dblToIntBy t rn x ry => exact decodeCompute_alu (by cases t <;> rfl) (by cases t <;> simp [decodeAlu])
  | dbl1 op m x => exact decodeCompute_alu (by cases op <;> rfl) (by cases op <;> simp [decodeAlu])
  | dblComp | dblFloat | dblFloatBy | dblFromFlt | fltFromDbl | dblScalb => exact decodeCompute_alu rfl (by simp [decodeAlu])
  | fixAddSub ra rs rx ry => exact decodeCompute_dual (.inl rfl) ra rs rx ry
  | fltAddSub ra rs rx ry => exact decodeCompute_dual (.inr rfl) ra rs rx ry
  | mulRn acc m rn rx ry => exact decodeCompute_mulRn acc h
  | mulMr bg acc m rx ry => exact decodeCompute_mulMr acc h
  | rndRn bg s rn => exact decodeCompute_mul (decodeMul_rnd false bg s)
  | rndMr bg s => exact decodeCompute_mul (decodeMul_rnd true bg s)
  | satRn bg f s rn => exact decodeCompute_mul (decodeMul_sat f false bg s)
  | satMr bg f s => exact decodeCompute_mul (decodeMul_sat f true bg s)
  | clrMr bg => exact decodeCompute_mul (by cases bg <;> rfl)
  | fltMul rn rx ry => exact decodeCompute_mul rfl
  | dblMul | dblMulFlt | dblMulFlt2 => exact decodeCompute_mul (by simp [decodeMul])
  | readMr p rn => exact decodeCompute_mr 0#1 p rn
  | writeMr p rn => exact decodeCompute_mr 1#1 p rn
  | shift op rn rx ry => exact decodeCompute_shift (by cases op <;> rfl)
  | fieldOp op rn rx ry => exact decodeCompute_shift (by cases op <;> rfl)
  | shift1 op rn rx => exact decodeCompute_shift (by cases op <;> rfl)
  | bitext nu rn rx => exact decodeCompute_shift (by cases nu <;> rfl)
  | btst | bitdep | setBffwrp | getBffwrp => exact decodeCompute_shift rfl
  | mfFix mu al rm ra q => exact decodeCompute_mfFix rm ra mu al
  | mfMac sub al ra q => exact decodeCompute_mfMac ra sub al
  | mfFlt al rm ra q => exact decodeCompute_mfFlt rm ra al
  | mfFixAddSub rm ra rs q => exact decodeCompute_mfDual rm ra rs q (.inl rfl)
  | mfFltAddSub rm ra rs q => exact decodeCompute_mfDual rm ra rs q (.inr rfl)
  | mfDbl sub m a q => exact decodeCompute_mfDbl m a q sub

/-! ### What a compute field leaves to the types of a word -/

/-- Bit 22 of a compute field tells the multifunction computations and MR transfers; of the others no field has the unit code 11, so
that bits 22:20 are never 011, the mark of the d types. -/
structure UnitBits (f : BitVec 23) (multi : Bool) : Prop where
  multi : f.getLsbD 22 = multi
  unmarked : f.extractLsb' 20 3 ≠ 3#3

theorem unitBits_single {cu : BitVec 2} {op : BitVec 8} {rn rx ry : RegNo} (h : cu ≠ 3#2) :
    UnitBits (packSingle cu op rn rx ry) false := by
  have hcu : cu.extractLsb' 0 3 ≠ 3#3 := by
    revert cu
    decide
  exact ⟨by simp, by simpa [packSingle, extract_or] using hcu⟩

theorem unitBits_dual {code rs ra rx ry : RegNo} : UnitBits (packDual code rs ra rx ry) false :=
  ⟨by simp [packDual], by simp [packDual, extract_or]⟩

theorem unitBits_multi {f : BitVec 23} (h : f[22] = true) : UnitBits f true :=
  ⟨h, ne_of_getLsbD 2 (by simp [h])⟩

theorem unitBits_encode (c : Compute) : UnitBits c.encode c.isMulti := by
  have hmr (w : BitVec 1) (p : MrPart) (rn : RegNo) : UnitBits (packMr w p.code rn) true := unitBits_multi (by simp [packMr])
  have hmf (code : BitVec 6) (rm ra : RegNo) (q : MfIn) : UnitBits (packMf code rm ra q) true := unitBits_multi (by simp)
  have hdual (kind : BitVec 2) (rm ra rs : RegNo) (q : MfIn) : UnitBits (packMfDual kind rm ra rs q) true := unitBits_multi (by simp)
  have hdbl (code : BitVec 6) (m a : Pair) (d : MfDblIn) : UnitBits (packMfDbl code m a d) true := unitBits_multi (by simp)
  cases c with
  | none => exact ⟨rfl, by decide⟩
  | mulRn acc => cases acc <;> exact unitBits_single (by decide)
  | mulMr bg acc => cases acc <;> exact unitBits_single (by decide)
  | fixAddSub | fltAddSub => exact unitBits_dual
  | readMr | writeMr => exact hmr ..
  | mfFix mu => cases mu <;> exact hmf ..
  | mfMac sub => cases sub <;> exact hmf ..
  | mfFlt => exact hmf ..
  | mfFixAddSub | mfFltAddSub => exact hdual ..
  | mfDbl sub => cases sub <;> exact hdbl ..
  | _ => exact unitBits_single (by decide)

/-! ### Shift-immediate fields (R448) -/

section
variable (ex : BitVec 4) (op : BitVec 8) (data : Byte) (rn rx : RegNo)

@[simp] theorem packShiftImm_fields : (packShiftImm op data rn rx)[22] = false ∧
    (packShiftImm op data rn rx).extractLsb' 16 6 = op.extractLsb' 2 6 ∧ (packShiftImm op data rn rx).extractLsb' 8 8 = data ∧
    (packShiftImm op data rn rx).extractLsb' 4 4 = rn ∧ (packShiftImm op data rn rx).extractLsb' 0 4 = rx := by
  simp [packShiftImm, extract_or]

end

/-- The field and `dataex` of an immediate shift decode to it. -/
theorem decodeShiftImm_encode (sh : ShiftImm) : decodeShiftImm sh.encodeEx sh.encode = .ok sh := by
  cases sh with
  | shift op rn rx data =>
    have hop : place 8 2 (op.code.extractLsb' 2 6) = op.code := by cases op <;> rfl
    cases op <;> simp [decodeShiftImm, ShiftImm.encode, ShiftImm.encodeEx, hop] <;> rfl
  | btst rx data => simp [decodeShiftImm, ShiftImm.encode, ShiftImm.encodeEx]
  | fieldOp op rn rx b l =>
    have hop : place 8 2 (op.code.extractLsb' 2 6) = op.code := by cases op <;> rfl
    have hb : (l.extractLsb' 0 2 ++ b).extractLsb' 0 6 = b := BitVec.extractLsb'_append_eq_right
    have hlow : (l.extractLsb' 0 2 ++ b).extractLsb' 6 2 = l.extractLsb' 0 2 := BitVec.extractLsb'_append_eq_left
    have hl : l.extractLsb' 2 4 ++ l.extractLsb' 0 2 = l := BitVec.extractLsb'_append_extractLsb'
    cases op <;> simp [decodeShiftImm, ShiftImm.encode, ShiftImm.encodeEx, hop, hb, hlow, hl] <;> rfl
  | bitdep rx len =>
    have hlen : len.extractLsb' 8 4 ++ len.extractLsb' 0 8 = len := BitVec.extractLsb'_append_extractLsb'
    simp [decodeShiftImm, ShiftImm.encode, ShiftImm.encodeEx, hlen]
  | bitext nu rn len =>
    have hlen : len.extractLsb' 8 4 ++ len.extractLsb' 0 8 = len := BitVec.extractLsb'_append_extractLsb'
    cases nu <;> simp [decodeShiftImm, ShiftImm.encode, ShiftImm.encodeEx, hlen]
  | setBffwrp data =>
    have hdata : (0#1 ++ data).extractLsb' 0 7 = data := BitVec.extractLsb'_append_eq_right
    have hspare : (0#1 ++ data)[7] = false := by
      rw [BitVec.getElem_append]
      simp
    simp [decodeShiftImm, ShiftImm.encode, ShiftImm.encodeEx, hdata, hspare]

end Sys2Proof
end

section
/-! PROOFS. The 48-bit words of each type decode to the instruction they were made from (R490 and the type rules of files 40 to 43). -/

namespace Sys2Proof

/-! ### 48-bit words: what each decoder reads of a word of its type (R490) -/

@[simp] theorem whenZero_zero {n : Nat} (r : Except Reject Instr) : whenZero 0#n r = r := if_pos rfl

@[simp] theorem whenClass_false (r : Except Reject Instr) : whenClass false r = r := rfl

section
variable {cond : Cond} {c : Compute} (hc : c.wellFormed = true) (sh : ShiftImm) (pm store post l : Bool) (i m : DagNo) (reg : RegNo)
  (u : UReg) (size : Size)

theorem size3d_lxw (hs : (!store || size.storable) = true) : size3d store size.lxw.1 size.lxw.2.1 size.lxw.2.2 = .ok size := by
  revert hs
  cases size <;> revert store <;> decide

theorem lxw_of_subWord (h : size.subWord = true) : size.lxw.2.2 = false := by
  revert h
  cases size <;> decide

include hc in
theorem decode_type1 (dmStore : Bool) (dmi dmm : DagNo) (dmReg : RegNo) (pmStore : Bool) (pmi pmm : DagNo) (pmReg : RegNo) :
    decode (packType1 dmStore dmi dmm dmReg pmStore pmi pmm pmReg ||| place 48 0 c.encode) =
      .ok (.computeDualMove c dmStore dmi dmm dmReg pmStore pmi pmm pmReg) := by
  simp [decode, decode1a, packType1, extract_or, computeField, decodeCompute_encode hc]

include hc in
theorem decode_type2a : decodeCode (packType2a cond c) = .ok (if cond = .true_ then .ofCompute c else .ifCompute cond c) := by
  simp [decodeCode, packType2a, packCond, decode, decodeLow, decode2a, extract_or, computeField, condField, decodeCompute_encode hc]

include hc in
theorem decode_type3a (h : (!((store || post) && u.sameDag pm)) = true) :
    decode (packType3 cond post pm store l i m u ||| place 48 0 c.encode) =
      .ok (if store then .storeUreg cond c post pm i m l u else .loadUreg cond c post pm i m l u) := by
  have hmark := (unitBits_encode c).unmarked
  have hdecode := decodeCompute_encode hc
  cases store with
  | false =>
    have hclass : (post && u.sameDag pm) = false := Bool.eq_false_of_not_eq_true' h
    simp [decode, decode3a, packType3, packIM, extract_or, computeField, condField, hdecode, hmark, hclass]
  | true =>
    have hclass : u.sameDag pm = false := Bool.eq_false_of_not_eq_true' h
    simp [decode, decode3a, packType3, packIM, extract_or, computeField, condField, hdecode, hmark, hclass]

theorem decode_type3d (ex : Bool) (h : (!((store || post) && u.sameDag pm)) = true) (hs : (!store || size.storable) = true) :
    decodeCode (packType3d cond post pm store i m u size ex) =
      .ok (if store then .storeUregSized cond post pm i m u size ex else .loadUregSized cond post pm i m u size ex) := by
  have hsize := size3d_lxw store size hs
  cases store with
  | false =>
    have hclass : (post && u.sameDag pm) = false := Bool.eq_false_of_not_eq_true' h
    simp [decodeCode, packType3d, decode, decode3d, packType3, packIM, extract_or, condField, hsize, hclass]
  | true =>
    have hclass : u.sameDag pm = false := Bool.eq_false_of_not_eq_true' h
    simp [decodeCode, packType3d, decode, decode3d, packType3, packIM, extract_or, condField, hsize, hclass]

include hc in
theorem decode_type4a (data : BitVec 6) : decode (packType4 cond pm store i post data reg ||| place 48 0 c.encode) =
      .ok (if store then .storeDregImm cond c pm i post data reg else .loadDregImm cond c pm i post data reg) := by
  have hmark := (unitBits_encode c).unmarked
  cases store <;>
    simp [decode, decode4a, packType4, extract_or, computeField, condField, data6Field, hmark, decodeCompute_encode hc]

theorem decode_type4d (data : BitVec 6) (hw : size.subWord = true) (hs : (!store || size.storable) = true) :
    decodeCode (packType4d cond pm store i post data reg size) =
      .ok (if store then .storeDregImmSized cond pm i post data reg size else .loadDregImmSized cond pm i post data reg size) := by
  have hsize := size3d_lxw store size hs
  rw [lxw_of_subWord size hw] at hsize
  cases store <;> simp [decodeCode, packType4d, decode, decode4d, packType4, extract_or, condField, data6Field, hsize]

include hc in
theorem decode_type5 (dst src : UReg) : decode (packType5 cond dst src ||| place 48 0 c.encode) = .ok (.moveUreg cond c dst src) := by
  have hsrc : src.code.extractLsb' 2 5 ++ src.code.extractLsb' 0 2 = src.code := BitVec.extractLsb'_append_extractLsb'
  simp [decode, decode5move, packType5, extract_or, computeField, condField, decodeCompute_encode hc, hsrc]

include hc in
theorem decode_type5swap (creg : RegNo) :
    decode (packType5swap cond reg creg ||| place 48 0 c.encode) = .ok (.swapDreg cond c reg creg) := by
  simp [decode, decode5swap, packType5swap, extract_or, computeField, condField, decodeCompute_encode hc]

theorem decode_type6mem : decodeCode (packType6mem pm store cond sh i m reg) =
    .ok (if pm then if store then .shiftImmStorePM cond sh i m reg else .shiftImmLoadPM cond sh i m reg
      else if store then .shiftImmStoreDM cond sh i m reg else .shiftImmLoadDM cond sh i m reg) := by
  cases pm <;> cases store <;>
    simp [decodeCode, packType6mem, packIM, decode, decode6mem, extract_or, condField, decodeShiftImm_encode]

theorem decode_type6 : decodeCode (packType6 cond sh) = .ok (if cond = .true_ then .ofShiftImm sh else .ifShiftImm cond sh) := by
  simp [decodeCode, packType6, packCond, decode, decodeLow, decode6nomem, extract_or, condField, decodeShiftImm_encode]

/-- The bits below the one that a flag of MODIFY takes are the computation's own (R531). -/
theorem and_low22 {f : BitVec 23} (h : f[22] = false) : f &&& 0x3FFFFF#23 = f := by
  apply BitVec.eq_of_getElem_eq
  intro j hj
  obtain rfl | hlt : j = 22 ∨ j < 22 := by omega
  · simp [h]
  · have hones : ∀ k : Fin 22, (0x3FFFFF#23).getLsbD k = true := by decide
    rw [BitVec.getElem_and, ← BitVec.getLsbD_eq_getElem (x := 0x3FFFFF#23), hones ⟨j, hlt⟩, Bool.and_true]

include hc in
theorem decode_type7a (src dst : DagNo) (scale : Scale) (h : (scale == .none || !c.isMulti) = true) :
    decode (place 48 40 4#5 ||| packCond cond c.encode ||| place 48 38 (boolBit pm) ||| place 48 30 src |||
        place 48 27 m ||| place 48 24 dst ||| place 48 22 scale.bits) = .ok (.modify cond c pm src dst m scale) := by
  have hdecode := decodeCompute_encode hc
  cases scale with
  | none => simp [decode, decodeLow, decode7a, packCond, extract_or, condField, Scale.bits, hdecode]
  | sw =>
    have h22 : c.encode[22] = false := (unitBits_encode c).multi.trans (by simpa using h)
    simp [decode, decodeLow, decode7a, packCond, extract_or, condField, Scale.bits, hdecode, h22, and_low22]
  | nw =>
    have h22 : c.encode[22] = false := (unitBits_encode c).multi.trans (by simpa using h)
    have hstrip : (c.encode ||| 0x400000#23) &&& 0x3FFFFF#23 = c.encode := by
      rw [BitVec.and_comm, BitVec.and_or_distrib_left, BitVec.and_comm, and_low22 h22]
      simp
    simp [decode, decodeLow, decode7a, packCond, extract_or, condField, Scale.bits, hdecode, hstrip]

include hc in
theorem decode_type7d (src dst : DagNo) (toByte breg : Bool) :
    decode (place 48 40 4#5 ||| packCond cond c.encode ||| place 48 39 1#1 ||| place 48 38 (boolBit pm) |||
        place 48 30 src ||| place 48 29 (boolBit breg) ||| place 48 28 (boolBit toByte) ||| place 48 24 dst |||
        place 48 23 1#1) = .ok (.convertAddr cond c pm src dst toByte breg) := by
  simp [decode, decodeLow, decode7d, packCond, extract_or, computeField, condField, decodeCompute_encode hc]

/-! ### Branches (R577 to R582) -/

theorem branchKindOf_bits (kind : BranchKind) :
    branchKindOf kind.bits.1 kind.bits.2.1 kind.bits.2.2.1 kind.bits.2.2.2 = .ok kind := by
  cases kind with
  | jump mods => cases mods <;> rfl
  | call db => rfl

/-- The Type 8a instruction of a row of the JUMP table (R577). -/
def branchDirect (cond : Cond) : BranchKind → Bool → IAddr → Instr
  | .jump mods, false, addr => .jumpDirect cond addr mods
  | .jump mods, true, off => .jumpPcRel cond off mods
  | .call db, false, addr => .callDirect cond addr db
  | .call db, true, off => .callPcRel cond off db

/-- The Type 9a instruction of a row of the JUMP table and a target (R578). -/
def branchIndirect (cond : Cond) (els : Bool) (c : Compute) : BranchKind → ShortTarget → Instr
  | .jump mods, .indirect md ic => .jumpIndirect cond md ic mods els c
  | .jump mods, .pcRel off => .jumpPcRel6 cond off mods els c
  | .call db, .indirect md ic => .callIndirect cond md ic db els c
  | .call db, .pcRel off => .callPcRel6 cond off db els c

theorem decode_type8 (kind : BranchKind) (rel : Bool) (addr : IAddr) :
    decodeCode (packType8 rel cond kind addr) = .ok (branchDirect cond kind rel addr) := by
  have hkind := branchKindOf_bits kind
  cases rel <;> simp [decodeCode, packType8, packBranch, decode, decodeLow, decode8a, extract_or, condField, hkind] <;>
    cases kind <;> rfl

include hc in
theorem decode_type9 (kind : BranchKind) (target : ShortTarget) (els : Bool) :
    decodeCode (packType9 cond kind target els c) = .ok (branchIndirect cond els c kind target) := by
  have hkind := branchKindOf_bits kind
  have hdecode := decodeCompute_encode hc
  cases target <;>
    simp [decodeCode, packType9, packBranch, decode, decodeLow, decode9a, extract_or, computeField, condField, data6Field, hdecode,
      hkind] <;>
    cases kind <;> rfl

include hc in
theorem decode_type10 (md ic : DagNo) : decodeCode (packType10 store cond (.indirect md ic) c i m reg) =
    .ok (if store then .jumpIndirectElseStore cond md ic c i m reg else .jumpIndirectElseLoad cond md ic c i m reg) := by
  have hdecode := decodeCompute_encode hc
  cases store <;> simp [decodeCode, packType10, packIM, decode, decode10a, extract_or, computeField, condField, hdecode]

include hc in
theorem decode_type10_pcRel (off : BitVec 6) : decodeCode (packType10 store cond (.pcRel off) c i m reg) =
    .ok (if store then .jumpPcRelElseStore cond off c i m reg else .jumpPcRelElseLoad cond off c i m reg) := by
  have hdecode := decodeCompute_encode hc
  cases store <;> simp [decodeCode, packType10, packIM, decode, decode10a, extract_or, computeField, condField, data6Field, hdecode]

include hc in
theorem decode_rts (db lr els : Bool) : decodeCode (packType11 false cond db lr els c) = .ok (.rts cond db lr els c) := by
  simp [decodeCode, packType11, packCond, decode, decodeLow, decode11a, extract_or, computeField, condField, decodeCompute_encode hc]

include hc in
theorem decode_rti (db els : Bool) : decodeCode (packType11 true cond db false els c) = .ok (.rti cond db els c) := by
  simp [decodeCode, packType11, packCond, decode, decodeLow, decode11a, extract_or, computeField, condField, decodeCompute_encode hc]

end

/-! ### Loops, direct moves, system operations (files 41 to 43) -/

section
variable (cond : Cond) (pm store post l : Bool) (i m : DagNo) (reg : RegNo) (u : UReg) (size : Size) (data : Word)

theorem decode_doCounterImm (count : BitVec 16) (off : BitVec 23) (f1 : Bool) :
    decode (place 48 40 0xC#5 ||| place 48 24 count ||| place 48 23 (boolBit f1) ||| place 48 0 off) =
      .ok (.doCounterImm count off f1) := by
  simp [decode, decodeLow, decode12imm, extract_or]

theorem decode_doCounterUreg (off : BitVec 23) (f1 : Bool) :
    decode (place 48 40 0xD#5 ||| place 48 32 u.code ||| place 48 23 (boolBit f1) ||| place 48 0 off) =
      .ok (.doCounterUreg u off f1) := by
  simp [decode, decodeLow, decode12ureg, extract_or]

theorem decode_doUntil (off : BitVec 23) (f1 : Bool) :
    decode (place 48 40 0xE#5 ||| place 48 33 cond.code ||| place 48 23 (boolBit f1) ||| place 48 0 off) =
      .ok (.doUntil cond off f1) := by
  simp [decode, decodeLow, decode13a, extract_or, condField]

theorem decode_type14 : decodeCode (packType14 pm store l u data) =
    .ok (if store then .storeUregDirect pm l u data else .loadUregDirect pm l u data) := by
  cases pm <;> cases store <;> simp [decodeCode, packType14, decode, decodeLow, decode14a, extract_or]

/-- R490: where Type 14d would have w without ex, the word is RFRAME; every other word that begins so is a Type 14d word. -/
theorem decode_of_type14d {w : Word48} (hlow : w.extractLsb' 45 3 = 0#3)
    (htype : w.extractLsb' 40 5 = 0x1A#5 ∨ w.extractLsb' 40 5 = 0x1B#5)
    (hrframe : w.extractLsb' 0 41 ≠ 0x00400000000#41) (hw : (w.getLsbD 34 && !w.getLsbD 33) = false)
    (hsize : size3d (w.getLsbD 40) (w.getLsbD 39) (w.getLsbD 32) (w.getLsbD 34) = .ok size) :
    decode w = .ok (.moveDregDirect (w.getLsbD 40) (w.extractLsb' 35 4) (w.extractLsb' 0 32) size (w.getLsbD 33)) := by
  have htype : decode w = decode14d w := by
    rw [decode, decodeLow, hlow]
    obtain h | h := htype <;> rw [h] <;> rfl
  rw [htype, decode14d, if_neg hrframe, hsize, except_ok_bind, hw]
  rfl

theorem decode_type14d (ex : Bool) (hw : (size.subWord || ex) = true) (hs : (!store || size.storable) = true) :
    decode (place 48 41 0xD#4 ||| place 48 40 (boolBit store) ||| place 48 39 (boolBit size.lxw.1) |||
        place 48 35 reg ||| place 48 34 (boolBit size.lxw.2.2) ||| place 48 33 (boolBit ex) |||
        place 48 32 (boolBit size.lxw.2.1) ||| place 48 0 data) = .ok (.moveDregDirect store reg data size ex) := by
  have hsize := size3d_lxw store size hs
  have hword : ex = false → size.lxw.2.2 = false := by
    rintro rfl
    exact lxw_of_subWord size (by simpa using hw)
  rw [decode_of_type14d (size := size)]
  · simp [extract_or]
  · simp [extract_or]
  · cases store <;> simp [extract_or]
  · cases ex
    · exact ne_of_getLsbD 34 (by simp [hword])
    · exact ne_of_getLsbD 33 (by simp)
  · cases ex <;> simp [hword]
  · simpa using hsize

theorem decode_type15 (h : (!(store && u.sameDag pm)) = true) : decodeCode (packType15 pm store i l u data) =
    .ok (if store then .storeUregOffset pm i l u data else .loadUregOffset pm i l u data) := by
  cases store with
  | false => simp [decodeCode, packType15, decode, decode15a, extract_or]
  | true =>
    have hclass : u.sameDag pm = false := Bool.eq_false_of_not_eq_true' h
    simp [decodeCode, packType15, decode, decode15a, extract_or, hclass]

theorem decode_storeImm :
    decode (place 48 44 9#4 ||| place 48 41 i ||| place 48 38 m ||| place 48 37 (boolBit pm) ||| place 48 0 data) =
      .ok (.storeImm pm i m data) := by
  simp [decode, decode16a, extract_or]

theorem decode_moveImm : decode (place 48 40 0xF#5 ||| place 48 32 u.code ||| place 48 0 data) = .ok (.moveImm u data) := by
  simp [decode, decodeLow, decode17a, extract_or]

theorem decode_bitSet (q : SysReg) : decodeCode (packType18 0#3 q data) = .ok (.bitSet q data) := by
  simp [decodeCode, packType18, decode, decodeLow, decode18a, extract_or]

theorem decode_bitClr (q : SysReg) : decodeCode (packType18 1#3 q data) = .ok (.bitClr q data) := by
  simp [decodeCode, packType18, decode, decodeLow, decode18a, extract_or]

theorem decode_bitTgl (q : SysReg) : decodeCode (packType18 2#3 q data) = .ok (.bitTgl q data) := by
  simp [decodeCode, packType18, decode, decodeLow, decode18a, extract_or]

theorem decode_bitTst (q : SysReg) : decodeCode (packType18 4#3 q data) = .ok (.bitTst q data) := by
  simp [decodeCode, packType18, decode, decodeLow, decode18a, extract_or]

theorem decode_bitXor (q : SysReg) : decodeCode (packType18 5#3 q data) = .ok (.bitXor q data) := by
  simp [decodeCode, packType18, decode, decodeLow, decode18a, extract_or]

theorem decode_type19 (br : Bool) (src dst : DagNo) : decodeCode (packType19 pm br src dst data) =
    .ok (if br then .bitrevImm pm src dst data else .modifyImm pm src dst data .none) := by
  simp [decodeCode, packType19, decode, decodeLow, decode19a, extract_or]

theorem decode_type20 (lpu lpo spu spo ppu ppo fc : Bool) (cache : BitVec 5) :
    decodeCode (packType20 lpu lpo spu spo ppu ppo fc cache) =
    if (lpu || spu || ppu) && (lpo || spo || ppo) then .error .stackMix
    else if (lpu || spu || ppu || (lpo || spo || ppo) || fc) && cache != 0#5 then .error .stackMix
    else .ok (
      if lpu then .pushLoop spu ppu fc
      else if lpo then .popLoop spo ppo fc
      else if spu then .pushSts ppu fc
      else if spo then .popSts ppo fc
      else if ppu then .pushPcstk fc
      else if ppo then .popPcstk fc
      else if fc then .flushCache
      else .cacheOp cache[4] cache[3] cache[2] cache[1] cache[0]) := by
  simp [decodeCode, packType20, decode, decodeLow, decode20a, extract_or]

theorem decode_cjump (addr : IAddr) : decode (place 48 32 0x1804#16 ||| place 48 0 addr) = .ok (.cjump addr) := by
  simp [decode, decodeLow, decode25a, extract_or]

theorem decode_cjumpPcRel (off : IAddr) : decode (place 48 32 0x1844#16 ||| place 48 0 off) = .ok (.cjumpPcRel off) := by
  simp [decode, decodeLow, decode25a, extract_or]

end

end Sys2Proof
end

section
/-! PROOFS. The short words of VISA code (R405), and every well-formed instruction: its encoding decodes to it. -/

namespace Sys2Proof

/-! ### Short words of 32 bits (R405): the decoder that the first bits and the mark choose -/

section
variable {w : BitVec 32}

theorem decodeCode_2b (h : w.extractLsb' 23 9 = 3#9) :
    decodeCode (.word32 w) = decode2b w := by
  have hrframe : w ≠ 0x1A040000#32 := by
    rintro rfl
    revert h
    decide
  rw [decodeCode, visa32?, if_neg hrframe, if_pos h]

/-- The first three bits, where they are not 0, choose among the types but 2b, 7b, 9b and 25c. -/
theorem visa32?_of_group (h : w.extractLsb' 29 3 ≠ 0#3) : w ≠ 0x1A040000#32 ∧ w.extractLsb' 23 9 ≠ 3#9 := by
  refine ⟨?_, fun hlow => h ?_⟩
  · rintro rfl
    revert h
    decide
  · have hdiv := congrArg BitVec.toNat hlow
    apply BitVec.eq_of_toNat_eq
    simp [Nat.shiftRight_eq_div_pow] at hdiv ⊢
    omega

theorem decodeCode_1b (h : w.extractLsb' 29 3 = 1#3) (hmark : w.extractLsb' 0 7 = 0x3F#7) :
    decodeCode (.word32 w) = .ok (decode1b w) := by
  obtain ⟨hrframe, h2b⟩ := visa32?_of_group (w := w) (by rw [h]; decide)
  simp [decodeCode, visa32?, hrframe, h2b, h, hmark, -BitVec.extractLsb'_toNat]

theorem decodeCode_3b (h : w.extractLsb' 29 3 = 2#3) (hmark : w.extractLsb' 2 5 = 0xF#5) :
    decodeCode (.word32 w) = decode3b w := by
  obtain ⟨hrframe, h2b⟩ := visa32?_of_group (w := w) (by rw [h]; decide)
  simp [decodeCode, visa32?, hrframe, h2b, h, hmark, -BitVec.extractLsb'_toNat]

theorem decodeCode_4b (h : w.extractLsb' 29 3 = 3#3) (h28 : w[28] = false) (hmark : w.extractLsb' 3 4 = 7#4) :
    decodeCode (.word32 w) = decode4b w := by
  obtain ⟨hrframe, h2b⟩ := visa32?_of_group (w := w) (by rw [h]; decide)
  simp [decodeCode, visa32?, hrframe, h2b, h, h28, hmark, -BitVec.extractLsb'_toNat]

theorem decodeCode_5b (h : w.extractLsb' 29 3 = 3#3) (h28 : w[28] = true) (hmark : w.extractLsb' 0 7 = 0x3F#7) :
    decodeCode (.word32 w) = decode5b w := by
  obtain ⟨hrframe, h2b⟩ := visa32?_of_group (w := w) (by rw [h]; decide)
  simp [decodeCode, visa32?, hrframe, h2b, h, h28, hmark, -BitVec.extractLsb'_toNat]

theorem decodeCode_15b (h : w.extractLsb' 29 3 = 4#3) (h28 : w[28] = true) (h19 : w[19] = true) :
    decodeCode (.word32 w) = decode15b w := by
  obtain ⟨hrframe, h2b⟩ := visa32?_of_group (w := w) (by rw [h]; decide)
  simp [decodeCode, visa32?, hrframe, h2b, h, h28, h19, -BitVec.extractLsb'_toNat]

theorem decodeCode_16b (h : w.extractLsb' 29 3 = 4#3) (h28 : w[28] = true) (h19 : w[19] = false) (h18 : w[18] = true) :
    decodeCode (.word32 w) = decode16b w := by
  obtain ⟨hrframe, h2b⟩ := visa32?_of_group (w := w) (by rw [h]; decide)
  simp [decodeCode, visa32?, hrframe, h2b, h, h28, h19, h18, -BitVec.extractLsb'_toNat]

theorem decodeCode_7b (hlow : w.extractLsb' 29 3 = 0#3) (h : w.extractLsb' 24 5 = 4#5) (hmark : w.extractLsb' 0 7 = 0x3F#7) :
    decodeCode (.word32 w) = decode7b w := by
  have hrframe : w ≠ 0x1A040000#32 := by
    rintro rfl
    revert h
    decide
  have h26 : w[26] = true := by simpa using congrArg (·.getLsbD 2) h
  have h2b : w.extractLsb' 23 9 ≠ 3#9 := ne_of_getLsbD 3 (by simp [h26])
  simp [decodeCode, visa32?, hrframe, h2b, hlow, h, hmark, -BitVec.extractLsb'_toNat]

theorem decodeCode_9b (hlow : w.extractLsb' 29 3 = 0#3) (h : w.extractLsb' 25 4 = 4#4) (hmark : w.extractLsb' 0 7 = 0x3F#7) :
    decodeCode (.word32 w) = decode9b w := by
  have hrframe : w ≠ 0x1A040000#32 := by
    rintro rfl
    revert h
    decide
  have h27 : w[27] = true := by simpa using congrArg (·.getLsbD 2) h
  have h2b : w.extractLsb' 23 9 ≠ 3#9 := ne_of_getLsbD 4 (by simp [h27])
  have h7b : w.extractLsb' 24 5 ≠ 4#5 := ne_of_getLsbD 3 (by simp [h27])
  simp [decodeCode, visa32?, hrframe, h2b, h7b, hlow, h, hmark, -BitVec.extractLsb'_toNat]

end

section
variable {cond : Cond} {c : Compute} (pm store post l : Bool) (i m : DagNo) (reg : RegNo) (u : UReg) {size : Size}

theorem decode_dualMove (dmStore : Bool) (dmi dmm : DagNo) (dmReg : RegNo) (pmStore : Bool) (pmi pmm : DagNo) (pmReg : RegNo) :
    decodeCode (shortOf (packType1 dmStore dmi dmm dmReg pmStore pmi pmm pmReg)) =
      .ok (.dualMove dmStore dmi dmm dmReg pmStore pmi pmm pmReg) := by
  rw [shortOf, decodeCode_1b] <;> simp [packType1, decode1b, extract_or]

theorem decode_compute (hc : c.wellFormed = true) : decodeCode (.word32 (place 32 23 3#9 ||| place 32 0 c.encode)) = .ok (.compute c) := by
  rw [decodeCode_2b]
  · simp [decode2b, extract_or, decodeCompute_encode hc]
  · simp [extract_or]

theorem size3b_lxw3b (hs : (!store || size.storable) = true) :
    size3b store .lw .none size.lxw3b.1 size.lxw3b.2.1 size.lxw3b.2.2 = .ok size := by
  revert hs
  cases size <;> revert store <;> decide

theorem size3b_lxw4b (hlw : (size != .lw) = true) (hs : (!store || size.storable) = true) :
    size3b store .none .none size.lxw4b.1 size.lxw4b.2.1 size.lxw4b.2.2 = .ok size := by
  revert hs hlw
  cases size <;> revert store <;> decide

theorem decode_moveUregSized (h : (!((post || store) && u.sameDag pm)) = true) (hs : (!store || size.storable) = true) :
    decodeCode (.word32 ((packType3 cond post pm store size.lxw3b.1 i m u).extractLsb' 16 32 ||| place 32 2 0xF#5 |||
        place 32 1 (boolBit size.lxw3b.2.1) ||| place 32 0 (boolBit size.lxw3b.2.2))) =
      .ok (.moveUregSized cond post pm store i m u size) := by
  have hclass := Bool.eq_false_of_not_eq_true' h
  rw [decodeCode_3b]
  · simp [packType3, packIM, decode3b, extract_or, size3b_lxw3b store hs, hclass]
  · simp [packType3, packIM, extract_or]
  · simp [packType3, packIM, extract_or]

theorem decode_moveDregImmSized (data : BitVec 6) (hlw : (size != .lw) = true) (hs : (!store || size.storable) = true) :
    decodeCode (.word32 ((packType4 cond pm store i post data reg).extractLsb' 16 32 ||| place 32 3 7#4 |||
        place 32 2 (boolBit size.lxw4b.1) ||| place 32 1 (boolBit size.lxw4b.2.1) |||
        place 32 0 (boolBit size.lxw4b.2.2))) = .ok (.moveDregImmSized cond pm store i post data reg size) := by
  rw [decodeCode_4b]
  · simp [packType4, decode4b, extract_or, size3b_lxw4b store hlw hs]
  · simp [packType4, extract_or]
  · simp [packType4, extract_or]
  · simp [packType4, extract_or]

theorem decode_moveUregShort (dst src : UReg) : decodeCode (shortOf (packType5 cond dst src)) = .ok (.moveUregShort cond dst src) := by
  have hsrc : src.code.extractLsb' 2 5 ++ src.code.extractLsb' 0 2 = src.code := BitVec.extractLsb'_append_extractLsb'
  rw [shortOf, decodeCode_5b] <;> simp [packType5, decode5b, extract_or, hsrc]

theorem decode_swapDregShort (creg : RegNo) : decodeCode (shortOf (packType5swap cond reg creg)) = .ok (.swapDregShort cond reg creg) := by
  rw [shortOf, decodeCode_5b] <;> simp [packType5swap, decode5b, extract_or]

theorem decode_modifyShort (src dst : DagNo) :
    decodeCode (shortOf (place 48 40 4#5 ||| place 48 38 (boolBit pm) ||| place 48 33 cond.code ||| place 48 30 src |||
        place 48 27 m ||| place 48 24 dst)) = .ok (.modifyShort cond pm src dst m) := by
  rw [shortOf, decodeCode_7b] <;> simp [decode7b, extract_or]

theorem decode_branchShort (kind : BranchKind) (md ic : DagNo) :
    decodeCode (shortOf (packBranch 8 cond kind ||| place 48 30 ic ||| place 48 27 md)) =
      .ok (.branchShort cond (.indirect md ic) kind) := by
  rw [shortOf, decodeCode_9b] <;> simp [packBranch, decode9b, extract_or, branchKindOf_bits]

theorem decode_branchShort_pcRel (kind : BranchKind) (off : BitVec 6) :
    decodeCode (shortOf (packBranch 9 cond kind ||| place 48 27 off)) = .ok (.branchShort cond (.pcRel off) kind) := by
  rw [shortOf, decodeCode_9b] <;> simp [packBranch, decode9b, extract_or, branchKindOf_bits]

theorem decode_moveUregOffset7 (data : BitVec 7) (h : (!(store && u.sameDag pm)) = true) :
    decodeCode (.word32 (place 32 28 9#4 ||| place 32 21 data ||| place 32 19 1#1 ||| place 32 18 (boolBit pm) |||
        place 32 13 i ||| place 32 12 (boolBit l) ||| place 32 11 (boolBit store) ||| place 32 4 u.code)) =
      .ok (.moveUregOffset7 pm store i l u data) := by
  have hclass := Bool.eq_false_of_not_eq_true' h
  rw [decodeCode_15b] <;> simp [decode15b, extract_or, hclass]

theorem decode_storeImm16 (data : Parcel) :
    decodeCode (.word32 (place 32 28 9#4 ||| place 32 25 i ||| place 32 22 m ||| place 32 21 (boolBit pm) ||| place 32 18 1#1 |||
        place 32 0 data)) = .ok (.storeImm16 pm i m data) := by
  rw [decodeCode_16b] <;> simp [decode16b, extract_or]

theorem decode_moveImm16 (data : Parcel) :
    decodeCode (.word32 (place 32 28 9#4 ||| place 32 21 u.code ||| place 32 18 1#1 ||| place 32 17 1#1 ||| place 32 0 data)) =
      .ok (.moveImm16 u data) := by
  rw [decodeCode_16b] <;> simp [decode16b, extract_or]

/-! ### Short words of 16 bits -/

theorem decode_short (op : ShortOp) (rn rx : RegNo) : decodeCode (.word16 (packShort op rn rx)) = .ok (shortInstr op.code rn rx) := by
  simp [decodeCode, visa16?, packShort, extract_or]

theorem decode_moveDregShort : decodeCode (.word16 (place 16 12 9#4 ||| place 16 9 i ||| place 16 6 m ||| place 16 5 (boolBit store) |||
    place 16 4 1#1 ||| place 16 0 reg)) = .ok (.moveDregShort store reg i m) := by
  simp [decodeCode, visa16?, decode3c, extract_or]

theorem decode_returnShort (kind : ReturnKind) : decodeCode (encode (.returnShort cond kind)) = .ok (.returnShort cond kind) := by
  cases kind with
  | rts db lr =>
    change decodeCode (.word16 _) = _
    simp [decodeCode, visa16?, decode11c, extract_or]
  | rti db =>
    change decodeCode (.word16 _) = _
    simp [decodeCode, visa16?, decode11c, extract_or]
end

/-! ### Every instruction -/

theorem decode_computeAlone {c : Compute} (hc : c.wellFormed = true) : decodeCode (packType2a .true_ c) = .ok (.ofCompute c) := by
  rw [decode_type2a hc, if_pos rfl]

theorem decode_shiftAlone (sh : ShiftImm) : decodeCode (packType6 .true_ sh) = .ok (.ofShiftImm sh) := by
  rw [decode_type6, if_pos rfl]

theorem decode_ifCompute {cond : Cond} {c : Compute} (hc : c.wellFormed = true) (h : (cond != .true_ || c == .none) = true) :
    decodeCode (packType2a cond c) = .ok (.ifCompute cond c) := by
  rw [decode_type2a hc]
  split_ifs with htrue
  · subst htrue
    obtain rfl : c = .none := by simpa using h
    rfl
  · rfl

theorem decode_ifShiftImm {cond : Cond} (sh : ShiftImm) (h : (cond != .true_) = true) :
    decodeCode (packType6 cond sh) = .ok (.ifShiftImm cond sh) := by
  rw [decode_type6, if_neg (by simpa using h)]

/-- Settles O57: each constructor by the round trip of its type. -/
theorem decodeEncode : Obligations.DecodeEncode := by
  intro i h
  cases i with
  | computeDualMove c => exact decode_type1 h ..
  | ifCompute cond c =>
    obtain ⟨hc, htrue⟩ := Bool.and_eq_true_iff.1 h
    exact decode_ifCompute hc htrue
  | loadUreg cond c post pm i m l u =>
    obtain ⟨hc, hclass⟩ := Bool.and_eq_true_iff.1 h
    exact decode_type3a hc pm false post l i m u hclass
  | storeUreg cond c post pm i m l u =>
    obtain ⟨hc, hclass⟩ := Bool.and_eq_true_iff.1 h
    exact decode_type3a hc pm true post l i m u hclass
  | loadUregSized cond post pm i m u size ex => exact decode_type3d pm false post i m u size ex h rfl
  | storeUregSized cond post pm i m u size ex =>
    obtain ⟨hclass, hs⟩ := Bool.and_eq_true_iff.1 h
    exact decode_type3d pm true post i m u size ex hclass hs
  | loadDregImm cond c pm i post data reg => exact decode_type4a h pm false post i reg data
  | storeDregImm cond c pm i post data reg => exact decode_type4a h pm true post i reg data
  | loadDregImmSized cond pm i post data reg size => exact decode_type4d pm false post i reg size data h rfl
  | storeDregImmSized cond pm i post data reg size =>
    obtain ⟨hw, hs⟩ := Bool.and_eq_true_iff.1 h
    exact decode_type4d pm true post i reg size data hw hs
  | moveUreg cond c dst src => exact decode_type5 h dst src
  | swapDreg cond c reg creg => exact decode_type5swap h reg creg
  | shiftImmLoadDM cond sh i m reg => exact decode_type6mem sh false false i m reg
  | shiftImmStoreDM cond sh i m reg => exact decode_type6mem sh false true i m reg
  | shiftImmLoadPM cond sh i m reg => exact decode_type6mem sh true false i m reg
  | shiftImmStorePM cond sh i m reg => exact decode_type6mem sh true true i m reg
  | ifShiftImm cond sh => exact decode_ifShiftImm sh h
  | modify cond c pm src dst m scale =>
    obtain ⟨hc, hscale⟩ := Bool.and_eq_true_iff.1 h
    exact decode_type7a hc pm m src dst scale hscale
  | convertAddr cond c pm src dst toByte breg => exact decode_type7d h pm src dst toByte breg
  | jumpDirect cond addr mods => exact decode_type8 (.jump mods) false addr
  | jumpPcRel cond off mods => exact decode_type8 (.jump mods) true off
  | callDirect cond addr db => exact decode_type8 (.call db) false addr
  | callPcRel cond off db => exact decode_type8 (.call db) true off
  | jumpIndirect cond md ic mods els c => exact decode_type9 h (.jump mods) (.indirect md ic) els
  | jumpPcRel6 cond off mods els c => exact decode_type9 h (.jump mods) (.pcRel off) els
  | callIndirect cond md ic db els c => exact decode_type9 h (.call db) (.indirect md ic) els
  | callPcRel6 cond off db els c => exact decode_type9 h (.call db) (.pcRel off) els
  | jumpIndirectElseLoad cond md ic c i m reg => exact decode_type10 h false i m reg md ic
  | jumpIndirectElseStore cond md ic c i m reg => exact decode_type10 h true i m reg md ic
  | jumpPcRelElseLoad cond off c i m reg => exact decode_type10_pcRel h false i m reg off
  | jumpPcRelElseStore cond off c i m reg => exact decode_type10_pcRel h true i m reg off
  | rts cond db lr els c => exact decode_rts h db lr els
  | rti cond db els c => exact decode_rti h db els
  | doCounterImm count off f1 => exact decode_doCounterImm count off f1
  | doCounterUreg u off f1 => exact decode_doCounterUreg u off f1
  | doUntil cond off f1 => exact decode_doUntil cond off f1
  | loadUregDirect pm l u addr => exact decode_type14 pm false l u addr
  | storeUregDirect pm l u addr => exact decode_type14 pm true l u addr
  | moveDregDirect store reg addr size ex =>
    obtain ⟨hw, hs⟩ := Bool.and_eq_true_iff.1 h
    exact decode_type14d store reg size addr ex hw hs
  | loadUregOffset pm i l u data => exact decode_type15 pm false l i u data rfl
  | storeUregOffset pm i l u data => exact decode_type15 pm true l i u data h
  | storeImm pm i m data => exact decode_storeImm pm i m data
  | moveImm u data => exact decode_moveImm u data
  | bitSet q data => exact decode_bitSet data q
  | bitClr q data => exact decode_bitClr data q
  | bitTgl q data => exact decode_bitTgl data q
  | bitTst q data => exact decode_bitTst data q
  | bitXor q data => exact decode_bitXor data q
  | modifyImm pm src dst data scale =>
    have hscale : (scale == .none) = true := h
    obtain rfl : scale = .none := by simpa using hscale
    exact decode_type19 pm data false src dst
  | bitrevImm pm src dst data => exact decode_type19 pm data true src dst
  | pushLoop | popLoop | pushSts | popSts | pushPcstk | popPcstk | flushCache | cacheOp =>
    exact (decode_type20 ..).trans (by simp)
  | nop | idle | emuidle | sync | rframe => rfl
  | cjump addr => exact decode_cjump addr
  | cjumpPcRel off => exact decode_cjumpPcRel off
  | dualMove => exact decode_dualMove ..
  | compute c => exact decode_compute h
  | shortCompute op rn rx => exact absurd h Bool.false_ne_true
  | moveUregSized cond post pm store i m u size =>
    obtain ⟨hclass, hs⟩ := Bool.and_eq_true_iff.1 h
    exact decode_moveUregSized pm store post i m u hclass hs
  | moveDregShort store reg i m => exact decode_moveDregShort store i m reg
  | moveDregImmSized cond pm store i post data reg size =>
    obtain ⟨hlw, hs⟩ := Bool.and_eq_true_iff.1 h
    exact decode_moveDregImmSized pm store post i reg data hlw hs
  | moveUregShort cond dst src => exact decode_moveUregShort dst src
  | swapDregShort cond reg creg => exact decode_swapDregShort reg creg
  | modifyShort cond pm src dst m => exact decode_modifyShort pm m src dst
  | branchShort cond target kind =>
    cases target with
    | indirect md ic => exact decode_branchShort kind md ic
    | pcRel off => exact decode_branchShort_pcRel kind off
  | returnShort cond kind => exact decode_returnShort kind
  | moveUregOffset7 pm store i l u data => exact decode_moveUregOffset7 pm store l i u data h
  | storeImm16 pm i m data => exact decode_storeImm16 pm i m data
  | moveImm16 u data => exact decode_moveImm16 u data
  | nopShort | rframeShort => rfl
  | idleShort emu => cases emu <;> rfl
  | shortAdd | shortSub | shortPass | shortComp | shortNot | shortInc | shortDec | shortMul | shortFltAdd | shortFltSub
  | shortFloat | shortFltComp | shortAnd | shortOr | shortXor | shortFltMul => exact decode_short ..
  | lshiftImm | orLshiftImm | ashiftImm | orAshiftImm | rotImm | bsetImm | bclrImm | btglImm | btstImm | fdepImm | orFdepImm
  | fdepSEImm | orFdepSEImm | fextImm | fextSEImm | bitdepImm | bitextImm | bitextNUImm | setBffwrpImm =>
    exact decode_shiftAlone _
  | _ => exact decode_computeAlone h

end Sys2Proof
end

section
/-! PROOFS. Compute fields, short computes, computations and shifts under a condition (R502, R503, R512 to R514, R530). -/

namespace Sys2Proof.Machine

open Sys2Proof

/-! ### A compute field alone and its operation's own row -/

/-- R512, R513: a compute field alone does what its operation's own row does, one case per row of the opcode table. -/
theorem exec_compute_eq_ofCompute {c : Compute} (h : c ≠ .none) (s : State) : exec (.compute c) s = exec (.ofCompute c) s := by
  cases c with
  | none => exact absurd rfl h
  | fix2 op | fix1 op | flt2 op | flt1 op | dbl1 op | shift op | fieldOp op | shift1 op => cases op <;> rfl
  | fixComp b | dbl2 b | dblToInt b | dblToIntBy b | rndRn b | rndMr b | satRn b | satMr b | clrMr b | bitext b | mfDbl b =>
    cases b <;> rfl
  | readMr part | writeMr part => cases part <;> rfl
  | mulRn acc =>
    cases acc with
    | clear => rfl
    | add bg | sub bg => cases bg <;> rfl
  | mulMr bg acc => cases bg <;> cases acc <;> rfl
  | mfFix mu alu => cases mu <;> cases alu <;> rfl
  | mfMac sub alu => cases sub <;> cases alu <;> rfl
  | mfFlt alu => cases alu <;> rfl
  | _ => rfl

/-- R530: an immediate shift alone likewise, one case per row of the opcode table. -/
theorem exec_ofShiftImm_eq (sh : ShiftImm) (s : State) : exec (.ofShiftImm sh) s = (s.shiftImm sh true true []).outcome := by
  cases sh with
  | shift op | fieldOp op => cases op <;> rfl
  | bitext nu => cases nu <;> rfl
  | _ => rfl

/-- R447, R514: a short compute is the full one that it stands for. -/
theorem exec_shortCompute_eq (op : ShortOp) (rn rx : RegNo) (s : State) :
    exec (.shortCompute op rn rx) s = exec (.compute (op.compute rn rx)) s := rfl

theorem exec_shortCompute_eq_shortInstr (op : ShortOp) (rn rx : RegNo) (s : State) :
    exec (.shortCompute op rn rx) s = exec (shortInstr op.code rn rx) s := by
  cases op <;> rfl

/-- No short compute uses the bit FIFO. -/
theorem usesFifo_short (op : ShortOp) (rn rx : RegNo) : usesFifo (op.compute rn rx) = false := by
  cases op <;> rfl

/-! ### Which computations may run (R970, R973) -/

theorem fifoAllowed_ready {s : State} (h : s.fifoReady) (moves : Bool) : s.fifoAllowed moves = .ok () := by
  obtain ⟨hsisd, hpointer⟩ := h
  simp [State.fifoAllowed, hsisd, refuseIf, Nat.not_lt.2 hpointer]

theorem fifoAllowed_simd {s : State} (h : s.simd = true) (moves : Bool) : s.fifoAllowed moves ≠ .ok () := by
  simp [State.fifoAllowed, h, refuse]

/-- Every computation may run but a bit-FIFO operation in SIMD mode or with its pointer above 64. -/
theorem computeAllowed_of {s : State} {c : Compute} (h : usesFifo c = false ∨ s.fifoReady) : s.computeAllowed c = .ok () := by
  cases c with
  | bitdep | bitext | setBffwrp | getBffwrp => exact fifoAllowed_ready (h.resolve_left (by simp [usesFifo])) _
  | _ => rfl

theorem shiftAllowed_of {s : State} {sh : ShiftImm} (h : usesFifoImm sh = false ∨ s.fifoReady) :
    s.shiftAllowed sh = .ok () := by
  cases sh with
  | bitdep | bitext | setBffwrp => exact fifoAllowed_ready (h.resolve_left (by simp [usesFifoImm])) _
  | _ => rfl

/-- In SIMD mode what may run is no bit-FIFO operation (R970). -/
theorem not_fifo_of_computeAllowed {s : State} {c : Compute} (hsimd : s.simd = true) (h : s.computeAllowed c = .ok ()) :
    usesFifo c = false := by
  cases c with
  | bitdep | bitext | setBffwrp | getBffwrp => exact absurd h (fifoAllowed_simd hsimd _)
  | _ => rfl

theorem not_fifo_of_shiftAllowed {s : State} {sh : ShiftImm} (hsimd : s.simd = true) (h : s.shiftAllowed sh = .ok ()) :
    usesFifoImm sh = false := by
  cases sh with
  | bitdep | bitext | setBffwrp => exact absurd h (fifoAllowed_simd hsimd _)
  | _ => rfl

theorem compute_allowed {s : State} {c : Compute} (h : s.computeAllowed c = .ok ()) (cx cy : Bool) (busy : List UReg) :
    s.compute c cx cy busy = .ok (s.runPe cx cy busy fun y => s.pe y c) := by
  rw [State.compute, h, ite_self]

theorem shiftImm_allowed {s : State} {sh : ShiftImm} (h : s.shiftAllowed sh = .ok ()) (cx cy : Bool) (busy : List UReg) :
    s.shiftImm sh cx cy busy = .ok (s.runPe cx cy busy fun y => s.peShift y sh) := by
  rw [State.shiftImm, h, ite_self]

/-- An unconditional computation that completes was allowed. -/
theorem compute_alone_ok {s u : State} {c : Compute} (h : s.compute c true true [] = .ok u) :
    s.computeAllowed c = .ok () ∧ u = s.runAlone fun y => s.pe y c := by
  refine ⟨?_, compute_ok h⟩
  cases ha : s.computeAllowed c with
  | ok => rfl
  | error e => simp [State.compute, ha] at h

theorem shiftImm_alone_ok {s u : State} {sh : ShiftImm} (h : s.shiftImm sh true true [] = .ok u) :
    s.shiftAllowed sh = .ok () ∧ u = s.runAlone fun y => s.peShift y sh := by
  refine ⟨?_, shiftImm_ok h⟩
  cases ha : s.shiftAllowed sh with
  | ok => rfl
  | error e => simp [State.shiftImm, ha] at h

theorem shiftImm_neither (s : State) (sh : ShiftImm) (busy : List UReg) : s.shiftImm sh false false busy = .ok s := by
  simp [State.shiftImm, State.runPe]

/-- Only the bit-FIFO operations write the bit FIFO. -/
theorem pe_fifo {c : Compute} (h : usesFifo c = false) (s : State) (y : Bool) : (s.pe y c).fifo = none := by
  have hcompare : ∀ (f : Fmt) (a b : Nat), (f.compare a b).fifo = none := by
    intro f a b
    unfold Fmt.compare
    split <;> rfl
  cases c with
  | bitdep | bitext | setBffwrp | getBffwrp => exact absurd h (by simp [usesFifo])
  | fixComp unsigned => cases unsigned <;> rfl
  | fltComp | dblComp => exact hcompare _ _ _
  | _ => rfl

theorem peShift_fifo {sh : ShiftImm} (h : usesFifoImm sh = false) (s : State) (y : Bool) : (s.peShift y sh).fifo = none := by
  cases sh with
  | bitdep | bitext | setBffwrp => exact absurd h (by simp [usesFifoImm])
  | _ => rfl

/-! ### Results under a condition (R502, R503) -/

theorem runPe_outside (s : State) (cx cy : Bool) (busy : List UReg) (f : Bool → PeOut) :
    SameOutside s (s.runPe cx cy busy f) := by
  have hpx := runPe_px s cx cy busy f
  obtain ⟨d, ax, ay, kx, ky, h⟩ := runPe_computed s cx cy busy f
  rw [h] at hpx ⊢
  exact ⟨rfl, rfl, rfl, rfl, rfl, rfl, rfl, fun _ => rfl, rfl, rfl, rfl, rfl, hpx⟩

/-- An element leaves the multiplier result registers of the other alone. -/
theorem applyPe_mrPhys_other {y z : Bool} (h : z ≠ y) (s : State) (busy : List UReg) (o : PeOut) (bg : Bool) :
    (s.applyPe y busy o).data.mrPhys z bg = s.data.mrPhys z bg := by
  rw [applyPe_mrPhys]
  cases o.mr <;> simp [h]

/-- The multiplier result registers of an element depend on those before alone. -/
theorem applyPe_mrPhys_congr {s t : State} {y bg : Bool} (h : t.data.mrPhys y bg = s.data.mrPhys y bg) (busy : List UReg)
    (o : PeOut) :
    (t.applyPe y busy o).data.mrPhys y bg = (s.applyPe y busy o).data.mrPhys y bg := by
  rw [applyPe_mrPhys, applyPe_mrPhys, h]

theorem runPe_mrPhys_own (s : State) (cx cy : Bool) (busy : List UReg) (f : Bool → PeOut) (y bg : Bool) :
    (s.runPe cx cy busy f).data.mrPhys y bg =
      if s.executes cx cy y then (s.applyPe y busy (f y)).data.mrPhys y bg else s.data.mrPhys y bg := by
  unfold State.runPe State.executes
  dsimp only
  cases y with
  | false =>
    rw [apply_ite (fun t : State => t.data.mrPhys false bg), applyPe_mrPhys_other (by simp), ite_self]
    cases cx <;> rfl
  | true =>
    have hx : (if cx then s.applyPe false busy (f false) else s).data.mrPhys true bg = s.data.mrPhys true bg := by
      cases cx
      · rfl
      · exact applyPe_mrPhys_other (by simp) ..
    rw [apply_ite (fun t : State => t.data.mrPhys true bg), applyPe_mrPhys_congr hx, hx]
    rfl

theorem applyPe_sameFifo {o : PeOut} (h : o.fifo = none) (s : State) (y : Bool) (busy : List UReg) :
    SameFifo s (s.applyPe y busy o) := by
  have hfifo := applyPe_fifo s y busy o
  rw [h] at hfifo
  exact ⟨congrArg Prod.fst hfifo, congrArg Prod.snd hfifo⟩

theorem runPe_sameFifo {f : Bool → PeOut} (h : ∀ y, (f y).fifo = none) (s : State) (cx cy : Bool) (busy : List UReg) :
    SameFifo s (s.runPe cx cy busy f) := by
  unfold State.runPe
  dsimp only
  have hx : SameFifo s (if cx then s.applyPe false busy (f false) else s) := by
    cases cx
    · exact ⟨rfl, rfl⟩
    · exact applyPe_sameFifo (h false) ..
  split
  · obtain ⟨hbff, hptr⟩ := applyPe_sameFifo (h true) (if cx then s.applyPe false busy (f false) else s) true busy
    exact ⟨hbff.trans hx.1, hptr.trans hx.2⟩
  · exact hx

/-- An element executes under a condition if its gate is open and it executes without one. -/
theorem executes_gate (s : State) (cond : Cond) (y : Bool) :
    s.executes (s.cx cond) (s.cy cond) y = (s.gate y cond && s.executes true true y) := by
  cases y <;> simp [State.executes, State.gate, Bool.and_comm]

/-- What an element writes under a condition: all that it writes without one if its gate is open, and nothing otherwise. -/
theorem runPe_gated {α : Type} {s : State} {f : Bool → PeOut} {y : Bool} {view : State → α} {new : α}
    (h : ∀ cx cy, view (s.runPe cx cy [] f) = if s.executes cx cy y then new else view s) (cond : Cond) :
    view (s.runPe (s.cx cond) (s.cy cond) [] f) = view (if s.gate y cond then s.runAlone f else s) := by
  rw [h, executes_gate]
  cases s.gate y cond with
  | false => rfl
  | true => exact (h true true).symm

/-- In SISD mode the condition of PEx decides over the whole computation. -/
theorem runPe_gated_sisd {s : State} (hsisd : s.simd = false) (f : Bool → PeOut) (cx cy : Bool) :
    s.runPe cx cy [] f = if cx then s.runAlone f else s := by
  cases cx <;> simp [State.runAlone, State.runPe, hsisd]

/-- The bit FIFO goes by the condition of PEx: an operation that writes it runs in SISD mode alone (R970). -/
theorem runPe_gated_fifo {s : State} {f : Bool → PeOut} (h : s.simd = true → ∀ y, (f y).fifo = none) (cx cy : Bool) :
    SameFifo (if cx then s.runAlone f else s) (s.runPe cx cy [] f) := by
  cases hsimd : s.simd with
  | false => rw [runPe_gated_sisd hsimd]; exact ⟨rfl, rfl⟩
  | true =>
    obtain ⟨hbff, hptr⟩ := runPe_sameFifo (h hsimd) s cx cy []
    cases cx
    · exact ⟨hbff, hptr⟩
    · obtain ⟨hbff', hptr'⟩ := runPe_sameFifo (h hsimd) s true true []
      exact ⟨hbff.trans hbff'.symm, hptr.trans hptr'.symm⟩

/-- An instruction that runs the element parts of `full` on the elements whose gates are open is `full` under the condition. -/
theorem gated_of_runPe {i full : Instr} {s : State} {cond : Cond} {f : Bool → PeOut} {wide : Bool}
    (hwhole : ∀ y, WholeResults wide (f y).units) (hidle : s.cx cond = false → s.cy cond = false → exec i s = .next s)
    (hfull : ∀ u, exec full s = .next u → u = s.runAlone f ∧
      exec i s = .next (s.runPe (s.cx cond) (s.cy cond) [] f) ∧ (s.simd = true → ∀ y, (f y).fifo = none)) :
    Gated i full s cond := by
  refine ⟨hidle, fun u hu => ?_⟩
  obtain ⟨rfl, hi, hfifo⟩ := hfull u hu
  obtain ⟨hbff, hptr⟩ := runPe_gated_fifo hfifo (s.cx cond) (s.cy cond)
  refine ⟨_, hi, runPe_outside .., hbff, hptr, fun y => ⟨fun n => ⟨?_, ?_⟩, ?_, ?_, fun bg => ?_⟩⟩
  · exact runPe_gated (view := fun t => t.dreg y n) (fun cx cy => runPe_dreg hwhole y n) cond
  · exact runPe_gated (view := fun t => t.hiddenDreg y n) (fun cx cy => (runPe_hidden ..).trans (ite_self _).symm) cond
  · exact runPe_gated (view := fun t => t.astat y) (fun cx cy => runPe_astat ..) cond
  · exact runPe_gated (view := fun t => t.stky y) (fun cx cy => runPe_stky ..) cond
  · exact runPe_gated (view := fun t => t.data.mrPhys y bg) (fun cx cy => runPe_mrPhys_own ..) cond

/-- R502, R512: a computation under a condition. -/
theorem ifCompute_gated (s : State) (cond : Cond) (c : Compute) : Gated (.ifCompute cond c) (.compute c) s cond := by
  refine gated_of_runPe (fun y => pe_whole s c y) (fun hx hy => ?_) (fun u hu => ?_)
  · have hrun : s.compute c (s.cx cond) (s.cy cond) [] = .ok s := by rw [hx, hy, compute_neither]
    exact outcome_next.2 hrun
  · obtain ⟨hallowed, halone⟩ := compute_alone_ok (outcome_next.1 hu)
    exact ⟨halone, outcome_next.2 (compute_allowed hallowed ..),
      fun hsimd => pe_fifo (not_fifo_of_computeAllowed hsimd hallowed) s⟩

/-- R502, R530: an immediate shift under a condition. -/
theorem ifShiftImm_gated (s : State) (cond : Cond) (sh : ShiftImm) : Gated (.ifShiftImm cond sh) (.ofShiftImm sh) s cond := by
  refine gated_of_runPe (fun y => singles_whole (peShift_singles s y sh)) (fun hx hy => ?_) (fun u hu => ?_)
  · have hrun : s.shiftImm sh (s.cx cond) (s.cy cond) [] = .ok s := by rw [hx, hy, shiftImm_neither]
    exact outcome_next.2 hrun
  · rw [exec_ofShiftImm_eq] at hu
    obtain ⟨hallowed, halone⟩ := shiftImm_alone_ok (outcome_next.1 hu)
    exact ⟨halone, outcome_next.2 (shiftImm_allowed hallowed ..),
      fun hsimd => peShift_fifo (not_fifo_of_shiftAllowed hsimd hallowed) s⟩

/-! ### The claim -/

theorem exec_compute_allowed {s : State} {c : Compute} (h : s.computeAllowed c = .ok ()) :
    exec (.compute c) s = .next (s.runAlone fun y => s.pe y c) :=
  outcome_next.2 (compute_allowed h true true [])

/-- Settles O23: the forms case by case, the conditions by the elements that execute. -/
theorem computeForms : Obligations.ComputeForms := by
  refine ⟨fun s c rn rx => ?_, fun s cond c sh => ?_⟩
  · have hshort : ∀ op : ShortOp, ∃ t, exec (.shortCompute op rn rx) s = .next t := fun op =>
      ⟨_, (exec_shortCompute_eq op rn rx s).trans (exec_compute_allowed (computeAllowed_of (.inl (usesFifo_short op rn rx))))⟩
    exact ⟨(exec_compute_eq_ofCompute · s), outcome_next.2 (compute_none s true true []),
      fun h => ⟨_, exec_compute_allowed (computeAllowed_of h)⟩,
      fun op => ⟨hshort op, exec_shortCompute_eq_shortInstr op rn rx s⟩, rfl, rfl, rfl, rfl, rfl⟩
  · exact ⟨ifCompute_gated s cond c, ifShiftImm_gated s cond sh,
      fun h => ⟨_, outcome_next.2 (compute_allowed (computeAllowed_of h) (s.cx cond) (s.cy cond) [])⟩,
      fun h => ⟨_, outcome_next.2 (shiftImm_allowed (shiftAllowed_of h) (s.cx cond) (s.cy cond) [])⟩⟩

end Sys2Proof.Machine
end

section
/-! PROOFS. Jumps, alone, beside a computation, and with ELSE (R562 to R568, R577 to R580). -/

namespace Sys2Proof.Machine

open Sys2Proof

/-! ### The state that a branch instruction hands to its branch -/

/-- The jump that the instruction may make, it may make after its computation and its branch marks. -/
theorem branchAllowed_atBranch {s c : State} {db : Bool} (hc : Computed s c) (h : s.jumpFree db) :
    (c.atBranch db).branchAllowed db .jump = .ok () := by
  obtain ⟨d, ax, ay, kx, ky, rfl⟩ := hc
  rw [atBranch_eq]
  obtain ⟨hhold, hfree | ⟨b, hb, rfl, hsort, hslots⟩⟩ := h
  · exact branchAllowed_nil _ _ hfree hhold
  · rcases hsort with hsort | hsort <;>
      simp [State.branchAllowed, hhold, hb, refuseIf, hsort, hslots, BranchSort.isJump]

/-- The branch marks lie in the sequencer, the system registers and the boundary. -/
theorem atBranch_outside (c : State) (db : Bool) : SameOutsideControl c (c.atBranch db) := by
  rw [atBranch_eq]
  exact ⟨rfl, rfl, rfl, rfl, rfl, rfl, rfl, rfl, rfl⟩

/-- The stacks and IMASKP are as the instruction found them. -/
theorem atBranch_stacks {s c : State} (hc : Computed s c) (db : Bool) :
    (c.atBranch db).seq.loopStk = s.seq.loopStk ∧ (c.atBranch db).seq.lcntrs = s.seq.lcntrs ∧
      (c.atBranch db).seq.stsStk = s.seq.stsStk ∧ (c.atBranch db).sys.imaskp = s.sys.imaskp := by
  obtain ⟨d, ax, ay, kx, ky, rfl⟩ := hc
  rw [atBranch_eq]
  exact ⟨rfl, rfl, rfl, rfl⟩

/-! ### Taken jumps -/

/-- No jump has both (LA) and (CI). -/
theorem not_aborts_and_clears (mods : JumpMods) : (mods.aborts && mods.clears) = false := by cases mods <;> rfl

theorem takeJump_plain {s : State} {db : Bool} (ha : s.branchAllowed db .jump = .ok ()) (a : IAddr) :
    s.takeJump a db false false = .ok (({ s with bdry := { s.bdry with mode1Now := false } } : State).goto a db .jump) := by
  simp [State.takeJump, ha]

/-- (LA) pops the PC stack and the loop stacks (R566). -/
theorem takeJump_la {s : State} {db : Bool} {q : Seq} {top : IAddr} {e : LoopEntry} {loops : List LoopEntry}
    (ha : s.branchAllowed db .jump = .ok ()) (hp : PopsPc s q top) (hl : s.seq.loopStk = e :: loops) (a : IAddr) :
    s.takeJump a db true false = .ok (({ s with
      seq := { s.seq with
        pcStk := q.pcStk, pcOv := q.pcOv, loopStk := loops, loopOv := false, lcntrs := e.start :: s.seq.lcntrs }
      bdry := { s.bdry with mode1Now := false } } : State).goto a db .jump) := by
  simp [State.takeJump, ha, (popPc_pops hp).2, Except.bind, State.popLoop, Seq.dropLoop, hl]

/-- The system registers after (CI): the service of the interrupt with the lowest number ends, `e` comes back from the status stack
(R567, D29). -/
def Sys.cleared (y : Sys) (e : StsEntry) : Sys :=
  match lowestBit y.imaskp with
  | none => y.restored e
  | some k => { y.restored e with imaskp := y.imaskp &&& ~~~(1#32 <<< k), irptl := y.irptl &&& ~~~(1#32 <<< k) }

theorem cleared_none {y : Sys} (e : StsEntry) (h : y.imaskp = 0#32) : y.cleared e = y.restored e := by
  simp only [Sys.cleared, h, lowestBit_zero]

theorem cleared_service {y : Sys} {k : Nat} (e : StsEntry) (h : Lowest y.imaskp k) : y.cleared e =
    { y.restored e with imaskp := y.imaskp &&& ~~~(1#32 <<< k), irptl := y.irptl &&& ~~~(1#32 <<< k) } := by
  simp only [Sys.cleared, lowestBit_eq_some.mpr h]

theorem clearInterrupt_eq {s : State} {e : StsEntry} {sts : List StsEntry} (hs : s.seq.stsStk = e :: sts) :
    s.clearInterrupt = .ok { s with
      seq := { s.seq with stsStk := sts, stsOv := false }, sys := s.sys.cleared e
      bdry := { s.bdry with astatxWritten := true, astatyWritten := true } } := by
  unfold State.clearInterrupt Sys.cleared
  cases lowestBit s.sys.imaskp with
  | none => exact popSts_eq hs
  | some k => exact popSts_eq (by exact hs)

/-- (CI) ends the service (R567). -/
theorem takeJump_ci {s : State} {db : Bool} {e : StsEntry} {sts : List StsEntry} (ha : s.branchAllowed db .jump = .ok ())
    (hs : s.seq.stsStk = e :: sts) (a : IAddr) : s.takeJump a db false true = .ok (({ s with
      seq := { s.seq with stsStk := sts, stsOv := false }, sys := s.sys.cleared e
      bdry := { s.bdry with astatxWritten := true, astatyWritten := true, mode1Now := !db } } : State).goto a db .jumpCi) := by
  simp [State.takeJump, ha, clearInterrupt_eq hs]

/-- The transfer of control from `v` with a new sequencer, new system registers and new notes for the end of the step. -/
theorem goto_control {c v : State} (h : SameOutsideControl c v) (q : Seq) (y : Sys) (b : Boundary) (a : IAddr) (db : Bool)
    (sort : BranchSort) :
    let t := ({ v with seq := q, sys := y, bdry := b } : State).goto a db sort
    SameOutsideControl c t ∧ t.sys = y ∧ t.bdry.taken = true ∧ t.bdry.mode1Now = b.mode1Now ∧ t.seq = q.sentTo a db sort := by
  cases db <;> exact ⟨h, rfl, rfl, rfl, rfl⟩

/-! ### Jumps -/

section
variable {i : Instr} {s c : State} {db : Bool} {target : IAddr}

/-- A taken jump without (LA) and (CI), from the state after its computation. -/
theorem completes_jump (hc : Computed s c) (hfree : s.jumpFree db)
    (he : exec i s = ((c.atBranch db).takeJump target db false false).outcome) :
    Completes i s fun t => ∃ p, BranchPasses s c p db ∧ SameOutsideControl c t ∧ t.sys = p.sys ∧ t.bdry.taken = true ∧
      t.seq = p.seq.sentTo target db .jump := by
  rw [takeJump_plain (branchAllowed_atBranch hc hfree)] at he
  obtain ⟨hsame, hsys, htaken, -, hseq⟩ := goto_control (atBranch_outside c db) _ _ _ target db .jump
  exact ⟨_, he, _, atBranch_passes hc db, hsame, hsys, htaken, hseq⟩

/-- A taken jump with (LA). -/
theorem completes_jump_la {q : Seq} {top : IAddr} {e : LoopEntry} {loops : List LoopEntry} (hc : Computed s c)
    (hfree : s.jumpFree db) (hpop : PopsPc s q top) (hl : s.seq.loopStk = e :: loops)
    (he : exec i s = ((c.atBranch db).takeJump target db true false).outcome) :
    Completes i s fun t => ∃ p, BranchPasses s c p db ∧ SameOutsideControl c t ∧ t.sys = p.sys ∧ t.bdry.taken = true ∧
      t.seq = ({ p.seq with
        pcStk := q.pcStk, pcOv := q.pcOv, loopStk := loops, loopOv := false, lcntrs := e.start :: s.seq.lcntrs } : Seq).sentTo
          target db .jump := by
  obtain ⟨hloops, hcounts, -, -⟩ := atBranch_stacks hc db
  rw [takeJump_la (branchAllowed_atBranch hc hfree) (popsPc_atBranch hc db hpop) (hloops.trans hl), hcounts] at he
  obtain ⟨hsame, hsys, htaken, -, hseq⟩ := goto_control (atBranch_outside c db) _ _ _ target db .jump
  exact ⟨_, he, _, atBranch_passes hc db, hsame, hsys, htaken, hseq⟩

/-- A taken jump with (CI). -/
theorem completes_jump_ci {e : StsEntry} {sts : List StsEntry} (hc : Computed s c) (hfree : s.jumpFree db)
    (hs : s.seq.stsStk = e :: sts) (he : exec i s = ((c.atBranch db).takeJump target db false true).outcome) :
    Completes i s fun t => ∃ p, BranchPasses s c p db ∧ SameOutsideControl c t ∧ t.bdry.taken = true ∧ t.bdry.mode1Now = !db ∧
      t.seq = ({ p.seq with stsStk := sts, stsOv := false } : Seq).sentTo target db .jumpCi ∧
      (s.sys.imaskp = 0#32 → t.sys = p.sys.restored e) ∧
      ∀ k, Lowest s.sys.imaskp k →
        t.sys = { p.sys.restored e with
          imaskp := s.sys.imaskp &&& ~~~(1#32 <<< k), irptl := p.sys.irptl &&& ~~~(1#32 <<< k) } := by
  obtain ⟨-, -, hsts, hservice⟩ := atBranch_stacks hc db
  rw [takeJump_ci (branchAllowed_atBranch hc hfree) (hsts.trans hs)] at he
  obtain ⟨hsame, hsys, htaken, hmode, hseq⟩ := goto_control (atBranch_outside c db) _ _ _ target db .jumpCi
  refine ⟨_, he, _, atBranch_passes hc db, hsame, htaken, hmode, hseq, fun hnone => ?_, fun k hk => ?_⟩
  · exact hsys.trans (cleared_none e (hservice.trans hnone))
  · rw [← hservice] at hk ⊢
    exact hsys.trans (cleared_service e hk)

end

/-- A branch instruction that jumps, from the state after its computation. -/
theorem jumps_of {i : Instr} {s c : State} {cond : Cond} {mods : JumpMods} {target : IAddr} (hc : Computed s c)
    (he : exec i s = (if s.taken cond then State.jumpTo mods target (c.atBranch mods.delayed)
      else .ok (c.atBranch mods.delayed)).outcome) : Jumps i s cond mods target c := by
  have jump (htaken : s.taken cond = true) :
      exec i s = ((c.atBranch mods.delayed).takeJump target mods.delayed mods.aborts mods.clears).outcome := by
    rw [he, if_pos htaken]
    rfl
  refine ⟨branch_untaken hc he, fun htaken hfree hclears haborts => ?_, fun e loops q top htaken hfree haborts hpop hl => ?_,
    fun e sts htaken hfree hclears hs => ?_⟩
  · exact completes_jump hc hfree (by rw [jump htaken, haborts, hclears])
  · have hclears : mods.clears = false := by simpa [haborts] using not_aborts_and_clears mods
    exact completes_jump_la hc hfree hpop hl (by rw [jump htaken, haborts, hclears])
  · have haborts : mods.aborts = false := by simpa [hclears] using not_aborts_and_clears mods
    exact completes_jump_ci hc hfree hs (by rw [jump htaken, haborts, hclears])

/-- Settles O40: each jump is the same branch, from the state after its computation. -/
theorem jumpInstructions : Obligations.JumpInstructions := by
  intro s c cond addr off md ic mods els comp
  have self := Computed.refl s
  have hrel : s.pcRel addr = s.seq.pc + addr := by rw [State.pcRel, BitVec.signExtend_eq]
  refine ⟨jumps_of self rfl, hrel ▸ jumps_of self rfl, jumps_of self rfl, jumps_of self rfl, fun h => ?_, fun h => ?_⟩
  · exact jumps_of (afterCompute_computed h) (congrArg Res.outcome (branchCompute_after h _))
  · exact jumps_of (afterCompute_computed h) (congrArg Res.outcome (branchCompute_after h _))

/-! ### Jumps with ELSE -/

/-- The move with its condition. -/
def Move.under (m : Move) (cond : Cond) : Move := { m with gate := cond }

/-- Only the core's own registers look at the condition of a move. -/
theorem memoryFx_under (s : State) (m : Move) (cond : Cond) (q : Resolved) (l : Loc) (cx cy : Bool) :
    s.memoryFx (m.under cond) q l cx cy = s.memoryFx m q l cx cy := by
  have hat (t : Config.Target) : (m.under cond).at t = (m.at t).under cond := by
    have hwhat : (m.under cond).what = m.what := rfl
    unfold Move.at
    rw [hwhat]
    split <;> rfl
  unfold State.memoryFx
  simp only [hat]
  rfl

/-- A register outside the caches may be accessed under any condition (R372). -/
theorem mmrRefusal_uncached {r : CoreMmr} (h : r.isCache = false) (s : State) (pm cond store : Bool) (addr : Nat) (v : Word) :
    s.mmrRefusal pm cond store r addr v = none := by
  simp [State.mmrRefusal, h]

theorem mmrFx_under {s : State} {m : Move} {q : Resolved} (h : ∀ r, mmrAt q.ea.toNat = some r → r.isCache = false) (cond : Cond)
    (cx cy : Bool) : s.mmrFx (m.under cond) q cx cy = s.mmrFx m q cx cy := by
  unfold State.mmrFx
  cases hr : mmrAt q.ea.toNat with
  | none => rfl
  | some r =>
    simp only [mmrRefusal_uncached (h r hr)]
    rfl

/-- Away from the cache registers a move does under a condition what it does without one. -/
theorem moveFx_under {s : State} {m : Move}
    (h : ∀ q, s.resolve m = .ok q → ∀ r, mmrAt q.ea.toNat = some r → r.isCache = false) (cond : Cond) (cx cy : Bool) :
    s.moveFx (m.under cond) cx cy = s.moveFx m cx cy := by
  have hres : s.resolve (m.under cond) = s.resolve m := rfl
  unfold State.moveFx
  rw [hres]
  cases hq : s.resolve m with
  | error e => rfl
  | ok q =>
    simp only [mmrFx_under (h q hq), memoryFx_under]
    rfl

/-- The DM move of a Type 10a instruction. -/
def State.elseMove (s : State) (store : Bool) (i m : DagNo) (n : RegNo) : Move :=
  { pm := false, addr := s.regAddr false true i m, store := store, what := .reg (.r n) }

/-- That move alone beside its computation (Type 3a). -/
def elseInstr (store : Bool) (c : Compute) (i m : DagNo) (n : RegNo) : Instr :=
  if store then .storeUreg .true_ c true false i m false (.r n) else .loadUreg .true_ c true false i m false (.r n)

theorem exec_elseInstr (s : State) (store : Bool) (c : Compute) (i m : DagNo) (n : RegNo) :
    exec (elseInstr store c i m n) s = (s.computeMove c (s.elseMove store i m n) true true).outcome := by
  have hgates : exec (elseInstr store c i m n) s =
      (s.computeMove c (s.elseMove store i m n) (s.cx .true_) (s.cy .true_)).outcome := by cases store <;> rfl
  rw [hgates, cy_true, State.cx, condOp_true]

section
variable {s : State} {cond : Cond} {c : Compute} {store : Bool} {i m : DagNo} {n : RegNo}

/-- Where the condition is true on both elements, the jump alone takes place. -/
theorem jumpElse_jump (ht : s.taken cond = true) (hx : s.cx cond = true) (hy : s.cy cond = true) (target : IAddr) :
    s.jumpElse cond target c store i m n = (s.atBranch false).takeJump target false false false := by
  have hidle (mv : Move) : s.computeMove c mv false false = .ok s := by
    simp [State.computeMove, moveFx_idle, State.computeFx, compute_neither, applyFx_regs s []]
  simp [State.jumpElse, ht, hx, hy, hidle]

/-- Where it is false on both, the computation and the move do. -/
theorem jumpElse_else {u : State} (ht : s.taken cond = false) (hx : s.cx cond = false) (hy : s.cy cond = false)
    (hcache : ∀ r, mmrAt (s.present (dagNo false i) (s.ireg (dagNo false i))).toNat = some r → r.isCache = false)
    (hu : exec (elseInstr store c i m n) s = .next u) (target : IAddr) :
    s.jumpElse cond target c store i m n = .ok (u.atBranch false) := by
  have hmove : s.moveFx ((s.elseMove store i m n).under cond) true true = s.moveFx (s.elseMove store i m n) true true := by
    refine moveFx_under (fun q hq => ?_) cond true true
    rw [← Except.ok.inj hq]
    exact hcache
  have hrun : s.computeMove c ((s.elseMove store i m n).under cond) true true = .ok u := by
    rw [exec_elseInstr] at hu
    rw [State.computeMove, hmove]
    exact outcome_next.1 hu
  unfold State.elseMove Move.under at hrun
  simp [State.jumpElse, ht, hx, hy, hrun]

end

/-- Settles O43: a Type 10a instruction is the jump where its condition is true, else the computation and the move. -/
theorem jumpElseInstructions : Obligations.JumpElseInstructions := by
  intro s cond off md ic c i m n indirect near ea noCache row
  have rows {x : Instr} {target : IAddr} (store : Bool) (hexec : exec x s = (s.jumpElse cond target c store i m n).outcome) :
      row x target (elseInstr store c i m n) := by
    refine ⟨fun ht hx hy hfree => ?_, fun ht hx hy hcache u hu => ?_⟩
    · exact completes_jump (.refl s) hfree (by rw [hexec, jumpElse_jump ht hx hy])
    · exact ⟨u.atBranch false, by rw [hexec, jumpElse_else ht hx hy hcache hu]; rfl, atBranch_passes (.refl u) false⟩
  exact ⟨rows false rfl, rows true rfl, rows false rfl, rows true rfl⟩

end Sys2Proof.Machine
end

section
/-! PROOFS. The frame instructions CJUMP and RFRAME (R671, R672). -/

namespace Sys2Proof.Machine

open Sys2Proof

/-! ### CJUMP -/

/-- The old frame pointer in R2, in SIMD mode also in S2 (R671). -/
def State.saveFrame (s : State) : State :=
  let s1 := s.setDreg false 2#4 (reg40 (s.ireg 6#4))
  if s.simd then s1.setDreg true 2#4 (reg40 (s.ireg 6#4)) else s1

/-- The save writes data registers only. -/
theorem saveFrame_rest (s : State) : s.saveFrame = { s with data := s.saveFrame.data } := by
  unfold State.saveFrame
  dsimp only
  split
  · rw [setDreg_rest (s.setDreg false 2#4 (reg40 (s.ireg 6#4)))]
    simp
  · exact setDreg_rest ..

/-- The save reaches register 2 of the elements that run. -/
theorem saveFrame_dreg (s : State) (y : Bool) (n : RegNo) :
    s.saveFrame.dreg y n = if s.runs y = true ∧ n = 2#4 then reg40 (s.ireg 6#4) else s.dreg y n := by
  unfold State.saveFrame State.runs
  cases s.simd <;> cases y <;> simp [State.dreg_setDreg]

theorem saveFrame_mr (s : State) : SameMr s s.saveFrame := by
  intro y bg
  unfold State.saveFrame
  cases s.simd <;> simp

theorem saveFrame_fifo (s : State) : SameFifo s s.saveFrame := by
  unfold SameFifo State.saveFrame
  cases s.simd <;> simp

/-- What a write of an index register makes of the DAGs, the DAGs and the mode decide. -/
theorem setI_dag_congr {s t : State} (hm : t.sys.mode1Act = s.sys.mode1Act) (hd : t.dag = s.dag) (n : RegNo) (v : Word) :
    (t.setI n v).dag = (s.setI n v).dag := by
  unfold State.setI
  rw [altDag_congr hm, hd]
  cases s.altDag n <;> rfl

/-- The register transfers of CJUMP: the save, and the stack pointer as the new frame pointer. -/
def State.enterFrame (s : State) : State := s.saveFrame.setI 6#4 (s.ireg 7#4)

theorem enterFrame_eq (s : State) : s.enterFrame = { s with data := s.saveFrame.data, dag := (s.setI 6#4 (s.ireg 7#4)).dag } := by
  have hdag : (s.saveFrame.setI 6#4 (s.ireg 7#4)).dag = (s.setI 6#4 (s.ireg 7#4)).dag :=
    setI_dag_congr (by rw [saveFrame_rest]) (by rw [saveFrame_rest]) ..
  rw [State.enterFrame, (setI_keeps ..).1, hdag, saveFrame_rest]

theorem cjump_eq (s : State) (a : IAddr) : s.cjump a = (s.enterFrame.atBranch true).takeJump a true false false := rfl

/-- A jump with (DB) alone, where a branch may be taken (R564). -/
theorem delayedJump_runs {v : State} (h : v.branchFree) (a : IAddr) :
    ∃ t, (v.atBranch true).takeJump a true false false = .ok t ∧ SameOutsideControl v t ∧
      t.seq = { v.seq with branches := [{ target := a, slots := 3, sort := .jump }], noIrq := 3 } ∧
      t.bdry.taken = true ∧ ∃ q, t.sys = { v.sys with irptl := q } := by
  obtain ⟨hnone, hhold⟩ := h
  refine ⟨_, takeJump_plain (branchAllowed_atBranch (.refl v) ⟨hhold, .inl hnone⟩) a, ?_⟩
  rw [goto_eq, atBranch_eq]
  exact ⟨⟨rfl, rfl, rfl, rfl, rfl, rfl, rfl, rfl, rfl⟩, by simp [hnone], rfl, _, rfl⟩

/-- Both forms of CJUMP. -/
theorem completes_cjump {i : Instr} {s : State} {a : IAddr} (hi : exec i s = (s.cjump a).outcome) (h : s.branchFree) :
    Completes i s fun t => t.dreg false 2#4 = reg40 (s.ireg 6#4) ∧
      t.dreg true 2#4 = (if s.simd then reg40 (s.ireg 6#4) else s.dreg true 2#4) ∧
      (∀ y n, n ≠ 2#4 → t.dreg y n = s.dreg y n) ∧ t.dag = (s.setI 6#4 (s.ireg 7#4)).dag ∧
      t.seq = { s.seq with branches := [{ target := a, slots := 3, sort := .jump }], noIrq := 3 } ∧
      t.bdry.taken = true ∧ t.mem = s.mem ∧ t.mmr = s.mmr ∧ t.posted = s.posted ∧ t.excl = s.excl ∧ t.bus = s.bus ∧
      t.cache = s.cache ∧ (∀ y, t.astat y = s.astat y ∧ t.stky y = s.stky y) ∧ SameMr s t ∧ SameFifo s t := by
  obtain ⟨t, hrun, ⟨hdata, hdag, hmmr, hmem, hposted, hexcl, -, hbus, hcache⟩, hseq, htaken, q, hsys⟩ :=
    delayedJump_runs (v := s.enterFrame) (by rw [enterFrame_eq]; exact h) a
  rw [enterFrame_eq] at hdata hdag hmmr hmem hposted hexcl hbus hcache hseq hsys
  have hdreg (y : Bool) (n : RegNo) : t.dreg y n = if s.runs y = true ∧ n = 2#4 then reg40 (s.ireg 6#4) else s.dreg y n :=
    (dreg_congr (s := s.saveFrame) (by rw [hsys, saveFrame_rest]) hdata y n).trans (saveFrame_dreg s y n)
  refine ⟨t, by rw [hi, cjump_eq, hrun]; rfl, ?_, ?_, fun y n hn => ?_, hdag, hseq, htaken, hmem, hmmr, hposted, hexcl, hbus, hcache,
    fun y => ?_, fun y bg => ?_, ?_⟩
  · rw [hdreg]
    simp [State.runs]
  · rw [hdreg]
    simp [State.runs]
  · rw [hdreg]
    simp [hn]
  · cases y <;> simp [State.astat, State.stky, hsys]
  · rw [hdata]
    exact saveFrame_mr s y bg
  · rw [SameFifo, hdata]
    exact saveFrame_fifo s

/-! ### RFRAME -/

/-- `I6 = DM(0, I6)` by Type 15a, which loads the frame pointer as RFRAME does (R672). -/
def frameLoad : Instr := .loadUregOffset false 6#3 false (.i 6#4) 0#32

/-- Its move. -/
def frameMove : Move := { pm := false, addr := .pre 6#4 0#32, store := false, what := .reg (.i 6#4) }

theorem frameMove_access : IsAccess frameMove (.pre 6#4 0#32) (.reg (.i 6#4)) .none false := ⟨rfl, rfl, rfl, rfl, rfl⟩

theorem exec_frameLoad (s : State) : exec frameLoad s = (s.moveOnly frameMove true true).outcome := rfl

/-- RFRAME is that move, and after it the old frame pointer in I7. -/
theorem rframe_eq (s : State) : s.rframe = (s.moveOnly frameMove true true).map (State.setI · 7#4 (s.ireg 6#4)) := by
  unfold State.rframe State.moveOnly frameMove
  split <;> rfl

theorem ButHits.setI {u t : State} (h : ButHits u t) (n : RegNo) (v : Word) : ButHits (u.setI n v) (t.setI n v) := by
  obtain ⟨b, c, ht⟩ := h
  have hdag : (t.setI n v).dag = (u.setI n v).dag := setI_dag_congr (by rw [ht]) (by rw [ht]) n v
  refine ⟨b, c, ?_⟩
  rw [(setI_keeps t n v).1, hdag, (setI_keeps u n v).1, ht]

/-- What the load leaves, RFRAME leaves with the old frame pointer in I7. -/
theorem completes_rframe {i : Instr} (hi : i ∈ [Instr.rframe, .rframeShort]) {s u : State}
    (h : Completes frameLoad s fun t => ButHits u t) : Completes i s fun t => ButHits (u.setI 7#4 (s.ireg 6#4)) t := by
  obtain ⟨t, hload, ht⟩ := h
  have hrun : s.moveOnly frameMove true true = .ok t := by rwa [exec_frameLoad, outcome_next] at hload
  have hframe : exec i s = s.rframe.outcome := by
    simp only [List.mem_cons, List.not_mem_nil, or_false] at hi
    rcases hi with rfl | rfl <;> rfl
  refine ⟨_, ?_, ht.setI 7#4 (s.ireg 6#4)⟩
  rw [hframe, rframe_eq, hrun]
  rfl

/-- Of two writes of an index register the second stays. -/
theorem setI_setI (s : State) (n : RegNo) (v w : Word) : (s.setI n v).setI n w = s.setI n w := by
  have halt : (s.setI n v).altDag n = s.altDag n := altDag_congr (by simp) n
  rw [State.setI, halt]
  unfold State.setI
  cases s.altDag n <;> simp [rset]

/-- A pre-modify updates no address register (R272). -/
theorem lands_pre {s s0 : State} {k : RegNo} {md ea : Word} {sp : Config.Space} {n : Nat} (h : Lands s (.pre k md) sp n ea s0) :
    s0 = s := by
  obtain ⟨-, -, -, hs0⟩ := h
  exact hs0

/-- The load of the frame pointer by an access of at most 32 bits: one transfer in SIMD mode too, as I6 has no complement (R290). -/
theorem frameLoad_short {s s1 : State} {sp : Config.Space} {w : Width} {imdw : Bool} {n p : Nat}
    (hw : accessWidth .none sp = some (w, n)) (hr : Reaches s (.pre 6#4 0#32) sp w imdw n p s1) :
    Completes frameLoad s fun t => ButHits (s.setI 6#4 (s.loaded .none sp p)) t := by
  obtain ⟨hshort, hsize, hlegal, rfl, hwidth⟩ := width_sized hw
  obtain ⟨ea, s0, l, hl, hloc, -⟩ := hr
  obtain rfl := lands_pre hl
  have hb := alone_notBroadcast s0 frameMove_access.what rfl
  have hrow : (s0.row frameMove w imdw).plain := by
    cases hq : s0.simd with
    | false => exact .inl (row_sisd hshort hb hq imdw)
    | true => exact .inr (row_alone hshort hb hq rfl imdw)
  have hgo : explicitGate (s0.row frameMove w imdw) false true true = true := by
    rcases hrow with h | h <;> rw [h] <;> rfl
  have h := completes_one_load frameMove_access (makes_alone (exec_frameLoad s0)) rfl hl hloc
    (hsize.symm ▸ hwidth (by simp) fun _ => .inr rfl) rfl hrow hgo
  rw [hsize, hlegal, settled_legal, misalign_alone hshort, loadVal_loaded s0 hw (by simp), writeVal_w32] at h
  exact h

/-- The load of the frame pointer by a 64-bit access, which brings I7 as well (R300). -/
theorem frameLoad_long {s s1 : State} {p : Nat} (hr : Reaches s (.pre 6#4 0#32) .lw .w64 false 1 p s1) :
    Completes frameLoad s fun t => ButHits ((s.setI 6#4 (s.wordAt p)).setI 7#4 (s.wordAt (p + 4))) t := by
  have hs1 : s1 = s := by
    obtain ⟨ea, s0, l, hl, -, rfl⟩ := hr
    exact lands_pre hl
  subst hs1
  obtain ⟨s2, hs2, hsimd, h⟩ := loads_long frameMove_access (makes_alone (exec_frameLoad s1)) (.inl ⟨rfl, rfl⟩) hr rfl
  obtain ⟨hlo, hhi⟩ := readLE_words s1 p
  rw [alone_notBroadcast s1 frameMove_access.what rfl, State.longRegs, if_neg (by simp), List.append_nil, applyRegs_loadLong hsimd,
    hlo, hhi, hs2] at h
  exact h

/-- Settles O48: CJUMP by the state it leaves, RFRAME as a load of I6 followed by the write of I7. -/
theorem frameInstructions : Obligations.FrameInstructions := by
  intro s addr jumps
  have hrel : s.pcRel addr = s.seq.pc + addr := by rw [State.pcRel, BitVec.signExtend_eq]
  refine ⟨completes_cjump rfl, completes_cjump (hrel ▸ rfl), fun i hi => ⟨fun sp w imdw n p s1 hw hr => ?_, fun p s1 hr => ?_⟩⟩
  · exact completes_rframe hi (frameLoad_short hw hr)
  · have h := completes_rframe hi (frameLoad_long hr)
    rwa [setI_setI] at h

end Sys2Proof.Machine
end

section
/-! PROOFS. Fixed-point sums, differences, averages, magnitudes and logical operations (R726 to R734, R737 to R750). -/

namespace Sys2Proof.Machine

open Sys2Proof

/-! ### Complements -/

theorem toInt_complement (b : Word) : (~~~b).toInt = -b.toInt - 1 := by
  have hb := b.isLt
  rw [BitVec.toInt_eq_toNat_cond, BitVec.toInt_eq_toNat_cond, BitVec.toNat_not]
  split <;> split <;> omega

/-! ### Sticky bits -/

/-- An operation without sticky bits sets none. -/
theorem Sticky.none_frame : ({} : Sticky).apply 0#32 &&& ~~~0#32 = 0#32 := by decide

theorem Sticky.apply_aos (v : Bool) (a : Word) : ({ aos := v } : Sticky).apply a = a ||| (if v then 0x4#32 else 0#32) := by
  cases v <;> simp [Sticky.apply, flagBit]

/-! ### Additive operations -/

/-- An instruction that is one addition on each element is an additive operation of the exact sum and its carry (R726 to R728). -/
theorem adds_of_add3 {i : Instr} {s : State} {rn : RegNo} {a b : Bool → Word} {c : Bool → Bool} {sum : Bool → Int}
    {carry : Bool → Bool} (hexec : exec i s = .next (s.runAlone fun y => ((add3 (a y) (b y) (c y)).res s.alusat).to rn))
    (hsum : ∀ y, sum y = (a y).toInt + (b y).toInt + ((c y).toNat : Int))
    (hcarry : ∀ y, carry y = decide (2 ^ 32 ≤ (a y).toNat + (b y).toNat + (c y).toNat)) : Adds i s rn sum carry := by
  obtain ⟨frame, mr, fifo, row⟩ := runAlone_alu s rn (fun y => (add3 (a y) (b y) (c y)).res s.alusat) 0x4#32 fun y => by
    rw [Sum.res, Sticky.apply_aos]; split <;> rfl
  refine ⟨_, hexec, frame, mr, fifo, fun y hy => ?_⟩
  obtain ⟨hval, hflags, hstky⟩ := row y hy
  have hovf : (add3 (a y) (b y) (c y)).v = decide (sum y < -2 ^ 31 ∨ 2 ^ 31 - 1 < sum y) := by rw [hsum, add3_v]
  have hout := add3_out (a y) (b y) (c y) s.alusat
  rw [hovf, ← hsum] at hout
  simp only [fx_of_dreg hval, ← hovf, hcarry]
  rw [hovf]
  exact ⟨hval, hout, hovf ▸ hflags, hovf ▸ hstky.trans (Sticky.apply_aos _ _)⟩

theorem adds_sum {i : Instr} {s : State} {rn rx ry : RegNo}
    (hexec : exec i s = .next (s.runAlone fun y => (s.fixAdd y rx ry).to rn)) :
    Adds i s rn (fun y => (s.fx y rx).toInt + (s.fx y ry).toInt)
      (fun y => decide (2 ^ 32 ≤ (s.fx y rx).toNat + (s.fx y ry).toNat)) :=
  adds_of_add3 hexec (fun _ => by simp) (fun _ => by simp)

theorem adds_difference {i : Instr} {s : State} {rn rx ry : RegNo}
    (hexec : exec i s = .next (s.runAlone fun y => (s.fixSub y rx ry).to rn)) :
    Adds i s rn (fun y => (s.fx y rx).toInt - (s.fx y ry).toInt) (fun y => decide ((s.fx y ry).toNat ≤ (s.fx y rx).toNat)) := by
  refine adds_of_add3 hexec (fun y => ?_) (fun y => ?_)
  · rw [toInt_complement, Bool.toNat_true]; omega
  · have := (s.fx y ry).isLt
    rw [BitVec.toNat_not, Bool.toNat_true, decide_eq_decide]; omega

theorem adds_one {i : Instr} {s : State} {rn rx : RegNo}
    (hexec : exec i s = .next (s.runAlone fun y => (s.fixInc y rx).to rn)) :
    Adds i s rn (fun y => (s.fx y rx).toInt + 1) (fun y => decide (2 ^ 32 ≤ (s.fx y rx).toNat + 1)) :=
  adds_of_add3 hexec (fun _ => by simp) (fun _ => by simp)

theorem adds_minusOne {i : Instr} {s : State} {rn rx : RegNo}
    (hexec : exec i s = .next (s.runAlone fun y => (s.fixDec y rx).to rn)) :
    Adds i s rn (fun y => (s.fx y rx).toInt - 1) (fun y => decide (0 < (s.fx y rx).toNat)) := by
  refine adds_of_add3 hexec (fun y => ?_) (fun y => ?_)
  · rw [show (0xFFFFFFFF#32).toInt = -1 from rfl, Bool.toNat_false]; omega
  · rw [show (0xFFFFFFFF#32).toNat = 2 ^ 32 - 1 from rfl, Bool.toNat_false, decide_eq_decide]; omega

theorem adds_carry {i : Instr} {s : State} {rn rx ry : RegNo}
    (hexec : exec i s = .next (s.runAlone fun y => (s.fixAddCarry y rx ry).to rn)) :
    Adds i s rn (fun y => (s.fx y rx).toInt + (s.fx y ry).toInt + ((s.ci y).toNat : Int))
      (fun y => decide (2 ^ 32 ≤ (s.fx y rx).toNat + (s.fx y ry).toNat + (s.ci y).toNat)) :=
  adds_of_add3 hexec (fun _ => rfl) (fun _ => rfl)

theorem adds_borrow {i : Instr} {s : State} {rn rx ry : RegNo}
    (hexec : exec i s = .next (s.runAlone fun y => (s.fixSubBorrow y rx ry).to rn)) :
    Adds i s rn (fun y => (s.fx y rx).toInt - (s.fx y ry).toInt + ((s.ci y).toNat : Int) - 1)
      (fun y => decide ((s.fx y ry).toNat < (s.fx y rx).toNat + (s.ci y).toNat)) := by
  refine adds_of_add3 hexec (fun y => ?_) (fun y => ?_)
  · rw [toInt_complement]; omega
  · have := (s.fx y ry).isLt
    rw [BitVec.toNat_not, decide_eq_decide]; omega

theorem adds_plusCarry {i : Instr} {s : State} {rn rx : RegNo}
    (hexec : exec i s = .next (s.runAlone fun y => (s.fixPlusCarry y rx).to rn)) :
    Adds i s rn (fun y => (s.fx y rx).toInt + ((s.ci y).toNat : Int))
      (fun y => decide (2 ^ 32 ≤ (s.fx y rx).toNat + (s.ci y).toNat)) :=
  adds_of_add3 hexec (fun _ => by simp) (fun _ => by simp)

theorem adds_plusCarryMinusOne {i : Instr} {s : State} {rn rx : RegNo}
    (hexec : exec i s = .next (s.runAlone fun y => (s.fixPlusCarryMinus1 y rx).to rn)) :
    Adds i s rn (fun y => (s.fx y rx).toInt + ((s.ci y).toNat : Int) - 1)
      (fun y => decide (0 < (s.fx y rx).toNat + (s.ci y).toNat)) := by
  refine adds_of_add3 hexec (fun y => ?_) (fun y => ?_)
  · rw [show (0xFFFFFFFF#32).toInt = -1 from rfl]; omega
  · rw [show (0xFFFFFFFF#32).toNat = 2 ^ 32 - 1 from rfl, decide_eq_decide]; omega

theorem adds_negation {i : Instr} {s : State} {rn rx : RegNo}
    (hexec : exec i s = .next (s.runAlone fun y => (s.fixNeg y rx).to rn)) :
    Adds i s rn (fun y => -(s.fx y rx).toInt) (fun y => decide ((s.fx y rx).toNat = 0)) := by
  refine adds_of_add3 hexec (fun y => ?_) (fun y => ?_)
  · rw [toInt_complement, BitVec.toInt_zero, Bool.toNat_true]; omega
  · rw [BitVec.toNat_not, BitVec.toNat_zero, Bool.toNat_true, decide_eq_decide]; omega

/-! ### The average (R734) -/

/-- The halved sum, to the even neighbour or down. -/
def avgInt (sum : Int) (trunc : Bool) : Int := if sum % 2 = 0 || trunc || sum / 2 % 2 = 0 then sum / 2 else sum / 2 + 1

theorem avgInt_near (sum : Int) (trunc : Bool) : 2 * avgInt sum trunc - sum = 0 ∨ (2 * avgInt sum trunc - sum).natAbs = 1 := by
  unfold avgInt; split <;> grind

theorem avgInt_down {sum : Int} (h : sum % 2 ≠ 0) : 2 * avgInt sum true = sum - 1 := by
  simp only [avgInt, Bool.or_true, Bool.true_or, if_true]; omega

theorem avgInt_even {sum : Int} (h : sum % 2 ≠ 0) : avgInt sum false % 2 = 0 := by
  simp only [avgInt, Bool.or_false, Bool.or_eq_true, decide_eq_true_eq]; split <;> omega

/-- The average of two words is a word: it does not overflow. -/
theorem toInt_ofInt_avgInt (x w : Word) (trunc : Bool) :
    (BitVec.ofInt 32 (avgInt (x.toInt + w.toInt) trunc)).toInt = avgInt (x.toInt + w.toInt) trunc := by
  have hx := BitVec.toInt_lt (x := x)
  have hw := BitVec.toInt_lt (x := w)
  have hx' := BitVec.le_toInt (x := x)
  have hw' := BitVec.le_toInt (x := w)
  rw [BitVec.toInt_ofInt, Int.bmod_def, avgInt]
  simp only [Bool.or_eq_true, decide_eq_true_eq] at *
  split <;> omega

theorem lsb_eq_false_of_toInt {v : Word} (h : v.toInt % 2 = 0) : v.getLsbD 0 = false := by
  have hv := v.isLt
  rw [BitVec.toInt_eq_toNat_cond] at h
  have : v.toNat % 2 = 0 := by split at h <;> omega
  simp [BitVec.getLsbD, Nat.testBit_zero, this]

theorem completes_fixAvg (s : State) (rn rx ry : RegNo) :
    Completes (.fixAvg rn rx ry) s fun t =>
      ComputeFrame s t [rn] aluFlagMask 0#32 ∧ SameMr s t ∧ SameFifo s t ∧
      ∀ y, s.runs y = true →
        let sum := (s.fx y rx).toInt + (s.fx y ry).toInt
        let out := t.fx y rn
        t.dreg y rn = reg40 out ∧
        (2 * out.toInt - sum = 0 ∨ (2 * out.toInt - sum).natAbs = 1) ∧
        (sum % 2 ≠ 0 → if s.mode .truncate then 2 * out.toInt = sum - 1 else out.getLsbD 0 = false) ∧
        AluFlagsAre t y (decide (out = 0#32)) false out.msb (decide (2 ^ 32 ≤ (s.fx y rx).toNat + (s.fx y ry).toNat))
          false false false := by
  obtain ⟨frame, mr, fifo, row⟩ := runAlone_alu s rn (fun y => s.fixAvg y rx ry) 0#32 fun _ => Sticky.none_frame
  refine ⟨_, rfl, frame, mr, fifo, fun y hy => ?_⟩
  obtain ⟨hval, hflags, -⟩ := row y hy
  have hint := toInt_ofInt_avgInt (s.fx y rx) (s.fx y ry) (s.mode .truncate)
  simp only [fx_of_dreg hval]
  refine ⟨hval, hint.symm ▸ avgInt_near _ _, fun hodd => ?_, hflags⟩
  split
  case isTrue htrunc => exact (congrArg (2 * ·) hint).trans (htrunc ▸ avgInt_down hodd)
  case isFalse htrunc =>
    refine lsb_eq_false_of_toInt ((congrArg (· % 2) hint).trans ?_)
    rw [eq_false_of_ne_true htrunc]
    exact avgInt_even hodd

/-! ### The magnitude (R742) -/

/-- Negation overflows for 0x80000000 alone. -/
theorem negate_v (x : Word) : (add3 0#32 (~~~x) true).v = decide (x = 0x80000000#32) := by
  have hx := x.isLt
  rw [add3_v, toInt_complement, BitVec.toInt_zero, Bool.toNat_true, decide_eq_decide, ← BitVec.toNat_inj,
    BitVec.toInt_eq_toNat_cond, show (0x80000000#32).toNat = 2 ^ 31 from rfl]
  split <;> omega

/-- The word that ABS delivers: the magnitude; that of 0x80000000 wraps or saturates. -/
def absWord (x : Word) (sat : Bool) : Word :=
  if decide (x = 0x80000000#32) && sat then 0x7FFFFFFF#32 else BitVec.ofNat 32 x.toInt.natAbs

theorem toNat_absWord (x : Word) (sat : Bool) :
    (absWord x sat).toNat = if decide (x = 0x80000000#32) && sat then 2 ^ 31 - 1 else x.toInt.natAbs := by
  have hlt := BitVec.toInt_lt (x := x)
  have hle := BitVec.le_toInt (x := x)
  unfold absWord
  split
  · rfl
  · rw [BitVec.toNat_ofNat, Nat.mod_eq_of_lt (by omega)]

theorem absWord_eq_zero (x : Word) (sat : Bool) : absWord x sat = 0#32 ↔ x = 0#32 := by
  rw [← BitVec.toNat_inj, toNat_absWord, BitVec.toNat_zero]
  split
  case isTrue h =>
    have hx : x = 0x80000000#32 := by simpa using (Bool.and_eq_true_iff.1 h).1
    simp [hx]
  case isFalse => rw [Int.natAbs_eq_zero, ← BitVec.toInt_inj, BitVec.toInt_zero]

/-- ABS of a negative operand is its negation; any other operand stands. -/
theorem absWord_eq (x : Word) (sat : Bool) : (if x.msb then (add3 0#32 (~~~x) true).out sat else x) = absWord x sat := by
  have hle := BitVec.le_toInt (x := x)
  apply BitVec.eq_of_toInt_eq
  split
  case isTrue hneg =>
    rw [BitVec.msb_eq_toInt, decide_eq_true_eq] at hneg
    rw [add3_out, negate_v, toInt_complement, BitVec.toInt_zero, Bool.toNat_true, absWord]
    split
    · rw [if_pos (by omega)]; rfl
    · rw [BitVec.toInt_ofNat']
      congr 1; omega
  case isFalse hpos =>
    rw [BitVec.msb_eq_toInt, decide_eq_true_eq] at hpos
    have hx : x ≠ 0x80000000#32 := by rintro rfl; exact hpos (by decide)
    rw [absWord, decide_eq_false hx, Bool.false_and, if_neg Bool.false_ne_true, ← BitVec.ofInt_natCast,
      Int.natAbs_of_nonneg (by omega), BitVec.ofInt_toInt]

/-- ABS in closed form (R742). -/
theorem absRes_eq (x : Word) (sat : Bool) :
    absRes x sat =
      { value := reg40 (absWord x sat)
        flags := { az := decide (x = 0#32), av := decide (x = 0x80000000#32), as := x.msb }
        sticky := { aos := decide (x = 0x80000000#32) } } := by
  have hv : (x.msb && decide (x = 0x80000000#32)) = decide (x = 0x80000000#32) := by
    by_cases h : x = 0x80000000#32
    · subst h; rfl
    · simp [h]
  have hz : (absWord x sat == 0#32) = decide (x = 0#32) := by rw [beq_eq_decide, decide_eq_decide, absWord_eq_zero]
  simp only [absRes, absWord_eq, negate_v, hv, hz]

theorem completes_fixAbs (s : State) (rn rx : RegNo) :
    Completes (.fixAbs rn rx) s fun t =>
      ComputeFrame s t [rn] aluFlagMask 0x4#32 ∧ SameMr s t ∧ SameFifo s t ∧
      ∀ y, s.runs y = true →
        let x := s.fx y rx
        let out := t.fx y rn
        let ovf := decide (x = 0x80000000#32)
        t.dreg y rn = reg40 out ∧
        out.toNat = (if ovf && s.mode .alusat then 2 ^ 31 - 1 else x.toInt.natAbs) ∧
        AluFlagsAre t y (decide (x = 0#32)) ovf false false x.msb false false ∧
        t.stky y = s.stky y ||| (if ovf then 0x4#32 else 0#32) := by
  obtain ⟨frame, mr, fifo, row⟩ := runAlone_alu s rn (fun y => s.fixAbs y rx) 0x4#32 fun y => by
    rw [State.fixAbs, absRes_eq, Sticky.apply_aos]; split <;> rfl
  refine ⟨_, rfl, frame, mr, fifo, fun y hy => ?_⟩
  obtain ⟨hval, hflags, hstky⟩ := row y hy
  rw [State.fixAbs, absRes_eq] at hval hflags hstky
  simp only [fx_of_dreg hval]
  exact ⟨hval, toNat_absWord _ _, hflags, hstky.trans (Sticky.apply_aos _ _)⟩

/-- Settles O1: every additive form is one addition of the adder; the average and ABS by their closed forms. -/
theorem fixedArithmetic : Obligations.FixedArithmetic := by
  refine ⟨fun s rn rx ry => ?_, completes_fixAvg, completes_fixAbs⟩
  exact ⟨adds_sum rfl, adds_difference rfl, adds_carry rfl, adds_borrow rfl, adds_plusCarry rfl, adds_plusCarryMinusOne rfl,
    adds_one rfl, adds_minusOne rfl, adds_negation rfl, adds_sum rfl, adds_difference rfl, adds_one rfl, adds_minusOne rfl⟩

/-! ### Logical operations (R729, R743 to R750) -/

/-- An instruction that delivers one word on each element with the flags of R729 is a logical operation of that word. -/
theorem logic_of_logicRes {i : Instr} {s : State} {rn : RegNo} {out : Bool → Word}
    (hexec : exec i s = .next (s.runAlone fun y => (logicRes (out y)).to rn)) : Logic i s rn out := by
  obtain ⟨frame, mr, fifo, row⟩ := runAlone_alu s rn (fun y => logicRes (out y)) 0#32 fun _ => Sticky.none_frame
  refine ⟨_, hexec, frame, mr, fifo, fun y hy => ?_⟩
  obtain ⟨hval, hflags, -⟩ := row y hy
  exact ⟨hval, hflags⟩

theorem ofInt_min (x w : Word) : BitVec.ofInt 32 (min x.toInt w.toInt) = if x.toInt ≤ w.toInt then x else w := by
  rw [min_def]; split <;> exact BitVec.ofInt_toInt

theorem ofInt_max (x w : Word) : BitVec.ofInt 32 (max x.toInt w.toInt) = if w.toInt ≤ x.toInt then x else w := by
  rw [max_comm, max_def]; split <;> exact BitVec.ofInt_toInt

/-- CLIP keeps the sign and bounds the magnitude (R750). -/
theorem ofInt_clip (x w : Word) : BitVec.ofInt 32 (x.toInt.sign * min x.toInt.natAbs w.toInt.natAbs) = clipWord x w := by
  unfold clipWord
  split
  case isTrue h => rw [min_eq_left (by omega), Int.sign_mul_natAbs, BitVec.ofInt_toInt]
  case isFalse h =>
    rw [min_eq_right (by omega)]
    split
    case isTrue hx =>
      rcases hx.eq_or_lt with h0 | hpos
      · have hw : w.toInt.natAbs = 0 := by omega
        simp [hw]
      · rw [Int.sign_eq_one_of_pos hpos, one_mul, BitVec.ofInt_natCast]
    case isFalse hx => rw [Int.sign_eq_neg_one_of_neg (by omega), neg_one_mul]

/-- Settles O2: every form delivers one word with the flags of R729; MIN, MAX and CLIP by their signed order. -/
theorem logicalOperations : Obligations.LogicalOperations := by
  intro s rn rx ry
  simp only [ofInt_min, ofInt_max, ofInt_clip]
  and_intros <;> exact logic_of_logicRes rfl

end Sys2Proof.Machine
end

section
/-! PROOFS. Fixed-point and floating-point compares (R132, R735, R736, R795, R850). -/

namespace Sys2Proof.Machine

open Sys2Proof

/-! ### The flags of a compare -/

theorem Sticky.apply_ais (v : Bool) (a : Word) : ({ ais := v } : Sticky).apply a = a ||| (if v then 0x20#32 else 0#32) := by
  cases v <;> simp [Sticky.apply, flagBit]

/-- The accumulation of a compare leaves the bits below CACC. -/
theorem pushCacc_below (g : Bool) (a : Word) {k : Nat} (hk : k < 24) : (pushCacc g a).getLsbD k = a.getLsbD k := by
  rw [pushCacc_getLsbD, if_neg (by omega), if_neg (by omega), decide_eq_true hk, Bool.and_true]

/-- The bits above the ALU flags are as before an ALU operation. -/
theorem AluFlags.apply_above (f : AluFlags) (a : Word) {k : Nat} (hk : 24 ≤ k) (hk' : k < 32) :
    (f.apply a).getLsbD k = a.getLsbD k := by
  have hmask : (~~~aluFlagMask).getLsbD k = true := by
    have : ∀ j : Fin 32, 24 ≤ j.val → (~~~aluFlagMask).getLsbD j.val = true := by decide
    exact this ⟨k, hk'⟩ hk
  have h := congrArg (·.getLsbD k) (AluFlags.apply_frame f a)
  simpa only [BitVec.getLsbD_and, hmask, Bool.and_true] using h

/-- A compare writes the ALU flags and CACC only (R132, R149). -/
theorem pushCacc_apply_frame (g : Bool) (f : AluFlags) (a : Word) :
    pushCacc g (f.apply a) &&& ~~~compFlagMask = a &&& ~~~compFlagMask := by
  have hg : flagBit 31 g &&& ~~~compFlagMask = 0#32 := by cases g <;> decide
  have hs : ∀ x : Word, (x &&& 0x7F000000#32) &&& ~~~compFlagMask = 0#32 := fun x => by
    rw [BitVec.and_assoc, show 0x7F000000#32 &&& ~~~compFlagMask = 0#32 from by decide, BitVec.and_zero]
  have hm : ~~~compFlagMask = ~~~aluFlagMask &&& ~~~compFlagMask := by decide
  rw [pushCacc, or_and_of_and_eq_zero hg, or_and_of_and_eq_zero (hs _), BitVec.and_assoc,
    show 0x00FFFFFF#32 &&& ~~~compFlagMask = ~~~compFlagMask from by decide, hm, ← BitVec.and_assoc, AluFlags.apply_frame,
    BitVec.and_assoc]

/-- An instruction that is one compare on each element: its flags, its bit in CACC, its sticky bit, and nothing else (R735). -/
theorem compares_of_compareOut {i : Instr} {s : State} {lt eq gt nan : Bool → Bool} {float : Bool}
    (hexec : exec i s = .next (s.runAlone fun y => compareOut (lt y) (eq y) (gt y) (nan y) float)) :
    Compares i s lt eq gt nan float := by
  refine ⟨_, hexec, runAlone_frame ?_ ?_ ?_, runAlone_sameMr fun _ => rfl, runAlone_sameFifo fun _ => rfl, fun y hy => ?_⟩
  · exact fun y u hu => absurd hu List.not_mem_nil
  · exact fun y a => pushCacc_apply_frame _ _ a
  · exact fun y a => Sticky.apply_frame _ _ a (by rw [compareOut, Sticky.apply_ais]; split <;> rfl)
  unfold AluFlagsAre State.flagOf
  rw [runAlone_astat, runAlone_stky, if_pos hy, if_pos hy]
  have hastat : (compareOut (lt y) (eq y) (gt y) (nan y) float).astat (s.astat y) =
      pushCacc (gt y) (AluFlags.apply { az := eq y, an := lt y, ai := nan y, af := float } (s.astat y)) := rfl
  rw [hastat]
  refine ⟨?_, ?_, fun k hk hk' => ?_, Sticky.apply_ais _ _⟩
  · simp only [pushCacc_below, Nat.reduceLT]
    exact AluFlags.apply_bits _ _
  · rw [pushCacc_getLsbD, if_pos rfl]
  · rw [pushCacc_getLsbD, if_neg (by omega), if_pos ⟨hk, hk'⟩, AluFlags.apply_above _ _ (by omega) (by omega)]

/-- COMP (R735), by the long and by the short form. -/
theorem compares_signed {i : Instr} {s : State} {rx ry : RegNo}
    (hexec : exec i s = .next (s.runAlone fun y => s.fixComp y rx ry)) :
    Compares i s (fun y => decide ((s.fx y rx).toInt < (s.fx y ry).toInt)) (fun y => s.fx y rx == s.fx y ry)
      (fun y => decide ((s.fx y ry).toInt < (s.fx y rx).toInt)) (fun _ => false) false := by
  have heq : ∀ y, (s.fx y rx == s.fx y ry) = decide ((s.fx y rx).toInt = (s.fx y ry).toInt) := fun y => by
    rw [beq_eq_decide, decide_eq_decide, BitVec.toInt_inj]
  simp only [heq]
  exact compares_of_compareOut hexec

/-- COMPU (R736). -/
theorem compares_unsigned {i : Instr} {s : State} {rx ry : RegNo}
    (hexec : exec i s = .next (s.runAlone fun y => s.fixCompU y rx ry)) :
    Compares i s (fun y => decide ((s.fx y rx).toNat < (s.fx y ry).toNat)) (fun y => s.fx y rx == s.fx y ry)
      (fun y => decide ((s.fx y ry).toNat < (s.fx y rx).toNat)) (fun _ => false) false := by
  have heq : ∀ y, (s.fx y rx == s.fx y ry) = decide ((s.fx y rx).toNat = (s.fx y ry).toNat) := fun y => by
    rw [beq_eq_decide, decide_eq_decide, BitVec.toNat_inj]
  simp only [heq]
  exact compares_of_compareOut hexec

/-! ### The order of floating-point numbers (R795)

The key of a pattern orders magnitudes as integers. On keys the value is strictly monotone: within a binade the fraction grows,
from one binade to the next the power of two. -/

namespace Fmt

/-- The value of exponent and fraction bits without a sign, with 0 for zero. -/
def magnitude (f : Fmt) (m : Nat) : ℚ :=
  if m = 0 then 0 else
    (1 + ((m % 2 ^ f.frac : Nat) : ℚ) / 2 ^ f.frac) * (2 : ℚ) ^ (((m / 2 ^ f.frac : Nat) : ℤ) - (f.bias : ℤ))

theorem magnitude_pos (f : Fmt) {m : Nat} (h : m ≠ 0) : 0 < f.magnitude m := by
  rw [magnitude, if_neg h]; positivity

theorem magnitude_bits (f : Fmt) {e fr : Nat} (hne : e * 2 ^ f.frac + fr ≠ 0) (hfr : fr < 2 ^ f.frac) :
    f.magnitude (e * 2 ^ f.frac + fr) = (1 + (fr : ℚ) / 2 ^ f.frac) * (2 : ℚ) ^ ((e : ℤ) - (f.bias : ℤ)) := by
  have hw : 0 < 2 ^ f.frac := by positivity
  rw [magnitude, if_neg hne, Nat.mul_comm, Nat.mul_add_mod, Nat.mod_eq_of_lt hfr, Nat.mul_add_div hw,
    Nat.div_eq_of_lt hfr, Nat.add_zero]

theorem magnitude_lt_succ (f : Fmt) (m : Nat) : f.magnitude m < f.magnitude (m + 1) := by
  rcases eq_or_ne m 0 with rfl | hm
  · rw [magnitude, if_pos rfl]; exact magnitude_pos f (by omega)
  obtain ⟨e, fr, hfr, rfl⟩ : ∃ e fr, fr < 2 ^ f.frac ∧ m = e * 2 ^ f.frac + fr :=
    ⟨_, _, Nat.mod_lt _ (by positivity), (Nat.div_add_mod' m _).symm⟩
  rw [magnitude_bits f hm hfr]
  rcases Nat.lt_or_ge (fr + 1) (2 ^ f.frac) with hin | hout
  case inl =>
    rw [Nat.add_assoc, magnitude_bits f (by omega) hin]
    gcongr
    omega
  case inr =>
    have hlt : (fr : ℚ) / 2 ^ f.frac < 1 := (div_lt_one (by positivity)).2 (by exact_mod_cast hfr)
    have hnext : e * 2 ^ f.frac + fr + 1 = (e + 1) * 2 ^ f.frac + 0 := by rw [Nat.succ_mul]; omega
    rw [hnext, magnitude_bits f (by omega) (by positivity)]
    calc _ < 2 * (2 : ℚ) ^ ((e : ℤ) - (f.bias : ℤ)) := by gcongr; linarith
      _ = (2 : ℚ) ^ (((e + 1 : Nat) : ℤ) - (f.bias : ℤ)) := by
        rw [← zpow_one_add₀ two_ne_zero]; congr 1; push_cast; ring
      _ = _ := by simp

theorem magnitude_strictMono (f : Fmt) : StrictMono f.magnitude := strictMono_nat_of_lt_succ f.magnitude_lt_succ

/-- The number that a key stands for, were there no infinities. -/
def ofKey (f : Fmt) (k : Int) : ℚ := (k.sign : ℚ) * f.magnitude k.natAbs

theorem ofKey_natCast (f : Fmt) (m : Nat) : f.ofKey m = f.magnitude m := by
  rcases eq_or_ne m 0 with rfl | h
  · simp [ofKey, magnitude]
  · rw [ofKey, Int.sign_natCast_of_ne_zero h, Int.natAbs_natCast, Int.cast_one, one_mul]

theorem ofKey_neg (f : Fmt) (k : Int) : f.ofKey (-k) = -f.ofKey k := by
  rw [ofKey, ofKey, Int.sign_neg, Int.natAbs_neg, Int.cast_neg, neg_mul]

theorem ofKey_strictMono (f : Fmt) : StrictMono f.ofKey := by
  refine strictMono_of_odd_strictMonoOn_nonneg f.ofKey_neg fun a ha b hb hab => ?_
  lift a to ℕ using ha
  lift b to ℕ using hb
  rw [ofKey_natCast, ofKey_natCast]
  exact f.magnitude_strictMono (by exact_mod_cast hab)

/-- The key of +infinity. -/
def infKey (f : Fmt) : Nat := (2 ^ f.ebits - 1) * 2 ^ f.frac

/-- The place of a key in the order of R795. -/
def placeOfKey (f : Fmt) (k : Int) : WithBot (WithTop ℚ) :=
  if k = f.infKey then ((⊤ : WithTop ℚ) : WithBot (WithTop ℚ))
  else if k = -f.infKey then ⊥
  else ((f.ofKey k : WithTop ℚ) : WithBot (WithTop ℚ))

theorem placeOfKey_strictMonoOn (f : Fmt) : StrictMonoOn f.placeOfKey (Set.Icc (-f.infKey) f.infKey) := by
  intro a ha b hb hab
  obtain ⟨hal, -⟩ := ha
  obtain ⟨-, hbu⟩ := hb
  have hatop : a ≠ f.infKey := by omega
  have hbbot : b ≠ -f.infKey := by omega
  simp only [placeOfKey, if_neg hatop, if_neg hbbot]
  split
  case isTrue => split <;> exact WithBot.bot_lt_coe _
  case isFalse =>
    split
    · exact WithBot.coe_lt_coe.2 (WithTop.coe_lt_top _)
    · exact WithBot.coe_lt_coe.2 (WithTop.coe_lt_coe.2 (f.ofKey_strictMono hab))

/-! ### The key of a pattern -/

/-- Exponent and fraction of a flushed pattern: 0 for a zero or a denormal. -/
def keyBits (f : Fmt) (v : Nat) : Nat := if f.exp v = 0 then 0 else f.exp v * 2 ^ f.frac + f.fraction v

theorem flush_mod (f : Fmt) (v : Nat) : f.flush v % 2 ^ (f.frac + f.ebits) = f.keyBits v := by
  unfold flush keyBits
  split
  · rw [encode, Nat.add_zero, Nat.add_zero, Nat.mul_assoc, ← pow_add, Nat.add_comm, Nat.mul_mod_left]
  · rw [pow_add, Nat.mod_mul, exp, fraction, Nat.mul_comm, Nat.add_comm]

theorem key_eq (f : Fmt) (v : Nat) : f.key v = if f.sign v then -(f.keyBits v : Int) else f.keyBits v := by
  rw [← flush_mod]; push_cast; rfl

theorem fraction_lt (f : Fmt) (v : Nat) : f.fraction v < 2 ^ f.frac := Nat.mod_lt _ (by positivity)

theorem exp_le (f : Fmt) (v : Nat) : f.exp v ≤ 2 ^ f.ebits - 1 := Nat.le_sub_one_of_lt (Nat.mod_lt _ (by positivity))

theorem ofKey_key (f : Fmt) (v : Nat) :
    f.ofKey (f.key v) = if f.sign v then -f.magnitude (f.keyBits v) else f.magnitude (f.keyBits v) := by
  rw [key_eq]; split <;> simp only [ofKey_neg, ofKey_natCast]

/-! ### The key and the place of a pattern -/

theorem isNan_classify (f : Fmt) (v : Nat) :
    (f.classify v).isNan = true ↔ f.exp v = 2 ^ f.ebits - 1 ∧ f.fraction v ≠ 0 := by
  unfold classify
  split
  case isTrue h => split <;> simp_all [Fl.isNan]
  case isFalse h => split <;> simp [Fl.isNan, h]

theorem place_of_nan {f : Fmt} {v : Nat} (h : (f.classify v).isNan = true) : f.place v = none := by
  obtain ⟨he, hfr⟩ := (f.isNan_classify v).1 h
  rw [place, classify, if_pos he, if_neg hfr]

theorem isNan_of_place {f : Fmt} {v : Nat} {p : WithBot (WithTop ℚ)} (h : f.place v = some p) :
    (f.classify v).isNan = false :=
  Bool.eq_false_iff.2 fun hnan => Option.some_ne_none p (h.symm.trans (place_of_nan hnan))

/-- The value of a finite pattern is that of its key. -/
theorem value_of_finite {f : Fmt} {v : Nat} (h : f.exp v ≠ 2 ^ f.ebits - 1) : f.value v = some (f.ofKey (f.key v)) := by
  rw [ofKey_key, value, if_neg h, keyBits]
  split
  case isTrue => simp [magnitude]
  case isFalse h0 =>
    have hne : f.exp v * 2 ^ f.frac + f.fraction v ≠ 0 := by have := Nat.pos_of_ne_zero h0; positivity
    rw [magnitude_bits f hne (f.fraction_lt v)]
    split
    · rw [neg_one_mul, neg_mul]
    · rw [one_mul]

section
variable {f : Fmt} (hE : 0 < f.ebits) {v : Nat}
include hE

theorem maxExp_pos : 0 < 2 ^ f.ebits - 1 := Nat.sub_pos_of_lt (Nat.one_lt_two_pow hE.ne')

theorem infKey_pos : 0 < f.infKey := Nat.mul_pos (maxExp_pos hE) (by positivity)

theorem keyBits_of_finite (h : f.exp v ≠ 2 ^ f.ebits - 1) : f.keyBits v < f.infKey := by
  unfold keyBits
  split
  case isTrue => exact infKey_pos hE
  case isFalse =>
    have hfr := f.fraction_lt v
    have hexp : f.exp v + 1 ≤ 2 ^ f.ebits - 1 := by have := f.exp_le v; omega
    calc _ < (f.exp v + 1) * 2 ^ f.frac := by rw [Nat.succ_mul]; omega
      _ ≤ f.infKey := Nat.mul_le_mul_right _ hexp

theorem keyBits_of_infinite (he : f.exp v = 2 ^ f.ebits - 1) (hfr : f.fraction v = 0) : f.keyBits v = f.infKey := by
  rw [keyBits, he, if_neg (maxExp_pos hE).ne', hfr, infKey, Nat.add_zero]

theorem place_of_finite (h : f.exp v ≠ 2 ^ f.ebits - 1) : f.place v = some (f.placeOfKey (f.key v)) := by
  have hlt := keyBits_of_finite hE h
  have hkey : f.key v ≠ f.infKey ∧ f.key v ≠ -f.infKey := by rw [key_eq]; split <;> omega
  rw [placeOfKey, if_neg hkey.1, if_neg hkey.2, place, value_of_finite h, classify, if_neg h]
  by_cases h0 : f.exp v = 0
  · rw [if_pos h0]
  · rw [if_neg h0]

theorem place_of_infinite (he : f.exp v = 2 ^ f.ebits - 1) (hfr : f.fraction v = 0) :
    f.place v = some (f.placeOfKey (f.key v)) := by
  have hpos := infKey_pos hE
  have hval : f.value v = none := by rw [value, if_pos he]
  rw [key_eq, keyBits_of_infinite hE he hfr, place, hval, classify, if_pos he, if_pos hfr]
  cases f.sign v
  case false => simp [placeOfKey]
  case true =>
    have hne : -(f.infKey : Int) ≠ f.infKey := by omega
    simp [placeOfKey, hne]

/-- The place of a pattern that is no NAN is that of its key, and its key lies between those of the infinities. -/
theorem place_eq_placeOfKey (h : (f.classify v).isNan = false) :
    f.place v = some (f.placeOfKey (f.key v)) ∧ f.key v ∈ Set.Icc (-(f.infKey : Int)) f.infKey := by
  have hmem : f.keyBits v ≤ f.infKey → f.key v ∈ Set.Icc (-(f.infKey : Int)) f.infKey := fun hle => by
    rw [key_eq, Set.mem_Icc]; split <;> omega
  by_cases he : f.exp v = 2 ^ f.ebits - 1
  · have hfr : f.fraction v = 0 := by
      by_contra hfr
      exact Bool.eq_false_iff.1 h ((f.isNan_classify v).2 ⟨he, hfr⟩)
    exact ⟨place_of_infinite hE he hfr, hmem (keyBits_of_infinite hE he hfr).le⟩
  · exact ⟨place_of_finite hE he, hmem (keyBits_of_finite hE he).le⟩

theorem place_eq_none_iff : f.place v = none ↔ (f.classify v).isNan = true := by
  refine ⟨fun h => ?_, place_of_nan⟩
  by_contra hno
  simp [(place_eq_placeOfKey hE (Bool.eq_false_iff.2 hno)).1] at h

/-- The order of places is the order of keys. -/
theorem place_order {a b : Nat} {p q : WithBot (WithTop ℚ)} (hp : f.place a = some p) (hq : f.place b = some q) :
    (p = q ↔ f.key a = f.key b) ∧ (p < q ↔ f.key a < f.key b) ∧ (q < p ↔ f.key b < f.key a) := by
  obtain ⟨hpa, hka⟩ := place_eq_placeOfKey hE (isNan_of_place hp)
  obtain ⟨hpb, hkb⟩ := place_eq_placeOfKey hE (isNan_of_place hq)
  obtain rfl : f.placeOfKey (f.key a) = p := Option.some_inj.1 (hpa.symm.trans hp)
  obtain rfl : f.placeOfKey (f.key b) = q := Option.some_inj.1 (hpb.symm.trans hq)
  have hmono := f.placeOfKey_strictMonoOn
  exact ⟨hmono.injOn.eq_iff hka hkb, hmono.lt_iff_lt hka hkb, hmono.lt_iff_lt hkb hka⟩

end

end Fmt

/-! ### Floating-point compares -/

theorem Fmt.compare_eq (f : Fmt) (a b : Nat) :
    f.compare a b =
      let nan := (f.classify a).isNan || (f.classify b).isNan
      compareOut (!nan && decide (f.key a < f.key b)) (!nan && decide (f.key a = f.key b)) (!nan && decide (f.key b < f.key a))
        nan true := by
  unfold Fmt.compare
  cases (f.classify a).isNan || (f.classify b).isNan <;> rfl

/-- A compare by keys orders the places (R795, R850). -/
theorem fltCompares_of_compare {i : Instr} {s : State} {f : Fmt} (hE : 0 < f.ebits) {a b : Bool → Nat}
    (hexec : exec i s = .next (s.runAlone fun y => f.compare (a y) (b y))) :
    FltCompares i s (fun y => f.place (a y)) (fun y => f.place (b y)) := by
  simp only [Fmt.compare_eq] at hexec
  obtain ⟨t, ht, frame, mr, fifo, row⟩ := compares_of_compareOut hexec
  refine ⟨t, ht, frame, mr, fifo, fun y hy => ?_⟩
  obtain ⟨hflags, hgt, hcacc, hstky⟩ := row y hy
  refine ⟨hcacc, fun hnan => ?_, fun p q hp hq => ?_⟩
  · rw [Fmt.place_eq_none_iff hE, Fmt.place_eq_none_iff hE, ← Bool.or_eq_true] at hnan
    simp only [hnan, Bool.not_true, Bool.false_and, if_true] at hflags hgt hstky
    exact ⟨hflags, hgt, hstky⟩
  · obtain ⟨heq, hlt, hlt'⟩ := Fmt.place_order hE hp hq
    simp only [Fmt.isNan_of_place hp, Fmt.isNan_of_place hq, Bool.or_false, Bool.not_false, Bool.true_and, Bool.false_eq_true,
      if_false, BitVec.or_zero] at hflags hgt hstky
    obtain ⟨haz, hav, han, hac, has, hai, haf⟩ := hflags
    rw [haz, han, hgt, decide_eq_true_eq, decide_eq_true_eq, decide_eq_true_eq]
    exact ⟨heq.symm, hlt.symm, hlt'.symm, hav, hac, has, hai, haf, hstky⟩

/-- Settles O3: the fixed-point compares by the integers of their operands, the floating-point ones by the order of the keys. -/
theorem comparisons : Obligations.Comparisons := by
  refine ⟨fun s rx ry => ?_, fun s rx ry x z => ?_⟩
  · exact ⟨compares_signed rfl, compares_unsigned rfl, compares_signed rfl⟩
  · exact ⟨fltCompares_of_compare (by decide) rfl, fltCompares_of_compare (by decide) rfl,
      fltCompares_of_compare (by decide) rfl⟩

end Sys2Proof.Machine
end

section
/-! PROOFS. Floating-point numbers of any format: the fields of a pattern, exact values, rounding and range (R781 to R785, R790,
R840, R843, R908). -/

namespace Sys2Proof.Machine

open Sys2Proof

/-! ### The fields of a pattern -/

namespace Fmt

section
variable (f : Fmt) (s : Bool) {e fr : Nat} (he : e < 2 ^ f.ebits) (hfr : fr < 2 ^ f.frac)

include hfr in
theorem encode_div : f.encode s e fr / 2 ^ f.frac = s.toNat * 2 ^ f.ebits + e := by
  rw [encode, Nat.mul_comm, Nat.mul_add_div (by positivity), Nat.div_eq_of_lt hfr, Nat.add_zero]

include hfr in
theorem fraction_encode : f.fraction (f.encode s e fr) = fr := by
  rw [fraction, encode, Nat.mul_comm, Nat.mul_add_mod, Nat.mod_eq_of_lt hfr]

include he hfr

theorem exp_encode : f.exp (f.encode s e fr) = e := by
  rw [exp, encode_div f s hfr, Nat.mul_comm, Nat.mul_add_mod, Nat.mod_eq_of_lt he]

theorem sign_encode : f.sign (f.encode s e fr) = s := by
  have hdiv : f.encode s e fr / 2 ^ (f.frac + f.ebits) = s.toNat := by
    rw [pow_add, ← Nat.div_div_eq_div_mul, encode_div f s hfr, Nat.mul_comm, Nat.mul_add_div (by positivity),
      Nat.div_eq_of_lt he, Nat.add_zero]
  rw [sign, hdiv]
  cases s <;> rfl

theorem encode_lt : f.encode s e fr < 2 ^ (f.ebits + f.frac + 1) := by
  have hs : s.toNat * 2 ^ f.ebits + e + 1 ≤ 2 * 2 ^ f.ebits := by
    have := Nat.mul_le_mul_right (2 ^ f.ebits) (Bool.toNat_le s)
    omega
  calc f.encode s e fr < (s.toNat * 2 ^ f.ebits + e + 1) * 2 ^ f.frac := by rw [encode, Nat.add_mul _ 1]; omega
    _ ≤ 2 * 2 ^ f.ebits * 2 ^ f.frac := Nat.mul_le_mul_right _ hs
    _ = 2 ^ (f.ebits + f.frac + 1) := by ring

end

theorem exp_lt (f : Fmt) (v : Nat) : f.exp v < 2 ^ f.ebits := Nat.mod_lt _ (by positivity)

/-- A pattern is its sign, exponent and fraction. -/
theorem encode_fields {f : Fmt} {v : Nat} (hv : v < 2 ^ (f.ebits + f.frac + 1)) :
    f.encode (f.sign v) (f.exp v) (f.fraction v) = v := by
  have hs : (f.sign v).toNat = v / 2 ^ f.frac / 2 ^ f.ebits := by
    have hlt : v / 2 ^ (f.frac + f.ebits) < 2 :=
      Nat.div_lt_of_lt_mul (hv.trans_eq (by rw [pow_succ, Nat.add_comm]))
    rw [Nat.div_div_eq_div_mul, ← pow_add, sign]
    generalize v / 2 ^ (f.frac + f.ebits) = q at hlt ⊢
    interval_cases q <;> rfl
  rw [encode, hs, exp, fraction, Nat.div_add_mod', Nat.div_add_mod']

/-- The bias of the exponent field: the largest exponent of a number is twice it. -/
theorem two_pow_ebits {f : Fmt} (hE : 0 < f.ebits) : 2 ^ f.ebits = 2 * f.bias + 2 := by
  have hpos : 0 < 2 ^ (f.ebits - 1) := by positivity
  have hsplit : 2 ^ f.ebits = 2 ^ (f.ebits - 1) * 2 := by rw [← pow_succ, Nat.sub_add_cancel hE]
  rw [bias, hsplit]
  omega

end Fmt

/-! ### Exact values -/

/-- A magnitude with a sign. -/
def signed (s : Bool) (x : ℚ) : ℚ := if s then -x else x

@[simp] theorem signed_true (x : ℚ) : signed true x = -x := rfl
@[simp] theorem signed_false (x : ℚ) : signed false x = x := rfl

theorem signed_eq_mul (s : Bool) (x : ℚ) : signed s x = (if s then -1 else 1) * x := by cases s <;> simp

theorem signed_not (s : Bool) (x : ℚ) : signed (!s) x = -signed s x := by cases s <;> simp

theorem signed_mul (s t : Bool) (x z : ℚ) : signed s x * signed t z = signed (s ^^ t) (x * z) := by
  cases s <;> cases t <;> simp

theorem signed_mul_right (s : Bool) (x z : ℚ) : signed s x * z = signed s (x * z) := by cases s <;> simp

theorem abs_signed (s : Bool) {x : ℚ} (hx : 0 ≤ x) : |signed s x| = x := by cases s <;> simp [abs_of_nonneg hx]

theorem signed_lt_zero {s : Bool} {x : ℚ} (hx : 0 < x) : decide (signed s x < 0) = s := by
  cases s
  · exact decide_eq_false hx.le.not_gt
  · exact decide_eq_true (neg_lt_zero.2 hx)

theorem signed_natAbs (n : Int) : signed (decide (n < 0)) (n.natAbs : ℚ) = n := by
  rcases lt_or_ge n 0 with h | h
  · rw [decide_eq_true h, signed_true, Nat.cast_natAbs, abs_of_neg h, Int.cast_neg, neg_neg]
  · rw [decide_eq_false h.not_gt, signed_false, Nat.cast_natAbs, abs_of_nonneg h]

/-- Sign and magnitude of a number other than 0 are unique. -/
theorem signed_inj {s t : Bool} {x z : ℚ} (hx : 0 < x) (hz : 0 < z) (h : signed s x = signed t z) : s = t ∧ x = z := by
  refine ⟨(signed_lt_zero hx).symm.trans (h ▸ signed_lt_zero hz), ?_⟩
  rw [← abs_signed s hx.le, h, abs_signed t hz.le]

namespace Fl

/-- The number that a classified operand or an exact result stands for. -/
def value : Fl → Option ℚ
  | .nan _ | .inf _ => none
  | .zero _ => some 0
  | .num s m e => some (signed s (m * (2 : ℚ) ^ e))

/-- The sign. -/
def sign : Fl → Bool
  | .nan s | .inf s | .zero s | .num s _ _ => s

/-- `num` stands for a number other than 0. -/
def Proper : Fl → Prop
  | .num _ m _ => m ≠ 0
  | _ => True

theorem isNan_of_value {x : Fl} {r : ℚ} (h : x.value = some r) : x.isNan = false := by
  cases x with
  | nan | inf => exact absurd h nofun
  | zero | num => rfl

end Fl

theorem num_pos {m : Nat} (hm : m ≠ 0) (e : Int) : 0 < (m : ℚ) * (2 : ℚ) ^ e := by
  have := Nat.pos_of_ne_zero hm
  positivity

namespace Fmt

theorem significand_eq (f : Fmt) (e fr : Nat) :
    ((2 ^ f.frac + fr : Nat) : ℚ) * (2 : ℚ) ^ ((e : ℤ) - f.bias - f.frac) =
      (1 + (fr : ℚ) / 2 ^ f.frac) * (2 : ℚ) ^ ((e : ℤ) - (f.bias : ℤ)) := by
  rw [zpow_sub₀ two_ne_zero _ (f.frac : ℤ), zpow_natCast]
  push_cast
  field_simp

/-- Classification keeps the number. -/
theorem value_classify (f : Fmt) (v : Nat) : (f.classify v).value = f.value v := by
  unfold classify value
  split
  case isTrue => dsimp only; split <;> rfl
  case isFalse =>
    dsimp only
    split
    case isTrue => rfl
    case isFalse =>
      rw [Fl.value, significand_eq, signed_eq_mul, mul_assoc]

theorem sign_classify (f : Fmt) (v : Nat) : (f.classify v).sign = f.sign v := by
  unfold classify; dsimp only; (repeat' split) <;> rfl

theorem proper_classify (f : Fmt) (v : Nat) : (f.classify v).Proper := by
  unfold classify
  dsimp only
  (repeat' split) <;> simp [Fl.Proper]

/-- A pattern with a value other than 0 is a normal number of that value. -/
theorem value_eq_signed {f : Fmt} {v : Nat} {r : ℚ} (h : f.value v = some r) (hr : r ≠ 0) :
    1 ≤ f.exp v ∧ f.exp v + 2 ≤ 2 ^ f.ebits ∧
      r = signed (f.sign v) (((2 ^ f.frac + f.fraction v : Nat) : ℚ) * (2 : ℚ) ^ ((f.exp v : ℤ) - f.bias - f.frac)) := by
  have hlt := f.exp_lt v
  unfold value at h
  split at h
  case isTrue => exact absurd h nofun
  case isFalse hmax =>
    split at h
    case isTrue => exact absurd (Option.some_inj.1 h).symm hr
    case isFalse h0 =>
      refine ⟨by omega, by omega, ?_⟩
      rw [significand_eq, ← Option.some_inj.1 h, signed_eq_mul, mul_assoc]

/-- The pattern of a normal number has its value. -/
theorem value_encode {f : Fmt} (s : Bool) {e fr : Nat} (h1 : 1 ≤ e) (h2 : e + 2 ≤ 2 ^ f.ebits) (hfr : fr < 2 ^ f.frac) :
    f.value (f.encode s e fr) =
      some (signed s (((2 ^ f.frac + fr : Nat) : ℚ) * (2 : ℚ) ^ ((e : ℤ) - f.bias - f.frac))) := by
  have he : e < 2 ^ f.ebits := by omega
  rw [value, exp_encode f s he hfr, sign_encode f s he hfr, fraction_encode f s hfr, if_neg (by omega), if_neg (by omega),
    significand_eq, signed_eq_mul, mul_assoc]

end Fmt

/-! ### Rounding (R784) -/

/-- The binade of a number: the exponent of its leading bit. -/
theorem num_binade {m : Nat} (hm : m ≠ 0) (e : Int) :
    (2 : ℚ) ^ ((Nat.log2 m : ℤ) + e) ≤ m * (2 : ℚ) ^ e ∧ m * (2 : ℚ) ^ e < (2 : ℚ) ^ ((Nat.log2 m : ℤ) + e + 1) := by
  have hlo : (2 : ℚ) ^ Nat.log2 m ≤ m := by exact_mod_cast Nat.log2_self_le hm
  have hhi : (m : ℚ) < 2 ^ (Nat.log2 m + 1) := by exact_mod_cast Nat.lt_log2_self
  constructor
  · rw [zpow_add₀ two_ne_zero, zpow_natCast]
    gcongr
  · rw [add_right_comm, zpow_add₀ two_ne_zero, ← Nat.cast_succ, zpow_natCast]
    gcongr

theorem binade_unique {x : ℚ} {a b : ℤ} (ha : (2 : ℚ) ^ a ≤ x ∧ x < (2 : ℚ) ^ (a + 1))
    (hb : (2 : ℚ) ^ b ≤ x ∧ x < (2 : ℚ) ^ (b + 1)) : a = b := by
  have h1 := (zpow_lt_zpow_iff_right₀ (one_lt_two (α := ℚ))).1 (ha.1.trans_lt hb.2)
  have h2 := (zpow_lt_zpow_iff_right₀ (one_lt_two (α := ℚ))).1 (hb.1.trans_lt ha.2)
  omega

/-- A number of no more bits than the boundary is delivered as it is. -/
theorem fround_of_le {b m : Nat} (h : Nat.log2 m ≤ b) (trunc : Bool) (e : Int) :
    fround b trunc m e = (m * 2 ^ (b - Nat.log2 m), (Nat.log2 m : ℤ) + e) := by
  unfold fround; exact if_pos h

/-- Rounding an exactly held number delivers its significand and exponent. -/
theorem fround_exact {b m M : Nat} {e E : Int} (hlo : 2 ^ b ≤ M) (hhi : M < 2 ^ (b + 1))
    (h : (m : ℚ) * (2 : ℚ) ^ e = M * (2 : ℚ) ^ (E - b)) (trunc : Bool) : fround b trunc m e = (M, E) := by
  have hM : M ≠ 0 := by have : 0 < 2 ^ b := by positivity
                        omega
  have hm : m ≠ 0 := by
    rintro rfl
    exact (num_pos hM (E - b)).ne (by simpa using h)
  have hlog : Nat.log2 M = b := (Nat.log2_eq_iff hM).2 ⟨hlo, hhi⟩
  have hE : (Nat.log2 m : ℤ) + e = E := by
    refine binade_unique (num_binade hm e) ?_
    have := num_binade hM (E - b)
    rwa [hlog, ← h, show (b : ℤ) + (E - b) = E by ring] at this
  obtain rfl : e = E - Nat.log2 m := by omega
  unfold fround
  dsimp only
  split
  case isTrue hle =>
    have hval : m * 2 ^ (b - Nat.log2 m) = M := by
      have hpow : (2 : ℚ) ^ (E - (Nat.log2 m : ℤ)) = 2 ^ (b - Nat.log2 m) * (2 : ℚ) ^ (E - b) := by
        rw [← zpow_natCast, ← zpow_add₀ two_ne_zero]; congr 1; omega
      rw [hpow, ← mul_assoc] at h
      exact_mod_cast mul_right_cancel₀ (by positivity) h
    rw [hval, hE]
  case isFalse hgt =>
    have hval : m = M * 2 ^ (Nat.log2 m - b) := by
      have hpow : (2 : ℚ) ^ (E - (b : ℤ)) = 2 ^ (Nat.log2 m - b) * (2 : ℚ) ^ (E - (Nat.log2 m : ℤ)) := by
        rw [← zpow_natCast, ← zpow_add₀ two_ne_zero]; congr 1; omega
      rw [hpow, ← mul_assoc] at h
      exact_mod_cast mul_right_cancel₀ (by positivity) h
    have hq : m / 2 ^ (Nat.log2 m - b) = M := Nat.div_eq_of_eq_mul_left (by positivity) hval
    have hr : m % 2 ^ (Nat.log2 m - b) = 0 := Nat.mod_eq_zero_of_dvd (Dvd.intro_left M hval.symm)
    have hhalf : (0 == 2 ^ (Nat.log2 m - b - 1)) = false := beq_false_of_ne (by positivity : 0 < 2 ^ _).ne
    simp only [hq, hr, Nat.not_lt_zero, decide_false, hhalf, Bool.false_and, Bool.or_false, Bool.and_false, Bool.false_eq_true,
      if_false, hhi.ne, hE]

/-- The last significand below the next binade, and half of its unit more: from there rounding to nearest carries. -/
theorem carry_iff {b d q r : Nat} (hq : q < 2 ^ (b + 1)) (hr : r < 2 ^ (d + 1)) :
    2 ^ (b + 1) * 2 ^ (d + 1) ≤ q * 2 ^ (d + 1) + r + 2 ^ d ↔
      q + 1 = 2 ^ (b + 1) ∧ (2 ^ d < r ∨ r = 2 ^ d ∧ q % 2 = 1) := by
  have hodd : q + 1 = 2 ^ (b + 1) → q % 2 = 1 := by rw [pow_succ]; omega
  have hsucc : 2 ^ (d + 1) = 2 ^ d * 2 := pow_succ _ _
  by_cases hlast : q + 1 = 2 ^ (b + 1)
  · rw [← hlast, Nat.add_mul q 1]
    have := hodd hlast
    omega
  · have hmul : (q + 2) * 2 ^ (d + 1) ≤ 2 ^ (b + 1) * 2 ^ (d + 1) := Nat.mul_le_mul_right _ (by omega)
    rw [Nat.add_mul] at hmul
    omega

/-- The exponent after rounding: one more where rounding to nearest reaches the next binade. -/
theorem fround_snd (m b : Nat) (trunc : Bool) (e : Int) :
    (fround b trunc m e).2 =
      if trunc = false ∧ ((2 : ℚ) ^ (b + 1) - 1 / 2) * (2 : ℚ) ^ ((Nat.log2 m : ℤ) + e - b) ≤ m * (2 : ℚ) ^ e
      then (Nat.log2 m : ℤ) + e + 1 else (Nat.log2 m : ℤ) + e := by
  have hm2 : m < 2 ^ (Nat.log2 m + 1) := Nat.lt_log2_self
  rcases Nat.lt_or_ge b (Nat.log2 m) with hgt | hle
  case inr =>
    have hnat : m * 2 ^ (b - Nat.log2 m) + 1 ≤ 2 ^ (b + 1) := by
      have hb : 2 ^ (b + 1) = 2 ^ (Nat.log2 m + 1) * 2 ^ (b - Nat.log2 m) := by rw [← pow_add]; congr 1; omega
      rw [hb]
      exact Nat.mul_lt_mul_of_pos_right hm2 (by positivity)
    have hlt : (m : ℚ) * (2 : ℚ) ^ e < ((2 : ℚ) ^ (b + 1) - 1 / 2) * (2 : ℚ) ^ ((Nat.log2 m : ℤ) + e - b) := by
      have hpow : (2 : ℚ) ^ e = 2 ^ (b - Nat.log2 m) * (2 : ℚ) ^ ((Nat.log2 m : ℤ) + e - b) := by
        rw [← zpow_natCast, ← zpow_add₀ two_ne_zero]; congr 1; omega
      have hcast : (m : ℚ) * 2 ^ (b - Nat.log2 m) + 1 ≤ 2 ^ (b + 1) := by exact_mod_cast hnat
      rw [hpow, ← mul_assoc]
      gcongr
      linarith
    rw [fround_of_le hle, if_neg fun h => absurd h.2 hlt.not_ge]
  case inl =>
    obtain ⟨d, hd⟩ : ∃ d, Nat.log2 m = b + (d + 1) := ⟨Nat.log2 m - b - 1, by omega⟩
    have hq : m / 2 ^ (d + 1) < 2 ^ (b + 1) :=
      Nat.div_lt_of_lt_mul (hm2.trans_eq (by rw [hd, ← pow_add]; congr 1; omega))
    have hcond : ((2 : ℚ) ^ (b + 1) - 1 / 2) * (2 : ℚ) ^ ((Nat.log2 m : ℤ) + e - b) ≤ m * (2 : ℚ) ^ e ↔
        2 ^ (b + 1) * 2 ^ (d + 1) ≤ m + 2 ^ d := by
      have hpow : (2 : ℚ) ^ ((Nat.log2 m : ℤ) + e - b) = 2 ^ (d + 1) * (2 : ℚ) ^ e := by
        rw [← zpow_natCast, ← zpow_add₀ two_ne_zero]; congr 1; omega
      have hhalf : ((2 : ℚ) ^ (b + 1) - 1 / 2) * 2 ^ (d + 1) = 2 ^ (b + 1) * 2 ^ (d + 1) - 2 ^ d := by ring
      rw [hpow, ← mul_assoc, mul_le_mul_iff_left₀ (by positivity), hhalf, sub_le_iff_le_add]
      exact_mod_cast Iff.rfl
    have hcarry := carry_iff (d := d) hq (Nat.mod_lt m (by positivity))
    rw [Nat.div_add_mod'] at hcarry
    have hsub : Nat.log2 m - b = d + 1 := by omega
    simp only [fround, if_neg hgt.not_ge, hcond, hcarry, hsub, Nat.add_sub_cancel]
    generalize m / 2 ^ (d + 1) = q at hq ⊢
    generalize m % 2 ^ (d + 1) = r
    have hne : q ≠ 2 ^ (b + 1) := hq.ne
    cases trunc
    case true => simp [hne]
    case false =>
      by_cases hup : 2 ^ d < r ∨ r = 2 ^ d ∧ q % 2 = 1
      · simp [hup, apply_ite Prod.snd]
      · simp [hup, hne]

/-- The significand after rounding stays in its binade. -/
theorem fround_fst_lt (b m : Nat) (trunc : Bool) (e : Int) : (fround b trunc m e).1 < 2 ^ (b + 1) := by
  have hm : m < 2 ^ (Nat.log2 m + 1) := Nat.lt_log2_self
  rcases Nat.lt_or_ge b (Nat.log2 m) with hgt | hle
  case inr =>
    rw [fround_of_le hle]
    calc m * 2 ^ (b - Nat.log2 m) < 2 ^ (Nat.log2 m + 1) * 2 ^ (b - Nat.log2 m) := by gcongr
      _ = 2 ^ (b + 1) := by rw [← pow_add]; congr 1; omega
  case inl =>
    have hq : m / 2 ^ (Nat.log2 m - b) < 2 ^ (b + 1) :=
      Nat.div_lt_of_lt_mul (hm.trans_eq (by rw [← pow_add]; congr 1; omega))
    have hnext : 2 ^ b < 2 ^ (b + 1) := Nat.pow_lt_pow_right one_lt_two b.lt_succ_self
    simp only [fround, if_neg hgt.not_ge]
    generalize (!trunc && _) = up
    generalize hq' : (if up = true then m / 2 ^ (Nat.log2 m - b) + 1 else m / 2 ^ (Nat.log2 m - b)) = q'
    have hle : q' ≤ 2 ^ (b + 1) := by rw [← hq']; split <;> omega
    split
    case isTrue => exact hnext
    case isFalse hne => exact lt_of_le_of_ne hle hne

namespace Fmt

/-! ### The range (R785) -/

section
variable {f : Fmt} {b m : Nat} {e : Int} {trunc : Bool}

theorem overflowsAt_ge (f : Fmt) (b : Nat) (trunc : Bool) : (2 : ℚ) ^ f.bias ≤ f.overflowsAt b trunc := by
  have hpow : (2 : ℚ) ^ ((f.bias : ℤ) - b - 1) ≤ 2 ^ f.bias := by
    rw [← zpow_natCast]; exact zpow_le_zpow_right₀ one_le_two (by omega)
  have hpos : (0 : ℚ) < 2 ^ f.bias := by positivity
  rw [overflowsAt, pow_succ]
  cases trunc
  · simp only [Bool.false_eq_true, if_false]; linarith
  · simp only [if_true]; linarith

theorem bias_lt_fround (hm : m ≠ 0) (h : f.overflowsAt b trunc ≤ m * (2 : ℚ) ^ e) : (f.bias : ℤ) < (fround b trunc m e).2 := by
  obtain ⟨-, hhi⟩ := num_binade hm e
  have hle : (f.bias : ℤ) < Nat.log2 m + e + 1 := by
    rw [← zpow_lt_zpow_iff_right₀ (one_lt_two (α := ℚ)), zpow_natCast]
    exact ((f.overflowsAt_ge b trunc).trans h).trans_lt hhi
  rw [fround_snd]
  rcases (Int.lt_add_one_iff.1 hle).lt_or_eq with hlt | heq
  case inl => split <;> omega
  case inr =>
    rw [← heq] at hhi ⊢
    have hbias : (2 : ℚ) ^ ((f.bias : ℤ) + 1) = 2 ^ (f.bias + 1) := by exact_mod_cast zpow_natCast (2 : ℚ) (f.bias + 1)
    rw [hbias] at hhi
    rw [overflowsAt] at h
    cases trunc
    case true => simp only [if_true, sub_zero] at h; exact absurd h hhi.not_ge
    case false =>
      have hsplit : ((2 : ℚ) ^ (b + 1) - 1 / 2) * (2 : ℚ) ^ ((f.bias : ℤ) - b) =
          2 ^ (f.bias + 1) - 2 ^ ((f.bias : ℤ) - b - 1) := by
        rw [sub_mul, ← hbias, ← zpow_natCast, ← zpow_add₀ two_ne_zero, zpow_sub_one₀ two_ne_zero]
        push_cast
        rw [show (b : ℤ) + 1 + (f.bias - b) = f.bias + 1 by ring]
        ring
      rw [if_pos ⟨rfl, by rw [hsplit]; simpa using h⟩]
      omega

theorem fround_lt_of_lt_holdsFrom (hm : m ≠ 0) (h : m * (2 : ℚ) ^ e < f.holdsFrom b trunc) :
    (fround b trunc m e).2 < 1 - (f.bias : ℤ) := by
  obtain ⟨hlo, -⟩ := num_binade hm e
  have hle : (Nat.log2 m : ℤ) + e < 1 - (f.bias : ℤ) := by
    rw [← zpow_lt_zpow_iff_right₀ (one_lt_two (α := ℚ))]
    refine (hlo.trans_lt h).trans_le ?_
    rw [holdsFrom, sub_le_self_iff]
    split <;> positivity
  rw [fround_snd]
  rcases (Int.le_sub_one_iff.2 hle).lt_or_eq with hlt | heq
  case inl => split <;> omega
  case inr =>
    rw [if_neg]
    · exact hle
    rintro ⟨rfl, hcarry⟩
    refine absurd hcarry (h.trans_eq ?_).not_ge
    simp only [holdsFrom, Bool.false_eq_true, if_false]
    rw [heq, sub_mul, ← zpow_natCast, ← zpow_add₀ two_ne_zero, show (1 : ℤ) - f.bias - 1 - b = -f.bias - b - 1 + 1 by ring,
      zpow_add_one₀ two_ne_zero]
    push_cast
    rw [show (b : ℤ) + 1 + (-f.bias - b - 1 + 1) = 1 - f.bias by ring]
    ring

end

/-! ### Rounded results -/

section
variable {f : Fmt} {b : Nat} {trunc s : Bool} {m : Nat} {e : Int}

theorem normMax_eq (f : Fmt) (b : Nat) (hb : b ≤ f.frac) (s : Bool) :
    f.normMax b s = f.encode s (2 ^ f.ebits - 2) (2 ^ f.frac - 2 ^ (f.frac - b)) := by
  rw [normMax, Nat.sub_mul, one_mul, ← pow_add, Nat.add_sub_cancel' hb]

theorem finish_overflow (hb : b ≤ f.frac) (hm : m ≠ 0) (h : f.overflowsAt b trunc ≤ m * (2 : ℚ) ^ e) :
    f.finish b trunc s m e = { bits := f.overflowBits b trunc s, ovf := true } := by
  rw [finish, if_pos (bias_lt_fround hm h), normMax_eq f b hb, overflowBits]

theorem finish_underflow (hm : m ≠ 0) (h : m * (2 : ℚ) ^ e < f.holdsFrom b trunc) :
    f.finish b trunc s m e = { bits := f.encode s 0 0, unf := true } := by
  have hlt := fround_lt_of_lt_holdsFrom hm h
  rw [finish, if_neg (by omega), if_pos hlt]

/-- An exact result that a pattern within the boundary holds is delivered as that pattern. -/
theorem finish_exact {v : Nat} (hE : 0 < f.ebits) (hb : b ≤ f.frac) (hm : m ≠ 0) (hv : v < 2 ^ (f.ebits + f.frac + 1))
    (hval : f.value v = some (signed s (m * (2 : ℚ) ^ e))) (hbd : 2 ^ (f.frac - b) ∣ f.fraction v) :
    f.finish b trunc s m e = { bits := v } := by
  have hpos := num_pos hm e
  obtain ⟨h1, h2, hr⟩ := value_eq_signed hval fun h0 => by
    have := abs_signed s hpos.le
    rw [h0, abs_zero] at this
    exact hpos.ne this
  have hfr := f.fraction_lt v
  obtain ⟨hs, hmag⟩ := signed_inj hpos (num_pos (by positivity) _) hr
  obtain ⟨g, hg⟩ := hbd
  have hsplit : 2 ^ f.frac = 2 ^ (f.frac - b) * 2 ^ b := by rw [← pow_add, Nat.sub_add_cancel hb]
  have hlt : g < 2 ^ b := by
    rw [hg, hsplit] at hfr
    exact Nat.lt_of_mul_lt_mul_left hfr
  have hround : fround b trunc m e = (2 ^ b + g, (f.exp v : ℤ) - f.bias) := by
    refine fround_exact (by omega) (by rw [pow_succ]; omega) (hmag.trans ?_) trunc
    have hpow : (2 : ℚ) ^ ((f.exp v : ℤ) - f.bias - b) = 2 ^ (f.frac - b) * (2 : ℚ) ^ ((f.exp v : ℤ) - f.bias - f.frac) := by
      rw [← zpow_natCast, ← zpow_add₀ two_ne_zero]; congr 1; omega
    rw [hpow, hg, hsplit]
    push_cast
    ring
  have hbias := two_pow_ebits hE
  rw [finish, hround, if_neg (by dsimp only; omega), if_neg (by dsimp only; omega)]
  have hexp : ((f.exp v : ℤ) - f.bias + f.bias).toNat = f.exp v := by omega
  simp only [hexp, Nat.add_sub_cancel_left, Nat.mul_comm g, ← hg, hs, encode_fields hv]

end

section
variable {f : Fmt} {b : Nat} {trunc : Bool} {x : Fl} {r : ℚ}

theorem sign_of_value {v : Nat} (h : f.value v = some r) (hr : r ≠ 0) : f.sign v = decide (r < 0) := by
  obtain ⟨-, -, rfl⟩ := value_eq_signed h hr
  exact (signed_lt_zero (num_pos (by positivity) _)).symm

/-- A result other than 0 that a pattern within the boundary holds is delivered as it is. -/
theorem round_exact {v : Nat} (hE : 0 < f.ebits) (hb : b ≤ f.frac) (hx : x.value = some r) (hr : r ≠ 0)
    (hv : v < 2 ^ (f.ebits + f.frac + 1)) (hval : f.value v = some r) (hbd : 2 ^ (f.frac - b) ∣ f.fraction v) :
    f.round b trunc x = { bits := v } := by
  cases x with
  | nan | inf => exact absurd hx nofun
  | zero => exact absurd (Option.some_inj.1 hx).symm hr
  | num s m e =>
    obtain rfl := Option.some_inj.1 hx
    have hm : m ≠ 0 := by rintro rfl; simp [signed_eq_mul] at hr
    exact finish_exact hE hb hm hv hval hbd

theorem round_overflow (hb : b ≤ f.frac) (hx : x.value = some r) (h : f.overflowsAt b trunc ≤ |r|) :
    f.round b trunc x = { bits := f.overflowBits b trunc (decide (r < 0)), ovf := true } := by
  have hpos : 0 < |r| := lt_of_lt_of_le (by positivity) ((f.overflowsAt_ge b trunc).trans h)
  cases x with
  | nan | inf => exact absurd hx nofun
  | zero => exact absurd (Option.some_inj.1 hx).symm (abs_pos.1 hpos)
  | num s m e =>
    obtain rfl := Option.some_inj.1 hx
    have hm : m ≠ 0 := by rintro rfl; simp [signed_eq_mul] at hpos
    have hm' := num_pos hm e
    rw [signed_lt_zero hm']
    exact finish_overflow hb hm (h.trans_eq (abs_signed s hm'.le))

theorem round_underflow (hx : x.value = some r) (hpos : 0 < |r|) (h : |r| < f.holdsFrom b trunc) :
    f.round b trunc x = { bits := f.encode (decide (r < 0)) 0 0, unf := true } := by
  cases x with
  | nan | inf => exact absurd hx nofun
  | zero => exact absurd (Option.some_inj.1 hx).symm (abs_pos.1 hpos)
  | num s m e =>
    obtain rfl := Option.some_inj.1 hx
    have hm : m ≠ 0 := by rintro rfl; simp [signed_eq_mul] at hpos
    have hm' := num_pos hm e
    rw [signed_lt_zero hm']
    exact finish_underflow hm ((abs_signed s hm'.le).symm.trans_lt h)

end

/-! ### Integers -/

/-- An integer of no more bits than the significand has a pattern (R808). -/
theorem exists_value_intCast {f : Fmt} (hE : 0 < f.ebits) {n : Int} (hn : n ≠ 0) (hfrac : n.natAbs < 2 ^ (f.frac + 1))
    (hbias : f.frac < f.bias) : ∃ v < 2 ^ (f.ebits + f.frac + 1), f.value v = some (n : ℚ) := by
  have hm : n.natAbs ≠ 0 := Int.natAbs_ne_zero.2 hn
  generalize hl : Nat.log2 n.natAbs = l
  obtain ⟨hlo, hhi⟩ := (Nat.log2_eq_iff hm).1 hl
  have hle : l ≤ f.frac := by
    have := (Nat.log2_lt hm).2 hfrac
    omega
  have hebits := two_pow_ebits hE
  have hsplit : 2 ^ f.frac = 2 ^ l * 2 ^ (f.frac - l) := by rw [← pow_add, Nat.add_sub_cancel' hle]
  have hge : 2 ^ f.frac ≤ n.natAbs * 2 ^ (f.frac - l) := by rw [hsplit]; gcongr
  have hlt : n.natAbs * 2 ^ (f.frac - l) < 2 * 2 ^ f.frac := by
    rw [hsplit, ← mul_assoc, ← pow_succ']; gcongr
  have hfr : n.natAbs * 2 ^ (f.frac - l) - 2 ^ f.frac < 2 ^ f.frac := by omega
  refine ⟨_, encode_lt f (decide (n < 0)) (e := l + f.bias) (by omega) hfr, ?_⟩
  rw [value_encode _ (by omega) (by omega) hfr, Nat.add_sub_cancel' hge]
  have hpow : (2 : ℚ) ^ (((l + f.bias : Nat) : ℤ) - f.bias - f.frac) = (2 ^ (f.frac - l))⁻¹ := by
    rw [← zpow_natCast, ← zpow_neg]; congr 1; omega
  rw [hpow, Nat.cast_mul, Nat.cast_pow, Nat.cast_two, mul_inv_cancel_right₀ (by positivity), signed_natAbs]

end Fmt

/-! ### Operations on exact values -/

namespace Fl

section
variable {a b x : Fl} {p q r : ℚ}

theorem value_scale (h : x.value = some r) (k : Int) : (x.scale k).value = some (r * (2 : ℚ) ^ k) := by
  cases x with
  | nan | inf => exact absurd h nofun
  | zero => obtain rfl := Option.some_inj.1 h; rw [zero_mul]; rfl
  | num s m e =>
    obtain rfl := Option.some_inj.1 h
    rw [scale, value, zpow_add₀ two_ne_zero, ← mul_assoc, signed_mul_right]

theorem scale_zero (x : Fl) : x.scale 0 = x := by cases x <;> simp [scale]

@[simp] theorem isNan_scale (x : Fl) (k : Int) : (x.scale k).isNan = x.isNan := by cases x <;> rfl

theorem value_ofInt (n : Int) : (ofInt n).value = some (n : ℚ) := by
  unfold ofInt
  split
  case isTrue h => rw [h, Int.cast_zero]; rfl
  case isFalse => rw [value, zpow_zero, mul_one, signed_natAbs]

/-- Two numbers at a common exponent. -/
theorem align_eq {m : Nat} {e c : Int} (h : c ≤ e) :
    (((m : Int) * 2 ^ (e - c).toNat : Int) : ℚ) * (2 : ℚ) ^ c = m * (2 : ℚ) ^ e := by
  obtain ⟨d, rfl⟩ : ∃ d : Nat, e = c + d := ⟨(e - c).toNat, by omega⟩
  rw [add_sub_cancel_left, Int.toNat_natCast, zpow_add₀ two_ne_zero, zpow_natCast]
  push_cast
  ring

theorem signed_align {s : Bool} {m : Nat} {e c : Int} (h : c ≤ e) :
    (((if s then -((m : Int) * 2 ^ (e - c).toNat) else (m : Int) * 2 ^ (e - c).toNat) : Int) : ℚ) * (2 : ℚ) ^ c =
      signed s (m * (2 : ℚ) ^ e) := by
  cases s
  · exact align_eq h
  · rw [if_pos rfl, Int.cast_neg, neg_mul, align_eq h, signed_true]

/-- The sum of two numbers at their common exponent: +zero, or sign and magnitude of an integer (R790). -/
theorem add_num (s t : Bool) (m n : Nat) (e d : Int) :
    ∃ (z : Int) (c : Int), (z : ℚ) * (2 : ℚ) ^ c = signed s (m * (2 : ℚ) ^ e) + signed t (n * (2 : ℚ) ^ d) ∧
      (num s m e).add (num t n d) = if z = 0 then .zero false else .num (decide (z < 0)) z.natAbs c := by
  refine ⟨_, min e d, ?_, rfl⟩
  rw [Int.cast_add, add_mul, signed_align (min_le_left e d), signed_align (min_le_right e d)]

/-- The sum of two numbers is exact. -/
theorem value_add (ha : a.value = some p) (hb : b.value = some q) : (a.add b).value = some (p + q) := by
  cases a with
  | nan | inf => exact absurd ha nofun
  | zero s =>
    obtain rfl := Option.some_inj.1 ha
    rw [zero_add]
    cases b with
    | nan | inf => exact absurd hb nofun
    | zero | num => exact hb
  | num s m e =>
    cases b with
    | nan | inf => exact absurd hb nofun
    | zero => obtain rfl := Option.some_inj.1 hb; rw [add_zero]; exact ha
    | num t n d =>
      obtain ⟨z, c, hz, hadd⟩ := add_num s t m n e d
      rw [hadd, ← Option.some_inj.1 ha, ← Option.some_inj.1 hb, ← hz]
      split
      case isTrue h0 => rw [h0, Int.cast_zero, zero_mul]; rfl
      case isFalse => rw [value, ← signed_mul_right, signed_natAbs]

/-- An exact zero is +zero unless it is the sum of two -zeros (R790). -/
theorem add_eq_zero (hpa : a.Proper) (hpb : b.Proper) (ha : a.value = some p) (hb : b.value = some q) (h : p + q = 0) :
    a.add b = .zero (decide (p = 0) && a.sign && b.sign) := by
  have hne : ∀ {s : Bool} {m : Nat} {e : Int}, m ≠ 0 → signed s (m * (2 : ℚ) ^ e) ≠ 0 := fun {s m e} hm => by
    have := num_pos hm e
    rw [← abs_pos, abs_signed s this.le]
    exact this
  cases a with
  | nan | inf => exact absurd ha nofun
  | zero s =>
    obtain rfl := Option.some_inj.1 ha
    cases b with
    | nan | inf => exact absurd hb nofun
    | zero t => rw [decide_eq_true rfl, Bool.true_and]; rfl
    | num t n d => exact absurd (by rw [Option.some_inj.1 hb, ← h, zero_add]) (hne (s := t) (e := d) hpb)
  | num s m e =>
    have hp : p ≠ 0 := Option.some_inj.1 ha ▸ hne hpa
    rw [decide_eq_false hp]
    cases b with
    | nan | inf => exact absurd hb nofun
    | zero => obtain rfl := Option.some_inj.1 hb; exact absurd ((add_zero p).symm.trans h) hp
    | num t n d =>
      obtain ⟨z, c, hz, hadd⟩ := add_num s t m n e d
      rw [Option.some_inj.1 ha, Option.some_inj.1 hb, h] at hz
      have hz0 : z = 0 := by
        exact_mod_cast (mul_eq_zero.1 hz).resolve_right (by positivity)
      rw [hadd, if_pos hz0]
      rfl

/-- A sum is invalid for a NAN operand and for infinities of opposite signs (R785, R788). -/
theorem isNan_add : (a.add b).isNan = true ↔ a.isNan = true ∨ b.isNan = true ∨ ∃ g, a = .inf g ∧ b = .inf !g := by
  cases a with
  | nan => simp [add, isNan]
  | inf s =>
    cases b with
    | inf t => cases s <;> cases t <;> simp [add, isNan]
    | nan | zero | num => simp [add, isNan]
  | zero s => cases b <;> simp [add, isNan]
  | num s m e =>
    cases b with
    | nan | inf | zero => simp [add, isNan]
    | num t n d =>
      obtain ⟨z, c, -, hadd⟩ := add_num s t m n e d
      rw [hadd]
      split <;> simp [isNan]

/-- A sum with an infinity that is not invalid is that infinity (R785). -/
theorem add_inf {g : Bool} (hvalid : (a.add b).isNan = false) (h : a = .inf g ∨ b = .inf g) : a.add b = .inf g := by
  rcases h with rfl | rfl
  · cases b with
    | inf t => by_cases hgt : g = t <;> simp_all [add, isNan]
    | nan => exact absurd hvalid nofun
    | zero | num => rfl
  · cases a with
    | inf t => by_cases hgt : t = g <;> simp_all [add, isNan]
    | nan => exact absurd hvalid nofun
    | zero | num => rfl

/-! ### Signs -/

/-- The second operand of a sum or a difference. -/
def negIf (sub : Bool) (x : Fl) : Fl := if sub then x.neg else x

@[simp] theorem isNan_negIf (sub : Bool) (x : Fl) : (x.negIf sub).isNan = x.isNan := by cases sub <;> cases x <;> rfl

theorem negIf_eq_inf {sub g : Bool} : x.negIf sub = .inf g ↔ x = .inf (g != sub) := by
  cases sub <;> cases x <;> simp [negIf, neg, Bool.not_eq_eq_eq_not]

theorem value_negIf (h : x.value = some r) (sub : Bool) : (x.negIf sub).value = some (if sub then -r else r) := by
  cases sub
  · exact h
  · cases x with
    | nan | inf => exact absurd h nofun
    | zero => obtain rfl := Option.some_inj.1 h; simp [negIf, neg, value]
    | num s m e => obtain rfl := Option.some_inj.1 h; simp [negIf, neg, value, signed_not]

theorem sign_negIf (h : x.isNan = false) (sub : Bool) : (x.negIf sub).sign = (x.sign != sub) := by
  cases sub <;> cases x <;> simp_all [negIf, neg, sign, isNan]

theorem proper_negIf (h : x.Proper) (sub : Bool) : (x.negIf sub).Proper := by
  cases sub <;> cases x <;> exact h

/-- The same number with sign `s`. -/
def withSign (s : Bool) : Fl → Fl
  | .nan t => .nan t
  | .inf _ => .inf s
  | .zero _ => .zero s
  | .num _ m e => .num s m e

theorem value_withSign_false (h : x.value = some r) : (x.withSign false).value = some |r| := by
  cases x with
  | nan | inf => exact absurd h nofun
  | zero => obtain rfl := Option.some_inj.1 h; simp [withSign, value]
  | num s m e =>
    obtain rfl := Option.some_inj.1 h
    rw [abs_signed s (by positivity)]
    rfl

@[simp] theorem isNan_withSign (x : Fl) (s : Bool) : (x.withSign s).isNan = x.isNan := by cases x <;> rfl

theorem withSign_sign (x : Fl) : x.withSign x.sign = x := by cases x <;> rfl

/-! ### Products (R908) -/

theorem value_mul (ha : a.value = some p) (hb : b.value = some q) : (a.mul b).value = some (p * q) := by
  cases a with
  | nan | inf => exact absurd ha nofun
  | zero s =>
    obtain rfl := Option.some_inj.1 ha
    cases b with
    | nan | inf => exact absurd hb nofun
    | zero | num => rw [zero_mul]; rfl
  | num s m e =>
    obtain rfl := Option.some_inj.1 ha
    cases b with
    | nan | inf => exact absurd hb nofun
    | zero => obtain rfl := Option.some_inj.1 hb; rw [mul_zero]; rfl
    | num t n d =>
      obtain rfl := Option.some_inj.1 hb
      rw [mul, value, signed_mul, zpow_add₀ two_ne_zero, Nat.cast_mul, mul_mul_mul_comm]

end

end Fl

/-- Rounding and range do not look at the sign: it becomes the sign of the pattern. -/
theorem Fmt.round_withSign {f : Fmt} (hE : 0 < f.ebits) {b : Nat} (hb : b ≤ f.frac) (trunc : Bool) {x : Fl}
    (hx : x.isNan = false) :
    ∃ e fr ovf unf, e < 2 ^ f.ebits ∧ fr < 2 ^ f.frac ∧
      ∀ s, f.round b trunc (x.withSign s) = { bits := f.encode s e fr, ovf := ovf, unf := unf } := by
  have hmax : 2 ^ f.ebits - 2 < 2 ^ f.ebits ∧ 2 ^ f.ebits - 1 < 2 ^ f.ebits := by have := two_pow_ebits hE; omega
  have hfrac : 0 < 2 ^ f.frac := by positivity
  cases x with
  | nan => exact absurd hx nofun
  | inf => exact ⟨_, 0, false, false, hmax.2, hfrac, fun _ => rfl⟩
  | zero => exact ⟨0, 0, false, false, by positivity, hfrac, fun _ => rfl⟩
  | num t m e =>
    have hfst := fround_fst_lt b m trunc e
    simp only [Fl.withSign, Fmt.round, finish]
    generalize fround b trunc m e = r at hfst
    split
    case isTrue =>
      cases trunc
      · exact ⟨_, 0, true, false, hmax.2, hfrac, fun _ => rfl⟩
      · refine ⟨_, _, true, false, hmax.1, ?_, fun s => by rw [if_pos rfl, normMax_eq f b hb]⟩
        have : 0 < 2 ^ (f.frac - b) := by positivity
        omega
    case isFalse hover =>
      split
      case isTrue => exact ⟨0, 0, false, true, by positivity, hfrac, fun _ => rfl⟩
      case isFalse hunder =>
        refine ⟨_, _, false, false, ?_, ?_, fun _ => rfl⟩
        · have := two_pow_ebits hE
          omega
        · calc _ < 2 ^ b * 2 ^ (f.frac - b) := by
                gcongr
                rw [pow_succ] at hfst
                omega
            _ = 2 ^ f.frac := by rw [← pow_add, Nat.add_sub_cancel' hb]

namespace Fmt

section
variable {f : Fmt} (hE : 0 < f.ebits) {b : Nat} (trunc : Bool)
include hE

/-- The pattern of a rounded result fits the format. -/
theorem round_bits_lt (hb : b ≤ f.frac) (x : Fl) : (f.round b trunc x).bits < 2 ^ (f.ebits + f.frac + 1) := by
  cases hx : x.isNan
  case false =>
    obtain ⟨e, fr, ovf, unf, he, hfr, hround⟩ := round_withSign hE hb trunc hx
    have hself := hround x.sign
    rw [Fl.withSign_sign] at hself
    rw [hself]
    exact encode_lt f _ he hfr
  case true =>
    cases x with
    | nan g =>
      have := two_pow_ebits hE
      exact encode_lt f g (by omega) (Nat.sub_lt (by positivity) Nat.one_pos)
    | inf | zero | num => exact absurd hx nofun

theorem sign_infinity (g : Bool) : f.sign (f.infinity g) = g := by
  have := two_pow_ebits hE
  exact sign_encode f g (by omega) (by positivity)

theorem sign_round_nan (g : Bool) : f.sign (f.round b trunc (.nan g)).bits = g := by
  have := two_pow_ebits hE
  exact sign_encode f g (by omega) (Nat.sub_lt (by positivity) Nat.one_pos)

theorem sign_overflowBits (g : Bool) : f.sign (f.overflowBits b trunc g) = g := by
  cases trunc
  · exact sign_infinity hE g
  · have := two_pow_ebits hE
    exact sign_encode f g (by omega) (Nat.sub_lt (by positivity) (by positivity))

end

end Fmt

end Sys2Proof.Machine
end

section
/-! PROOFS. Floating-point operations of 32 and 40 bits: what a row delivers, rounded results, boundaries (R781 to R788). -/

namespace Sys2Proof.Machine

open Sys2Proof

/-! ### Sticky bits -/

theorem Sticky.apply_none (a : Word) : ({} : Sticky).apply a = a := by simp [Sticky.apply, flagBit]

theorem Sticky.apply_avs (v : Bool) (a : Word) : ({ avs := v } : Sticky).apply a = a ||| (if v then 0x2#32 else 0#32) := by
  cases v <;> simp [Sticky.apply, flagBit]

theorem Sticky.apply_aus (v : Bool) (a : Word) : ({ aus := v } : Sticky).apply a = a ||| (if v then 0x1#32 else 0#32) := by
  cases v <;> simp [Sticky.apply, flagBit]

/-- The sticky bits of the ALU stay within their mask. -/
theorem Sticky.alu_frame (u v o i : Bool) :
    ({ aus := u, avs := v, aos := o, ais := i } : Sticky).apply 0#32 &&& ~~~aluStickyMask = 0#32 := by
  cases u <;> cases v <;> cases o <;> cases i <;> decide

/-! ### One operation of the floating-point ALU -/

/-- What an ALU result leaves in its element. -/
def ResultIn (s t : State) (y : Bool) (rn : RegNo) (r : AluRes) : Prop :=
  t.dreg y rn = r.value ∧
    AluFlagsAre t y r.flags.az r.flags.av r.flags.an r.flags.ac r.flags.as r.flags.ai r.flags.af ∧
    t.stky y = r.sticky.apply (s.stky y)

/-- A result of the floating-point ALU: AF is set, and no sticky bit but those of the ALU. -/
structure AluRes.IsFloat (r : AluRes) : Prop where
  af : r.flags.af = true
  sticky : r.sticky.apply 0#32 &&& ~~~aluStickyMask = 0#32

/-- The result of a NAN operand or an invalid operation, with the signs that an operation gives it (R786). -/
def State.invalidRes (s : State) (an as : Bool) : AluRes :=
  { value := s.all1, flags := { an := an, as := as, ai := true, af := true }, sticky := { ais := true } }

theorem State.invalidRes_isFloat (s : State) (an as : Bool) : (s.invalidRes an as).IsFloat := ⟨rfl, Sticky.alu_frame _ _ _ _⟩

theorem exactRes_isFloat (v : Nat) : (exactRes v).IsFloat := ⟨rfl, Sticky.alu_frame _ _ _ _⟩

theorem State.rounded_isFloat (s : State) (b : Nat) (x : Fl) : (s.rounded b x).IsFloat := by
  unfold State.rounded
  split
  · exact s.invalidRes_isFloat true false
  · exact ⟨rfl, Sticky.alu_frame _ _ _ _⟩

/-- An instruction that delivers one floating-point result on each element is a floating-point row. -/
theorem fltRow_of_resultIn {i : Instr} {s : State} {rn : RegNo} {r : Bool → AluRes} {invalid : Bool → Prop} {an as : Bool → Bool}
    {P : State → Bool → Prop} (hexec : exec i s = .next (s.runAlone fun y => (r y).to rn)) (hfloat : ∀ y, (r y).IsFloat)
    (hinvalid : ∀ y, invalid y → r y = s.invalidRes (an y) (as y))
    (hvalid : ∀ t y, ¬ invalid y → ResultIn s t y rn (r y) → P t y) : FltRow i s rn invalid an as P := by
  obtain ⟨frame, mr, fifo, row⟩ := runAlone_alu s rn r aluStickyMask fun y => (hfloat y).sticky
  refine ⟨_, hexec, frame, mr, fifo, fun y hy => ?_⟩
  have hrow := row y hy
  refine ⟨?_, fun hinv => ?_, fun hval => hvalid _ y hval hrow⟩
  · obtain ⟨-, ⟨-, -, -, -, -, -, haf⟩, -⟩ := hrow
    rw [haf, (hfloat y).af]
  · rw [hinvalid y hinv] at hrow
    obtain ⟨hval, hflags, hstky⟩ := hrow
    exact ⟨hval, hflags, hstky.trans (Sticky.apply_ais true _)⟩

/-! ### Patterns of 40 bits -/

theorem sign_toNat (v : Reg40) : fmt40.sign v.toNat = v.msb := by
  rw [BitVec.msb_eq_getLsbD_last, BitVec.getLsbD, Nat.testBit_eq_decide_div_mod_eq]
  rfl

theorem toNat_ofNat_encode (s : Bool) {e fr : Nat} (he : e < 2 ^ fmt40.ebits) (hfr : fr < 2 ^ fmt40.frac) :
    (BitVec.ofNat 40 (fmt40.encode s e fr)).toNat = fmt40.encode s e fr := by
  have hlt : fmt40.encode s e fr < 2 ^ 40 := Fmt.encode_lt fmt40 s he hfr
  rw [BitVec.toNat_ofNat, Nat.mod_eq_of_lt hlt]

theorem toNat_fltZero (g : Bool) : (fltZero g).toNat = fmt40.encode g 0 0 := by cases g <;> rfl

theorem toNat_fltInf (g : Bool) : (fltInf g).toNat = fmt40.infinity g := by cases g <;> rfl

/-- The result of a known pattern. -/
theorem fltIs_of_resultIn {s t : State} {y : Bool} {rn : RegNo} {v : Reg40} (h : ResultIn s t y rn (exactRes v.toNat)) :
    FltIs s t y rn v := by
  obtain ⟨hval, hflags, hstky⟩ := h
  refine ⟨hval.trans (by rw [exactRes, BitVec.ofNat_toNat, BitVec.setWidth_eq]), ?_, hstky.trans (Sticky.apply_none _)⟩
  rwa [exactRes, sign_toNat] at hflags

/-! ### Operands and boundaries (R782) -/

theorem fin_lt (s : State) (y : Bool) (n : RegNo) : s.fin y n < 2 ^ 40 := BitVec.isLt _

theorem bound_le (s : State) : s.bound ≤ fmt40.frac := by unfold State.bound; split <;> decide

theorem value_fl (s : State) (y : Bool) (n : RegNo) : (s.fl y n).value = fmt40.value (s.fin y n) := fmt40.value_classify _

theorem sign_fl (s : State) (y : Bool) (n : RegNo) : (s.fl y n).sign = fmt40.sign (s.fin y n) := fmt40.sign_classify _

theorem proper_fl (s : State) (y : Bool) (n : RegNo) : (s.fl y n).Proper := fmt40.proper_classify _

theorem dvd_fraction {v : Nat} (h : v % 256 = 0) : 2 ^ (fmt40.frac - 23) ∣ fmt40.fraction v := by
  change 2 ^ (31 - 23) ∣ v % 2 ^ 31
  omega

/-- A pattern of the boundary in force has no fraction bits below it. -/
theorem dvd_fraction_of_boundary {s : State} {v : Nat} (h : s.mode .rnd32 = true → v % 256 = 0) :
    2 ^ (fmt40.frac - s.bound) ∣ fmt40.fraction v := by
  unfold State.bound
  split
  case isTrue hr => exact dvd_fraction (h hr)
  case isFalse => exact one_dvd _

theorem mod_256_of_and {v : Reg40} (h : v &&& 0xFF#40 = 0#40) : v.toNat % 256 = 0 := by
  have hmod := congrArg BitVec.toNat h
  rwa [BitVec.toNat_and, show (0xFF#40).toNat = 2 ^ 8 - 1 from rfl, Nat.and_two_pow_sub_one_eq_mod] at hmod

theorem dvd_fraction_of_inBoundary {s : State} {v : Reg40} (h : s.inBoundary v) :
    2 ^ (fmt40.frac - s.bound) ∣ fmt40.fraction v.toNat := dvd_fraction_of_boundary fun hr => mod_256_of_and (h hr)

/-- An operand is a pattern of the boundary in force. -/
theorem fin_mod_256 {s : State} (h : s.mode .rnd32 = true) (y : Bool) (n : RegNo) : s.fin y n % 256 = 0 := by
  rw [State.fin, if_pos h, BitVec.toNat_and, show 256 = 2 ^ 8 from rfl, Nat.and_mod_two_pow]
  exact Nat.and_zero _

/-! ### Rounded results -/

section
variable {s t : State} {y : Bool} {rn : RegNo} {b : Nat} {x : Fl} {r : ℚ}

theorem State.rounded_eq (s : State) (b : Nat) (hx : x.isNan = false) :
    s.rounded b x =
      let z := fmt40.round b s.trunc x
      { value := BitVec.ofNat 40 z.bits
        flags := { az := fmt40.exp z.bits == 0, av := z.ovf, an := fmt40.sign z.bits, af := true }
        sticky := { avs := z.ovf, aus := z.unf } } := by
  rw [State.rounded, hx]
  rfl

theorem State.rounded_inf (s : State) (b : Nat) (g : Bool) : s.rounded b (.inf g) = exactRes (fltInf g).toNat := by
  cases g <;> rfl

theorem State.rounded_zero (s : State) (b : Nat) (g : Bool) : s.rounded b (.zero g) = exactRes (fltZero g).toNat := by
  cases g <;> rfl

/-- An exact result other than 0 that a pattern within the boundary holds (R784). -/
theorem State.rounded_exact {v : Reg40} (hb : b ≤ fmt40.frac) (hx : x.value = some r) (hr : r ≠ 0)
    (hval : fmt40.value v.toNat = some r) (hbd : 2 ^ (fmt40.frac - b) ∣ fmt40.fraction v.toNat) :
    s.rounded b x = exactRes v.toNat := by
  rw [s.rounded_eq b (Fl.isNan_of_value hx), fmt40.round_exact (by decide) hb hx hr v.isLt hval hbd]
  rfl

theorem fltIs_rounded {v : Reg40} (hb : b ≤ fmt40.frac) (hx : x.value = some r) (hr : r ≠ 0)
    (hval : fmt40.value v.toNat = some r) (hbd : 2 ^ (fmt40.frac - b) ∣ fmt40.fraction v.toNat)
    (h : ResultIn s t y rn (s.rounded b x)) : FltIs s t y rn v :=
  fltIs_of_resultIn (State.rounded_exact hb hx hr hval hbd ▸ h)

theorem exp_overflowBits (b : Nat) (trunc g : Bool) : fmt40.exp (fmt40.overflowBits b trunc g) ≠ 0 := by
  have hfr : 2 ^ 31 - 2 ^ (31 - b) < 2 ^ 31 := Nat.sub_lt (by decide) (by positivity)
  cases trunc
  · change fmt40.exp (fmt40.encode g 255 0) ≠ 0
    rw [Fmt.exp_encode _ _ (by decide) (by decide)]
    decide
  · change fmt40.exp (fmt40.encode g 254 _) ≠ 0
    rw [Fmt.exp_encode _ _ (by decide) hfr]
    decide

/-- An exact result outside the range (R785 to R787). -/
theorem fltEnds_rounded (hb : b ≤ fmt40.frac) (hx : x.value = some r) (h : ResultIn s t y rn (s.rounded b x)) :
    FltEnds s t y rn b (decide (r < 0)) r := by
  rw [s.rounded_eq b (Fl.isNan_of_value hx)] at h
  refine ⟨fun hover => ?_, fun hpos hunder => ?_⟩
  · change fmt40.overflowsAt b s.trunc ≤ |r| at hover
    rw [fmt40.round_overflow hb hx hover] at h
    obtain ⟨hval, hflags, hstky⟩ := h
    dsimp only at hval hflags hstky
    rw [Fmt.sign_overflowBits (by decide), beq_false_of_ne (exp_overflowBits b s.trunc _)] at hflags
    exact ⟨hval, hflags, hstky.trans (Sticky.apply_avs true _)⟩
  · change |r| < fmt40.holdsFrom b s.trunc at hunder
    rw [fmt40.round_underflow hx hpos hunder] at h
    obtain ⟨hval, hflags, hstky⟩ := h
    dsimp only at hval hflags hstky
    rw [Fmt.exp_encode _ _ (by decide) (by decide), Fmt.sign_encode _ _ (by decide) (by decide)] at hflags
    rw [← toNat_fltZero, BitVec.ofNat_toNat, BitVec.setWidth_eq] at hval
    exact ⟨hval, hflags, hstky.trans (Sticky.apply_aus true _)⟩

end

end Sys2Proof.Machine
end

section
/-! PROOFS. Floating-point sums, differences, magnitudes and averages (R786, R788, R790 to R794). -/

namespace Sys2Proof.Machine

open Sys2Proof

/-! ### The magnitude of a result (R792) -/

theorem magnitude_isFloat {r : AluRes} (h : r.IsFloat) : r.magnitude.IsFloat := ⟨h.af, h.sticky⟩

/-- Without its sign bit a pattern is positive. -/
theorem ofNat_encode_and (s : Bool) {e fr : Nat} (he : e < 2 ^ fmt40.ebits) (hfr : fr < 2 ^ fmt40.frac) :
    BitVec.ofNat 40 (fmt40.encode s e fr) &&& 0x7FFFFFFFFF#40 = BitVec.ofNat 40 (fmt40.encode false e fr) := by
  apply BitVec.eq_of_toNat_eq
  rw [BitVec.toNat_and, toNat_ofNat_encode s he hfr, toNat_ofNat_encode false he hfr,
    show (0x7FFFFFFFFF#40).toNat = 2 ^ 39 - 1 from rfl, Nat.and_two_pow_sub_one_eq_mod]
  simp only [fmt40, Fmt.encode, Bool.toNat_false, Nat.zero_mul, Nat.zero_add] at he hfr ⊢
  omega

/-- The magnitude of a rounded number is the rounded magnitude (R792). -/
theorem magnitude_rounded {s : State} {b : Nat} (hb : b ≤ fmt40.frac) {x : Fl} (hx : x.isNan = false) :
    (s.rounded b x).magnitude = s.rounded b (x.withSign false) := by
  obtain ⟨e, fr, ovf, unf, he, hfr, hround⟩ := Fmt.round_withSign (f := fmt40) (by decide) hb s.trunc hx
  have hself := hround x.sign
  rw [Fl.withSign_sign] at hself
  rw [s.rounded_eq b hx, s.rounded_eq b ((Fl.isNan_withSign x false).trans hx), hself, hround false]
  simp only [AluRes.magnitude, Bool.false_eq_true, if_false, ofNat_encode_and _ he hfr, Fmt.exp_encode _ _ he hfr,
    Fmt.sign_encode _ _ he hfr]

/-! ### The exact sum -/

/-- The exact sum or difference, halved for an average. -/
def State.exactSum (s : State) (y : Bool) (rx ry : RegNo) (sub half : Bool) : Fl :=
  ((s.fl y rx).add ((s.fl y ry).negIf sub)).scale (if half then -1 else 0)

/-- The result of a sum, or its magnitude. -/
def State.sumRes (s : State) (y : Bool) (rx ry : RegNo) (sub half mag : Bool) : AluRes :=
  let r := s.rounded s.bound (s.exactSum y rx ry sub half)
  if mag then r.magnitude else r

section
variable (s : State) (y : Bool) (rx ry : RegNo)

theorem fltAdd_eq : s.fltAdd y rx ry = s.sumRes y rx ry false false false := by
  simp only [State.sumRes, State.exactSum, Bool.false_eq_true, if_false, Fl.scale_zero]; rfl

theorem fltSub_eq : s.fltSub y rx ry = s.sumRes y rx ry true false false := by
  simp only [State.sumRes, State.exactSum, Bool.false_eq_true, if_false, Fl.scale_zero]; rfl

theorem fltAbsAdd_eq : s.fltAbsAdd y rx ry = s.sumRes y rx ry false false true := by
  rw [State.fltAbsAdd, fltAdd_eq]; rfl

theorem fltAbsSub_eq : s.fltAbsSub y rx ry = s.sumRes y rx ry true false true := by
  rw [State.fltAbsSub, fltSub_eq]; rfl

theorem fltAvg_eq : s.fltAvg y rx ry = s.sumRes y rx ry false true false := rfl

end

section
variable {s : State} {y : Bool} {rx ry : RegNo} {sub half mag : Bool}

/-- A sum is invalid for a NAN operand, for opposite infinities, and a difference for equal ones (R788). -/
theorem isNan_exactSum : (s.exactSum y rx ry sub half).isNan = true ↔
    s.nanF y rx ∨ s.nanF y ry ∨ ∃ g, s.fl y rx = .inf g ∧ s.fl y ry = .inf (g == sub) := by
  have hg : ∀ g, ((!g) != sub) = (g == sub) := by cases sub <;> decide
  simp only [State.exactSum, Fl.isNan_scale, Fl.isNan_add, Fl.isNan_negIf, Fl.negIf_eq_inf, hg]

theorem exactSum_inf {g : Bool} (hvalid : (s.exactSum y rx ry sub half).isNan = false)
    (h : s.fl y rx = .inf g ∨ s.fl y ry = .inf (g != sub)) : s.exactSum y rx ry sub half = .inf g := by
  rw [State.exactSum, Fl.isNan_scale] at hvalid
  rw [State.exactSum, Fl.add_inf hvalid (h.imp id Fl.negIf_eq_inf.2)]
  rfl

section
variable {p q : ℚ} (hp : fmt40.value (s.fin y rx) = some p) (hq : fmt40.value (s.fin y ry) = some q)
include hp hq

theorem value_exactSum :
    (s.exactSum y rx ry sub half).value = some ((if sub then p - q else p + q) / (if half then 2 else 1)) := by
  have hsum := Fl.value_scale (Fl.value_add ((value_fl s y rx).trans hp) (Fl.value_negIf ((value_fl s y ry).trans hq) sub))
    (if half then -1 else 0)
  rw [State.exactSum, hsum]
  cases sub <;> cases half <;> simp [div_eq_mul_inv, sub_eq_add_neg]

theorem exactSum_zero (h : (if sub then p - q else p + q) / (if half then 2 else 1 : ℚ) = 0) :
    s.exactSum y rx ry sub half =
      .zero (decide (p = 0) && fmt40.sign (s.fin y rx) && (fmt40.sign (s.fin y ry) != sub)) := by
  have hq' := (value_fl s y ry).trans hq
  have hzero : p + (if sub then -q else q) = 0 := by
    have := (div_eq_zero_iff.1 h).resolve_right (by cases half <;> norm_num)
    cases sub
    · exact this
    · exact (sub_eq_add_neg p q).symm.trans this
  rw [State.exactSum, Fl.add_eq_zero (proper_fl s y rx) (Fl.proper_negIf (proper_fl s y ry) sub) ((value_fl s y rx).trans hp)
    (Fl.value_negIf hq' sub) hzero, Fl.sign_negIf (Fl.isNan_of_value hq'), sign_fl, sign_fl]
  rfl

end

/-! ### The rows -/

/-- A sum that is not invalid is the rounded exact sum, positive for a magnitude. -/
theorem sumRes_eq (hvalid : (s.exactSum y rx ry sub half).isNan = false) :
    s.sumRes y rx ry sub half mag =
      s.rounded s.bound (if mag then (s.exactSum y rx ry sub half).withSign false else s.exactSum y rx ry sub half) := by
  cases mag
  · rfl
  · exact magnitude_rounded (bound_le s) hvalid

theorem sumRes_invalid (h : (s.exactSum y rx ry sub half).isNan = true) :
    s.sumRes y rx ry sub half mag = s.invalidRes (!mag) false := by
  rw [State.sumRes, State.rounded, if_pos h]
  cases mag <;> rfl

theorem sumRes_isFloat : (s.sumRes y rx ry sub half mag).IsFloat := by
  cases mag
  · exact s.rounded_isFloat _ _
  · exact magnitude_isFloat (s.rounded_isFloat _ _)

end

/-- The magnitude of an exact result, or the result itself. -/
theorem value_ite_withSign {x : Fl} {r : ℚ} (h : x.value = some r) (mag : Bool) :
    (if mag then x.withSign false else x).value = some (if mag then |r| else r) := by
  cases mag
  · exact h
  · exact Fl.value_withSign_false h

/-- An instruction that delivers one such sum on each element is a sum row (R790 to R794). -/
theorem sumRow_of_sumRes {i : Instr} {s : State} {rn rx ry : RegNo} {sub half mag : Bool} {r : Bool → AluRes}
    (hexec : exec i s = .next (s.runAlone fun y => (r y).to rn)) (hr : ∀ y, r y = s.sumRes y rx ry sub half mag) :
    SumRow i s rn rx ry sub half mag := by
  obtain rfl : r = fun y => s.sumRes y rx ry sub half mag := funext hr
  refine fltRow_of_resultIn hexec (fun y => sumRes_isFloat) (fun y hinv => sumRes_invalid (isNan_exactSum.2 hinv))
    fun t y hinv h => ?_
  have hvalid : (s.exactSum y rx ry sub half).isNan = false := Bool.eq_false_iff.2 fun hn => hinv (isNan_exactSum.1 hn)
  rw [sumRes_eq hvalid] at h
  refine ⟨fun g hinf => ?_, fun p q hp hq => ⟨fun h0 => ?_, fun hne v hv hbd => ?_, ?_⟩⟩
  · rw [exactSum_inf hvalid hinf] at h
    apply fltIs_of_resultIn
    rw [← State.rounded_inf s s.bound]
    cases mag
    · rwa [Bool.not_false, Bool.and_true]
    · rwa [Bool.not_true, Bool.and_false]
  · rw [exactSum_zero hp hq h0] at h
    apply fltIs_of_resultIn
    rw [← State.rounded_zero s s.bound]
    cases mag
    · rwa [Bool.not_false, Bool.and_true]
    · rwa [Bool.not_true, Bool.and_false]
  · have hval := value_ite_withSign (value_exactSum (sub := sub) (half := half) hp hq) mag
    refine fltIs_rounded (bound_le s) hval ?_ hv (dvd_fraction_of_inBoundary hbd) h
    cases mag
    · exact hne
    · exact abs_ne_zero.2 hne
  · have hval := value_ite_withSign (value_exactSum (sub := sub) (half := half) hp hq) mag
    have hends := fltEnds_rounded (bound_le s) hval h
    cases mag
    · rwa [Bool.not_false, Bool.and_true]
    · rw [Bool.not_true, Bool.and_false]
      rwa [if_pos rfl, decide_eq_false (abs_nonneg _).not_gt, FltEnds, abs_abs] at hends

/-- Settles O4: every form rounds one exact sum. -/
theorem floatSums : Obligations.FloatSums := fun s _ _ _ =>
  ⟨sumRow_of_sumRes rfl fun y => fltAdd_eq s y _ _, sumRow_of_sumRes rfl fun y => fltSub_eq s y _ _,
    sumRow_of_sumRes rfl fun y => fltAbsAdd_eq s y _ _, sumRow_of_sumRes rfl fun y => fltAbsSub_eq s y _ _,
    sumRow_of_sumRes rfl fun y => fltAvg_eq s y _ _, sumRow_of_sumRes rfl fun y => fltAdd_eq s y _ _,
    sumRow_of_sumRes rfl fun y => fltSub_eq s y _ _⟩

end Sys2Proof.Machine
end

section
/-! PROOFS. Floating-point operations that select bits of their operands (R783, R796 to R798, R812 to R815). -/

namespace Sys2Proof.Machine

open Sys2Proof

/-! ### Flushed operands (R783) -/

theorem flush_lt {v : Nat} (hv : v < 2 ^ 40) : fmt40.flush v < 2 ^ 40 := by
  unfold Fmt.flush
  split
  · exact Fmt.encode_lt fmt40 _ (by decide) (by decide)
  · exact hv

theorem toNat_flushed (s : State) (y : Bool) (n : RegNo) : (s.flushed y n).toNat = fmt40.flush (s.fin y n) := by
  rw [State.flushed, BitVec.toNat_ofNat, Nat.mod_eq_of_lt (flush_lt (fin_lt s y n))]

/-- The exponent field of a pattern does not depend on its sign. -/
theorem exp_mod_two_pow (v : Nat) : fmt40.exp (v % 2 ^ 39) = fmt40.exp v := by
  change v % 2 ^ 39 / 2 ^ 31 % 2 ^ 8 = v / 2 ^ 31 % 2 ^ 8
  omega

/-! ### Sign and magnitude bits -/

theorem toNat_and_mag (x : Reg40) : (x &&& 0x7FFFFFFFFF#40).toNat = x.toNat % 2 ^ 39 := by
  rw [BitVec.toNat_and, show (0x7FFFFFFFFF#40).toNat = 2 ^ 39 - 1 from rfl, Nat.and_two_pow_sub_one_eq_mod]

theorem and_sgn (x : Reg40) : x &&& 0x8000000000#40 = fltZero x.msb := by
  apply BitVec.eq_of_toNat_eq
  rw [BitVec.toNat_and, show (0x8000000000#40).toNat = 2 ^ 39 from rfl, Nat.and_two_pow,
    show x.toNat.testBit 39 = x.msb from (BitVec.msb_eq_getLsbD_last x).symm]
  cases x.msb <;> rfl

/-- A magnitude with a sign bit. -/
theorem toNat_mag_or_sgn (x : Reg40) (g : Bool) :
    ((x &&& 0x7FFFFFFFFF#40) ||| fltZero g).toNat = (if g then 2 ^ 39 else 0) + x.toNat % 2 ^ 39 := by
  rw [BitVec.toNat_or, toNat_and_mag, Nat.or_comm]
  cases g
  · simp [fltZero]
  · have := Nat.two_pow_add_eq_or_of_lt (Nat.mod_lt x.toNat (by decide : 0 < 2 ^ 39)) 1
    rw [Nat.mul_one] at this
    exact this.symm

/-- A pattern is its sign bit and its magnitude. -/
theorem toNat_eq_sgn_add_mag (v : Reg40) : v.toNat = (if v.msb then 2 ^ 39 else 0) + v.toNat % 2 ^ 39 := by
  have hlt := v.isLt
  rw [BitVec.msb_eq_decide]
  by_cases h : 2 ^ (40 - 1) ≤ v.toNat
  · rw [decide_eq_true h, if_pos rfl]; omega
  · rw [decide_eq_false h, if_neg Bool.false_ne_true]; omega

/-! ### The rows -/

/-- An instruction that delivers a pattern `v` unless an operand is a NAN selects `v`. -/
theorem selectRow_of_exactRes {i : Instr} {s : State} {rn : RegNo} {nan : Bool → Prop} {v : Bool → Reg40} {r : Bool → AluRes}
    {isNan : Bool → Bool} (hexec : exec i s = .next (s.runAlone fun y => (r y).to rn))
    (hr : ∀ y, r y = if isNan y then s.invalid else exactRes (v y).toNat) (hnan : ∀ y, nan y ↔ isNan y = true) :
    SelectRow i s rn nan v := by
  refine fltRow_of_resultIn hexec (fun y => ?_) (fun y hinv => ?_) fun t y hinv h => ?_
  · rw [hr]
    split
    · exact s.invalidRes_isFloat true false
    · exact exactRes_isFloat _
  · rw [hr, if_pos ((hnan y).1 hinv)]; rfl
  · rw [hr, if_neg (mt (hnan y).2 hinv)] at h
    exact fltIs_of_resultIn h

section
variable (s : State) (y : Bool) (rx ry : RegNo)

/-- A selection in terms of the flushed operands (R812). -/
theorem select_eq {pick : Nat → Nat → Nat} {v : Reg40} (h : pick (s.flushed y rx).toNat (s.flushed y ry).toNat = v.toNat) :
    s.select y rx ry pick = if (s.fl y rx).isNan || (s.fl y ry).isNan then s.invalid else exactRes v.toNat := by
  rw [State.select, ← toNat_flushed, ← toNat_flushed, h]

theorem fltNeg_eq :
    s.fltNeg y rx = if (s.fl y rx).isNan then s.invalid else exactRes (s.flushed y rx ^^^ 0x8000000000#40).toNat := by
  rw [State.fltNeg, ← toNat_flushed, BitVec.toNat_xor]; rfl

theorem fltPass_eq : s.fltPass y rx = if (s.fl y rx).isNan then s.invalid else exactRes (s.flushed y rx).toNat := by
  rw [State.fltPass, toNat_flushed]

end

/-- COPYSIGN takes the magnitude of one operand and the sign of the other (R812). -/
theorem copysignBits_toNat (x w : Reg40) :
    copysignBits x.toNat w.toNat = ((x &&& 0x7FFFFFFFFF#40) ||| (w &&& 0x8000000000#40)).toNat := by
  rw [and_sgn, toNat_mag_or_sgn, copysignBits, sign_toNat]

/-- CLIP keeps an operand of smaller magnitude, else takes the magnitude of the bound (R815). -/
theorem clipBits_toNat (x w : Reg40) :
    clipBits x.toNat w.toNat =
      (if x &&& 0x7FFFFFFFFF#40 < w &&& 0x7FFFFFFFFF#40 then x
        else (w &&& 0x7FFFFFFFFF#40) ||| (x &&& 0x8000000000#40)).toNat := by
  simp only [clipBits, BitVec.lt_def, toNat_and_mag]
  split
  · rfl
  · rw [and_sgn, toNat_mag_or_sgn, sign_toNat]

/-! ### MIN and MAX (R813, R814) -/

theorem flush_flush {f : Fmt} (v : Nat) : f.flush (f.flush v) = f.flush v := by
  by_cases h : f.exp v = 0
  · have hz : f.flush v = f.encode (f.sign v) 0 0 := if_pos h
    have hexp : f.exp (f.encode (f.sign v) 0 0) = 0 := f.exp_encode _ (by positivity) (by positivity)
    rw [hz, Fmt.flush, if_pos hexp, f.sign_encode _ (by positivity) (by positivity)]
  · have hv : f.flush v = v := if_neg h
    rw [hv, hv]

/-- The key of a flushed pattern: its magnitude bits with its sign. -/
theorem key_of_flushed {v : Reg40} (hv : fmt40.flush v.toNat = v.toNat) :
    fmt40.key v.toNat = if v.msb then -((v.toNat % 2 ^ 39 : Nat) : Int) else (v.toNat % 2 ^ 39 : Nat) := by
  rw [Fmt.key, hv, sign_toNat]
  rfl

theorem eq_fltZero_of_mag {v : Reg40} (hv : v.toNat % 2 ^ 39 = 0) : v = fltZero v.msb := by
  apply BitVec.eq_of_toNat_eq
  rw [toNat_eq_sgn_add_mag v, hv]
  cases v.msb <;> rfl

/-- Flushed patterns of one key are equal, but for the two zeros. -/
theorem eq_or_zeros_of_key_eq {a b : Reg40} (ha : fmt40.flush a.toNat = a.toNat) (hb : fmt40.flush b.toNat = b.toNat)
    (h : fmt40.key a.toNat = fmt40.key b.toNat) : a = b ∨ a = fltZero a.msb ∧ b = fltZero b.msb := by
  rw [key_of_flushed ha, key_of_flushed hb] at h
  by_cases hmsb : a.msb = b.msb
  case pos =>
    have hmag : a.toNat % 2 ^ 39 = b.toNat % 2 ^ 39 := by rw [hmsb] at h; split at h <;> omega
    refine .inl (BitVec.eq_of_toNat_eq ?_)
    rw [toNat_eq_sgn_add_mag a, toNat_eq_sgn_add_mag b, hmsb, hmag]
  case neg =>
    rw [Bool.eq_not_of_ne hmsb] at h
    have hmag : a.toNat % 2 ^ 39 = 0 ∧ b.toNat % 2 ^ 39 = 0 := by
      generalize b.msb = g at h
      cases g
      · rw [if_pos Bool.not_false, if_neg Bool.false_ne_true] at h; omega
      · rw [if_neg (by decide), if_pos rfl] at h; omega
    exact .inr ⟨eq_fltZero_of_mag hmag.1, eq_fltZero_of_mag hmag.2⟩

theorem minBits_toNat {a b : Reg40} (ha : fmt40.flush a.toNat = a.toNat) (hb : fmt40.flush b.toNat = b.toNat) :
    minBits a.toNat b.toNat =
      (if fmt40.key a.toNat < fmt40.key b.toNat then a
        else if fmt40.key b.toNat < fmt40.key a.toNat then b else a ||| b).toNat := by
  unfold minBits
  split
  case isTrue => rfl
  case isFalse hab =>
    split
    case isTrue => rfl
    case isFalse hba =>
      rw [sign_toNat]
      rcases eq_or_zeros_of_key_eq ha hb (by omega) with rfl | ⟨hza, hzb⟩
      · simp
      · rw [hza, hzb]
        cases a.msb <;> cases b.msb <;> rfl

theorem maxBits_toNat {a b : Reg40} (ha : fmt40.flush a.toNat = a.toNat) (hb : fmt40.flush b.toNat = b.toNat) :
    maxBits a.toNat b.toNat =
      (if fmt40.key b.toNat < fmt40.key a.toNat then a
        else if fmt40.key a.toNat < fmt40.key b.toNat then b else a &&& b).toNat := by
  unfold maxBits
  split
  case isTrue => rfl
  case isFalse hab =>
    split
    case isTrue => rfl
    case isFalse hba =>
      rw [sign_toNat]
      rcases eq_or_zeros_of_key_eq ha hb (by omega) with rfl | ⟨hza, hzb⟩
      · simp
      · rw [hza, hzb]
        cases a.msb <;> cases b.msb <;> rfl

/-! ### ABS (R797) -/

theorem fltAbs_eq (s : State) (y : Bool) (rx : RegNo) :
    s.fltAbs y rx =
      if (s.fl y rx).isNan then s.invalidRes false (fmt40.sign (s.fin y rx))
      else
        { value := s.flushed y rx &&& 0x7FFFFFFFFF#40
          flags := { az := decide (fmt40.exp (s.flushed y rx).toNat = 0), as := fmt40.sign (s.fin y rx), af := true } } := by
  have hval : BitVec.ofNat 40 (fmt40.flush (s.fin y rx) % 2 ^ 39) = s.flushed y rx &&& 0x7FFFFFFFFF#40 := by
    rw [← toNat_flushed, ← toNat_and_mag, BitVec.ofNat_toNat, BitVec.setWidth_eq]
  unfold State.fltAbs
  split
  · rfl
  · rw [exactRes, hval, exp_mod_two_pow, toNat_flushed]; rfl

theorem fltRow_fltAbs (s : State) (rn rx : RegNo) :
    FltRow (.fltAbs rn rx) s rn (fun y => s.nanF y rx) (fun _ => false) (fun y => fmt40.sign (s.fin y rx)) (fun t y =>
      t.dreg y rn = s.flushed y rx &&& 0x7FFFFFFFFF#40 ∧
      AluFlagsAre t y (decide (fmt40.exp (s.flushed y rx).toNat = 0)) false false false (fmt40.sign (s.fin y rx)) false true ∧
      t.stky y = s.stky y) := by
  refine fltRow_of_resultIn (r := fun y => s.fltAbs y rx) rfl (fun y => ?_) (fun y hinv => ?_) fun t y hinv h => ?_
  · rw [fltAbs_eq]
    split
    · exact s.invalidRes_isFloat _ _
    · exact ⟨rfl, Sticky.alu_frame _ _ _ _⟩
  · rw [fltAbs_eq, if_pos hinv]
  · rw [fltAbs_eq, if_neg hinv] at h
    obtain ⟨hval, hflags, hstky⟩ := h
    exact ⟨hval, hflags, hstky.trans (Sticky.apply_none _)⟩

/-- Settles O5: each form selects bits of its flushed operands; MIN and MAX by the order of their keys. -/
theorem floatSelections : Obligations.FloatSelections := by
  intro s rn rx ry
  have hflush : ∀ y n, fmt40.flush (s.flushed y n).toNat = (s.flushed y n).toNat := fun y n => by
    rw [toNat_flushed, flush_flush]
  have hnan : ∀ y, s.nanF y rx ∨ s.nanF y ry ↔ ((s.fl y rx).isNan || (s.fl y ry).isNan) = true := fun y => by
    rw [Bool.or_eq_true]
  refine ⟨?_, ?_, ?_, ?_, ?_, ?_, fltRow_fltAbs s rn rx⟩
  · exact selectRow_of_exactRes rfl (fun y => fltNeg_eq s y rx) fun _ => Iff.rfl
  · exact selectRow_of_exactRes rfl (fun y => fltPass_eq s y rx) fun _ => Iff.rfl
  · exact selectRow_of_exactRes rfl (fun y => select_eq s y rx ry (copysignBits_toNat _ _)) hnan
  · exact selectRow_of_exactRes rfl (fun y => select_eq s y rx ry (minBits_toNat (hflush y rx) (hflush y ry))) hnan
  · exact selectRow_of_exactRes rfl (fun y => select_eq s y rx ry (maxBits_toNat (hflush y rx) (hflush y ry))) hnan
  · exact selectRow_of_exactRes rfl (fun y => select_eq s y rx ry (clipBits_toNat _ _)) hnan

end Sys2Proof.Machine
end

section
/-! PROOFS. RND, SCALB, FLOAT and FLOAT BY (R784 to R788, R799, R800, R808, R809). -/

namespace Sys2Proof.Machine

open Sys2Proof

/-! ### Scaling -/

/-- Significands of one width with their exponents are unique. -/
theorem significand_unique {b M N : Nat} {e d : Int} (hM : 2 ^ b ≤ M ∧ M < 2 ^ (b + 1)) (hN : 2 ^ b ≤ N ∧ N < 2 ^ (b + 1))
    (h : (M : ℚ) * (2 : ℚ) ^ e = N * (2 : ℚ) ^ d) : M = N := by
  have hpos : 0 < 2 ^ b := by positivity
  have hlogM : Nat.log2 M = b := (Nat.log2_eq_iff (by omega)).2 hM
  have hlogN : Nat.log2 N = b := (Nat.log2_eq_iff (by omega)).2 hN
  have hbinM := num_binade (by omega : M ≠ 0) e
  have hbinN := num_binade (by omega : N ≠ 0) d
  rw [hlogM, h] at hbinM
  rw [hlogN] at hbinN
  obtain rfl : e = d := by have := binade_unique hbinM hbinN; omega
  exact_mod_cast mul_right_cancel₀ (by positivity) h

/-- Scaling by a power of two keeps the fraction bits. -/
theorem fraction_eq_of_scaled {f : Fmt} {v w : Nat} {p : ℚ} {k : Int} (hp : f.value v = some p) (hp0 : p ≠ 0)
    (hw : f.value w = some (p * (2 : ℚ) ^ k)) : f.fraction w = f.fraction v := by
  have hk : (2 : ℚ) ^ k ≠ 0 := by positivity
  obtain ⟨-, -, hv⟩ := Fmt.value_eq_signed hp hp0
  obtain ⟨-, -, hw⟩ := Fmt.value_eq_signed hw (mul_ne_zero hp0 hk)
  rw [hv, signed_mul_right, mul_assoc, ← zpow_add₀ two_ne_zero] at hw
  have hne : ∀ fr, 2 ^ f.frac + fr ≠ 0 := fun fr => by positivity
  have hbin : ∀ u, 2 ^ f.frac ≤ 2 ^ f.frac + f.fraction u ∧ 2 ^ f.frac + f.fraction u < 2 ^ (f.frac + 1) := fun u => by
    have := f.fraction_lt u
    rw [pow_succ]
    omega
  obtain ⟨-, hmag⟩ := signed_inj (num_pos (hne _) _) (num_pos (hne _) _) hw
  have := significand_unique (hbin v) (hbin w) hmag
  omega

theorem mul_zpow_neg_iff {r : ℚ} {k : Int} : r * (2 : ℚ) ^ k < 0 ↔ r < 0 := by
  rw [← not_le, ← not_le, mul_nonneg_iff_of_pos_right (by positivity)]

/-! ### The rows -/

/-- An instruction that rounds one exact value on each element, invalid for a NAN. -/
theorem fltRow_of_rounded {i : Instr} {s : State} {rn : RegNo} {b : Nat} {x : Bool → Fl} {invalid : Bool → Prop}
    {P : State → Bool → Prop} (hexec : exec i s = .next (s.runAlone fun y => (s.rounded b (x y)).to rn))
    (hinvalid : ∀ y, invalid y → (x y).isNan = true)
    (hvalid : ∀ t y, ResultIn s t y rn (s.rounded b (x y)) → P t y) : FltRow i s rn invalid (fun _ => true) (fun _ => false) P :=
  fltRow_of_resultIn hexec (fun y => s.rounded_isFloat b (x y)) (fun y h => by rw [State.rounded, if_pos (hinvalid y h)]; rfl)
    fun t y _ h => hvalid t y h

section
variable {s t : State} {y : Bool} {rn rx : RegNo} {b : Nat} {x : Fl}

theorem fltIs_inf {g : Bool} (hx : x = .inf g) (h : ResultIn s t y rn (s.rounded b x)) : FltIs s t y rn (fltInf g) := by
  rw [hx, State.rounded_inf] at h
  exact fltIs_of_resultIn h

theorem fltIs_zero {g : Bool} (hx : x = .zero g) (h : ResultIn s t y rn (s.rounded b x)) : FltIs s t y rn (fltZero g) := by
  rw [hx, State.rounded_zero] at h
  exact fltIs_of_resultIn h

/-- A 32-bit integer is delivered exactly (R808). -/
theorem resultIn_ofInt {w : Word} (h : ResultIn s t y rn (s.rounded 31 (.ofInt w.toInt))) :
    fmt40.value (t.dreg y rn).toNat = some (w.toInt : ℚ) ∧ (w.toInt = 0 → t.dreg y rn = 0#40) ∧
      AluFlagsAre t y (decide (w.toInt = 0)) false (decide (w.toInt < 0)) false false false true ∧ t.stky y = s.stky y := by
  generalize hn : w.toInt = n at h
  have hlt : n.natAbs < 2 ^ (31 + 1) := by
    have := BitVec.toInt_lt (x := w)
    have := BitVec.le_toInt (x := w)
    omega
  rcases eq_or_ne n 0 with rfl | hne
  · obtain ⟨hval, hflags, hstky⟩ := fltIs_zero (g := false) rfl h
    rw [hval]
    exact ⟨by rw [Int.cast_zero]; rfl, fun _ => rfl, hflags, hstky⟩
  · obtain ⟨v, hv, hval⟩ := Fmt.exists_value_intCast (f := fmt40) (by decide) hne hlt (by decide)
    have hv : v < 2 ^ 40 := hv
    have hv' : (BitVec.ofNat 40 v).toNat = v := by rw [BitVec.toNat_ofNat, Nat.mod_eq_of_lt hv]
    rw [← hv'] at hval
    have hne' : (n : ℚ) ≠ 0 := Int.cast_ne_zero.2 hne
    obtain ⟨hdreg, hflags, hstky⟩ := fltIs_rounded le_rfl (Fl.value_ofInt n) hne' hval (one_dvd _) h
    have hexp : fmt40.exp (BitVec.ofNat 40 v).toNat ≠ 0 := by
      obtain ⟨hexp, -⟩ := Fmt.value_eq_signed hval hne'
      omega
    have hsign : decide ((n : ℚ) < 0) = decide (n < 0) := decide_eq_decide.2 Int.cast_lt_zero
    rw [decide_eq_false hexp, ← sign_toNat, Fmt.sign_of_value hval hne', hsign] at hflags
    rw [hdreg, decide_eq_false hne]
    exact ⟨hval, fun h0 => absurd h0 hne, hflags, hstky⟩

end

/-- FLOAT, by the long and by the short form (R808). -/
theorem fltRow_float {i : Instr} {s : State} {rn rx : RegNo}
    (hexec : exec i s = .next (s.runAlone fun y => (s.fltFloat y rx).to rn)) :
    FltRow i s rn (fun _ => False) (fun _ => true) (fun _ => false) (fun t y =>
      fmt40.value (t.dreg y rn).toNat = some ((s.fx y rx).toInt : ℚ) ∧ ((s.fx y rx).toInt = 0 → t.dreg y rn = 0#40) ∧
      AluFlagsAre t y (decide ((s.fx y rx).toInt = 0)) false (decide ((s.fx y rx).toInt < 0)) false false false true ∧
      t.stky y = s.stky y) :=
  fltRow_of_rounded hexec (fun _ => False.elim) fun _ _ => resultIn_ofInt

/-- Settles O6: each form rounds one exact value; a 32-bit integer fits the significand. -/
theorem floatScalings : Obligations.FloatScalings := by
  intro s rn rx ry
  refine ⟨?rnd, ?scalb, fltRow_float rfl, fltRow_float rfl, ?floatBy⟩
  case rnd =>
    refine fltRow_of_rounded (b := 23) rfl (fun _ h => h) fun t y h => ?_
    refine ⟨fun g hg => fltIs_inf hg h, fun g hg => fltIs_zero hg h, fun v hv hfin hne hbd => ?_, fun p hp => ?_⟩
    · obtain ⟨r, hr⟩ := Option.ne_none_iff_exists'.1 hfin
      exact fltIs_rounded (by decide) ((value_fl s y rx).trans (hv.symm.trans hr)) (fun h0 => hne (h0 ▸ hr)) hr
        (dvd_fraction (mod_256_of_and hbd)) h
    · exact fltEnds_rounded (by decide) ((value_fl s y rx).trans hp) h
  case scalb =>
    refine fltRow_of_rounded (b := s.bound) (x := fun y => (s.fl y rx).scale (s.fx y ry).toInt) rfl
      (fun y h => (Fl.isNan_scale _ _).trans h) fun t y h => ?_
    have hx := fun {p} hp => Fl.value_scale ((value_fl s y rx).trans (hp : _ = some p)) (s.fx y ry).toInt
    refine ⟨fun g hg => fltIs_inf (by rw [hg]; rfl) h, fun g hg => fltIs_zero (by rw [hg]; rfl) h, fun p v hp hp0 hv => ?_,
      fun p hp => ?_⟩
    · refine fltIs_rounded (bound_le s) (hx hp) (mul_ne_zero hp0 (by positivity)) hv ?_ h
      rw [fraction_eq_of_scaled hp hp0 hv]
      exact dvd_fraction_of_boundary fun hr => fin_mod_256 hr y rx
    · have hends := fltEnds_rounded (bound_le s) (hx hp) h
      rwa [decide_eq_decide.2 mul_zpow_neg_iff] at hends
  case floatBy =>
    refine fltRow_of_rounded (b := 31) (x := fun y => (Fl.ofInt (s.fx y rx).toInt).scale (s.fx y ry).toInt) rfl
      (fun _ => False.elim) fun t y h => ?_
    have hx := Fl.value_scale (Fl.value_ofInt (s.fx y rx).toInt) (s.fx y ry).toInt
    refine ⟨fun h0 => ?_, fun v hne hv => ?_, ?_⟩
    · change (s.fx y rx).toInt = 0 at h0
      exact fltIs_zero (by rw [h0]; rfl) h
    · exact fltIs_rounded le_rfl hx (mul_ne_zero (Int.cast_ne_zero.2 hne) (by positivity)) hv (one_dvd _) h
    · have hends := fltEnds_rounded le_rfl hx h
      rwa [decide_eq_decide.2 (mul_zpow_neg_iff.trans Int.cast_lt_zero)] at hends

end Sys2Proof.Machine
end

section
/-! PROOFS. Conversion of floating-point numbers to integers (R803 to R807, R854). -/

namespace Sys2Proof.Machine

open Sys2Proof

/-! ### Rounding directions -/

/-- `n` is `q` rounded in a direction. -/
def Dir.Rounds : Dir → Int → ℚ → Prop
  | .nearest, n, q => NearestInt n q
  | .floor, n, q => n = ⌊q⌋
  | .zero, n, q => TowardZero n q

theorem fixDirection_iff (s : State) (n : Int) (q : ℚ) : s.FixDirection n q ↔ s.fixDir.Rounds n q := by
  unfold State.FixDirection State.fixDir State.trunc
  split <;> rfl

/-- Of two neighbours one is odd: both cannot be the even end of a tie. -/
theorem not_nearestInt_succ {n : Int} {q : ℚ} (h : NearestInt n q) : ¬ NearestInt (n + 1) q := by
  rintro ⟨hk, hkeven⟩
  obtain ⟨hn, hneven⟩ := h
  push_cast at hk hkeven
  have hn' := abs_le.1 (show |(n : ℚ) - q| ≤ 1 / 2 by linarith)
  have hk' := abs_le.1 (show |(n : ℚ) + 1 - q| ≤ 1 / 2 by linarith)
  have hq : q = n + 1 / 2 := by linarith
  have hodd := hneven (by rw [hq, sub_add_cancel_left, abs_neg]; norm_num)
  have hodd' := hkeven (by rw [hq]; norm_num)
  omega

theorem nearestInt_unique {n k : Int} {q : ℚ} (hn : NearestInt n q) (hk : NearestInt k q) : n = k := by
  have hn' := abs_le.1 (show |(n : ℚ) - q| ≤ 1 / 2 by linarith [hn.1])
  have hk' := abs_le.1 (show |(k : ℚ) - q| ≤ 1 / 2 by linarith [hk.1])
  have hle : n ≤ k + 1 := by exact_mod_cast (by linarith : (n : ℚ) ≤ k + 1)
  have hge : k ≤ n + 1 := by exact_mod_cast (by linarith : (k : ℚ) ≤ n + 1)
  rcases (by omega : n = k ∨ n = k + 1 ∨ k = n + 1) with h | rfl | rfl
  · exact h
  · exact absurd hn (not_nearestInt_succ hk)
  · exact absurd hk (not_nearestInt_succ hn)

theorem Dir.rounds_unique {dir : Dir} {n k : Int} {q : ℚ} (hn : dir.Rounds n q) (hk : dir.Rounds k q) : n = k := by
  cases dir
  case nearest => exact nearestInt_unique hn hk
  case floor | zero => exact hn.trans hk.symm

/-- A rounded number lies less than 1 from its origin. -/
theorem Dir.rounds_near {dir : Dir} {n : Int} {q : ℚ} (h : dir.Rounds n q) : |(n : ℚ) - q| < 1 := by
  cases dir
  case nearest => obtain ⟨h1, -⟩ := h; linarith
  case floor =>
    obtain rfl : n = ⌊q⌋ := h
    rw [abs_lt]
    constructor <;> linarith [Int.floor_le q, Int.lt_floor_add_one q]
  case zero =>
    have hn : n = if 0 ≤ q then ⌊q⌋ else ⌈q⌉ := h
    rw [abs_lt, hn]
    split
    · constructor <;> linarith [Int.floor_le q, Int.lt_floor_add_one q]
    · constructor <;> linarith [Int.le_ceil q, Int.ceil_lt_add_one q]

/-- An integer rounds to itself. -/
theorem Dir.rounds_intCast (dir : Dir) (n : Int) : dir.Rounds n (n : ℚ) := by
  cases dir
  case nearest => exact ⟨by simp, by simp⟩
  case floor => exact (Int.floor_intCast n).symm
  case zero =>
    change n = if _ then _ else _
    split
    · exact (Int.floor_intCast n).symm
    · exact (Int.ceil_intCast n).symm

/-! ### The rounded quotient -/

/-- The integer next to m / 2^d, of sign `s`. -/
def roundDiv (dir : Dir) (s : Bool) (m d : Nat) : Int :=
  match dir with
  | .zero => (m / 2 ^ d : Nat)
  | .floor => if s && m % 2 ^ d != 0 then (m / 2 ^ d : Nat) + 1 else (m / 2 ^ d : Nat)
  | .nearest =>
    if 2 ^ (d - 1) < m % 2 ^ d ∨ (m % 2 ^ d = 2 ^ (d - 1) ∧ m / 2 ^ d % 2 = 1) then (m / 2 ^ d : Nat) + 1 else (m / 2 ^ d : Nat)

/-- The shortcut of `roundInt` for small numbers changes nothing. -/
theorem roundInt_of_neg {dir : Dir} {s : Bool} {m : Nat} {e : Int} (hm : m < 2 ^ 63) (he : e < 0) :
    roundInt dir s m e =
      (if s then -roundDiv dir s m (-e).toNat else roundDiv dir s m (-e).toNat,
        m / 2 ^ (-e).toNat == 0 && m % 2 ^ (-e).toNat != 0) := by
  have hunfold : roundInt dir s m e =
      (if s then -roundDiv dir s m (min (-e).toNat 64) else roundDiv dir s m (min (-e).toNat 64),
        m / 2 ^ min (-e).toNat 64 == 0 && m % 2 ^ min (-e).toNat 64 != 0) := by
    rw [roundInt, if_neg (by omega)]
    rfl
  rw [hunfold]
  rcases Nat.le_total (-e).toNat 64 with h | h
  · rw [min_eq_left h]
  · have hsmall : ∀ d, 64 ≤ d → m / 2 ^ d = 0 ∧ m % 2 ^ d = m ∧ m < 2 ^ (d - 1) := fun d hd => by
      have h63 : m < 2 ^ (d - 1) := hm.trans_le (Nat.pow_le_pow_right (by decide) (by omega))
      have h64 : m < 2 ^ d := h63.trans_le (Nat.pow_le_pow_right (by decide) (by omega))
      exact ⟨Nat.div_eq_of_lt h64, Nat.mod_eq_of_lt h64, h63⟩
    have hdiv : ∀ d, 64 ≤ d → roundDiv dir s m d = if dir = .floor ∧ s = true ∧ m ≠ 0 then 1 else 0 := fun d hd => by
      obtain ⟨h0, hmod, hlt⟩ := hsmall d hd
      cases dir <;> simp [roundDiv, h0, hmod, hlt.not_gt]
    obtain ⟨h0, hmod, -⟩ := hsmall _ h
    obtain ⟨h0', hmod', -⟩ := hsmall 64 le_rfl
    rw [min_eq_right h, hdiv _ h, hdiv 64 le_rfl, h0, hmod, h0', hmod']

/-- The quotient and the rest of a division by a power of two. -/
theorem div_two_pow_eq (m d : Nat) : (m : ℚ) / 2 ^ d = (m / 2 ^ d : Nat) + ((m % 2 ^ d : Nat) : ℚ) / 2 ^ d := by
  have hdiv : ((2 ^ d * (m / 2 ^ d) + m % 2 ^ d : Nat) : ℚ) = m := by rw [Nat.div_add_mod]
  rw [← hdiv]
  push_cast
  field_simp

theorem nearestInt_neg {n : Int} {q : ℚ} (h : NearestInt n q) : NearestInt (-n) (-q) := by
  have habs : |((-n : Int) : ℚ) - -q| = |(n : ℚ) - q| := by rw [Int.cast_neg, ← neg_sub', abs_neg]
  obtain ⟨hle, heven⟩ := h
  rw [NearestInt, habs]
  exact ⟨hle, fun htie => by have := heven htie; omega⟩

theorem towardZero_neg {x : ℚ} (hx : 0 ≤ x) : TowardZero (-⌊x⌋) (-x) := by
  unfold TowardZero
  split
  case isTrue h =>
    obtain rfl : x = 0 := le_antisymm (neg_nonneg.1 h) hx
    simp
  case isFalse => rw [Int.ceil_neg]

/-- The rest against half the divisor decides; at the half the parity of the quotient does. -/
theorem nearestInt_roundDiv (s : Bool) (m d : Nat) : NearestInt (roundDiv .nearest s m (d + 1)) ((m : ℚ) / 2 ^ (d + 1)) := by
  have hr : m % 2 ^ (d + 1) < 2 ^ (d + 1) := Nat.mod_lt _ (by positivity)
  rw [div_two_pow_eq, roundDiv, Nat.add_sub_cancel]
  generalize m / 2 ^ (d + 1) = q
  generalize m % 2 ^ (d + 1) = r at hr
  obtain ⟨f, hf⟩ : ∃ f, f = (r : ℚ) / 2 ^ (d + 1) := ⟨_, rfl⟩
  have hpos : (0 : ℚ) < 2 ^ (d + 1) := by positivity
  have hf0 : 0 ≤ f := by rw [hf]; positivity
  have hf1 : f < 1 := by rw [hf, div_lt_one hpos]; exact_mod_cast hr
  have hhalf : (2 : ℚ) ^ d / 2 ^ (d + 1) = 1 / 2 := by rw [pow_succ]; field_simp
  have hdown : |(((q : Nat) : Int) : ℚ) - (q + f)| = f := by
    rw [Int.cast_natCast, sub_add_cancel_left, abs_neg, abs_of_nonneg hf0]
  have hup : |(((q : Nat) + 1 : Int) : ℚ) - (q + f)| = 1 - f := by
    rw [Int.cast_add, Int.cast_natCast, Int.cast_one, add_sub_add_left_eq_sub, abs_of_pos (by linarith)]
  rw [← hf]
  rcases lt_trichotomy r (2 ^ d) with hlt | heq | hgt
  · have hf2 : f < 1 / 2 := by rw [hf, ← hhalf]; gcongr; exact_mod_cast hlt
    rw [if_neg (by omega)]
    exact ⟨by rw [hdown]; linarith, fun htie => by rw [hdown] at htie; linarith⟩
  · have hf2 : f = 1 / 2 := by rw [hf, ← hhalf, heq]; push_cast; rfl
    by_cases hodd : q % 2 = 1
    · rw [if_pos (.inr ⟨heq, hodd⟩)]
      exact ⟨by rw [hup]; linarith, fun _ => by omega⟩
    · rw [if_neg (by omega)]
      exact ⟨by rw [hdown]; linarith, fun _ => by omega⟩
  · have hf2 : 1 / 2 < f := by rw [hf, ← hhalf]; gcongr; exact_mod_cast hgt
    rw [if_pos (.inl hgt)]
    exact ⟨by rw [hup]; linarith, fun htie => by rw [hup] at htie; linarith⟩

theorem roundDiv_rounds (dir : Dir) (s : Bool) (m d : Nat) :
    dir.Rounds (if s then -roundDiv dir s m (d + 1) else roundDiv dir s m (d + 1)) (signed s ((m : ℚ) / 2 ^ (d + 1))) := by
  have hr : m % 2 ^ (d + 1) < 2 ^ (d + 1) := Nat.mod_lt _ (by positivity)
  have hpos : (0 : ℚ) < 2 ^ (d + 1) := by positivity
  cases dir
  case nearest =>
    cases s
    · exact nearestInt_roundDiv false m d
    · exact nearestInt_neg (nearestInt_roundDiv true m d)
  all_goals
    rw [div_two_pow_eq, roundDiv]
    generalize m / 2 ^ (d + 1) = q
    generalize m % 2 ^ (d + 1) = r at hr
    obtain ⟨f, hf⟩ : ∃ f, f = (r : ℚ) / 2 ^ (d + 1) := ⟨_, rfl⟩
    have hf0 : 0 ≤ f := by rw [hf]; positivity
    have hf1 : f < 1 := by rw [hf, div_lt_one hpos]; exact_mod_cast hr
    have hq : (0 : ℚ) ≤ q := by positivity
    have hfloor : ⌊(q : ℚ) + f⌋ = q := Int.floor_eq_iff.2 ⟨by push_cast; linarith, by push_cast; linarith⟩
    rw [← hf]
  case floor =>
    cases s
    case false => exact hfloor.symm
    case true =>
      have hneg : ⌊-((q : ℚ) + f)⌋ = if r = 0 then -(q : Int) else -(q + 1 : Int) := by
        rw [Int.floor_eq_iff]
        split
        case isTrue h0 =>
          have : f = 0 := by rw [hf, h0, Nat.cast_zero, zero_div]
          constructor <;> push_cast <;> linarith
        case isFalse h0 =>
          have : 0 < f := by have := Nat.pos_of_ne_zero h0; rw [hf]; positivity
          constructor <;> push_cast <;> linarith
      change -(if true && r != 0 then (q : Int) + 1 else q) = ⌊-((q : ℚ) + f)⌋
      rw [hneg]
      by_cases h0 : r = 0 <;> simp [h0]
  case zero =>
    cases s
    case false => exact hfloor.symm.trans (if_pos (by rw [signed_false]; linarith)).symm
    case true =>
      have h := towardZero_neg (x := (q : ℚ) + f) (by linarith)
      rwa [hfloor] at h

theorem num_eq_div (m : Nat) {e : Int} (he : e < 0) : m * (2 : ℚ) ^ e = m / 2 ^ (-e).toNat := by
  rw [div_eq_mul_inv, ← zpow_natCast, ← zpow_neg]
  congr 2
  omega

theorem roundInt_rounds {dir : Dir} {s : Bool} {m : Nat} {e : Int} (hm : m < 2 ^ 63) :
    dir.Rounds (roundInt dir s m e).1 (signed s (m * (2 : ℚ) ^ e)) := by
  rcases le_or_gt 0 e with he | he
  · have hval : signed s (m * (2 : ℚ) ^ e) = (((if s then -1 else 1) * ((m : Int) * 2 ^ e.toNat) : Int) : ℚ) := by
      lift e to ℕ using he
      rw [signed_eq_mul, Int.toNat_natCast, zpow_natCast]
      push_cast
      rfl
    rw [roundInt, if_pos he, hval]
    exact dir.rounds_intCast _
  · obtain ⟨d, hd⟩ : ∃ d, (-e).toNat = d + 1 := ⟨(-e).toNat - 1, by omega⟩
    rw [roundInt_of_neg hm he, num_eq_div m he, hd]
    exact roundDiv_rounds dir s m d

/-- The underflow mark of a conversion: the magnitude lies strictly between 0 and 1. -/
theorem roundInt_small {dir : Dir} {s : Bool} {m : Nat} {e : Int} (hm0 : m ≠ 0) (hm : m < 2 ^ 63) :
    (roundInt dir s m e).2 = true ↔ m * (2 : ℚ) ^ e < 1 := by
  rcases le_or_gt 0 e with he | he
  · rw [roundInt, if_pos he]
    have : (1 : ℚ) ≤ m * (2 : ℚ) ^ e :=
      one_le_mul_of_one_le_of_one_le (by exact_mod_cast Nat.pos_of_ne_zero hm0) (one_le_zpow₀ one_le_two he)
    simp [this]
  · have hlt : (m : ℚ) / 2 ^ (-e).toNat < 1 ↔ m < 2 ^ (-e).toNat := by
      rw [div_lt_one (by positivity)]; exact_mod_cast Iff.rfl
    rw [roundInt_of_neg hm he, num_eq_div m he, hlt, Bool.and_eq_true, beq_iff_eq, bne_iff_ne, Nat.div_eq_zero_iff_lt (by positivity)]
    refine ⟨And.left, fun h => ⟨h, ?_⟩⟩
    rwa [Nat.mod_eq_of_lt h]

/-! ### The conversion -/

theorem toFixed_isFloat (s : State) (dir : Dir) (early : Bool → Nat → Int → Bool) (x : Fl) : (s.toFixed dir early x).IsFloat := by
  have hover : ∀ g, (s.fixOverflow g).IsFloat := fun g => by
    unfold State.fixOverflow
    split <;> exact ⟨rfl, Sticky.alu_frame _ _ _ _⟩
  unfold State.toFixed
  split
  case h_1 => exact s.invalidRes_isFloat true false
  case h_2 => exact hover _
  case h_3 => exact ⟨rfl, Sticky.alu_frame _ _ _ _⟩
  case h_4 =>
    split
    · exact hover _
    · dsimp only
      split
      · exact hover _
      · exact ⟨rfl, Sticky.alu_frame _ _ _ _⟩

/-- What an overflowing conversion of sign `neg` leaves (R803 b). -/
def FixOverflows (s t : State) (y : Bool) (rn : RegNo) (neg : Bool) : Prop :=
  if s.mode .alusat then
    t.dreg y rn = (if neg then 0x8000000000#40 else 0x7FFFFFFF00#40) ∧
      AluFlagsAre t y false true neg false false false true ∧ t.stky y = s.stky y ||| 0x2#32
  else t.dreg y rn = s.all1 ∧ AluFlagsAre t y false true true false false true true ∧ t.stky y = s.stky y ||| 0x22#32

theorem fixOverflows_of_resultIn {s t : State} {y : Bool} {rn : RegNo} {neg : Bool} (h : ResultIn s t y rn (s.fixOverflow neg)) :
    FixOverflows s t y rn neg := by
  unfold State.fixOverflow at h
  rw [show s.alusat = s.mode .alusat from rfl] at h
  unfold FixOverflows
  split
  case isTrue hsat =>
    rw [if_pos hsat] at h
    obtain ⟨hval, hflags, hstky⟩ := h
    exact ⟨hval, hflags, hstky.trans (Sticky.apply_avs true _)⟩
  case isFalse hsat =>
    rw [if_neg hsat] at h
    obtain ⟨hval, hflags, hstky⟩ := h
    exact ⟨hval, hflags, hstky.trans (by simp [Sticky.apply, flagBit, BitVec.or_assoc])⟩

/-- A converted integer: its word, AZ, AN, and AUS for a magnitude strictly between 0 and 1 (R803). -/
def FixDelivers (s t : State) (y : Bool) (rn : RegNo) (n : Int) (r : ℚ) : Prop :=
  let out := t.fx y rn
  t.dreg y rn = reg40 out ∧ out.toInt = n ∧ AluFlagsAre t y (decide (n = 0)) false (decide (n < 0)) false false false true ∧
    t.stky y = s.stky y ||| (if 0 < |r| ∧ |r| < 1 then 0x1#32 else 0#32)

theorem fixDelivers_of_resultIn {s t : State} {y : Bool} {rn : RegNo} {n : Int} {r : ℚ} {small : Bool}
    (hn : -2 ^ 31 ≤ n ∧ n < 2 ^ 31) (hsmall : small = true ↔ 0 < |r| ∧ |r| < 1)
    (h : ResultIn s t y rn
      { value := reg40 (BitVec.ofInt 32 n)
        flags := { az := BitVec.ofInt 32 n == 0#32, an := (BitVec.ofInt 32 n).msb, af := true }, sticky := { aus := small } }) :
    FixDelivers s t y rn n r := by
  have hint : (BitVec.ofInt 32 n).toInt = n := by rw [BitVec.toInt_ofInt, Int.bmod_def]; omega
  have hzero : (BitVec.ofInt 32 n == 0#32) = decide (n = 0) := by
    rw [beq_eq_decide, decide_eq_decide, ← BitVec.toInt_inj, hint, BitVec.toInt_zero]
  obtain ⟨hval, hflags, hstky⟩ := h
  dsimp only at hval hflags hstky
  rw [hzero, BitVec.msb_eq_toInt, hint] at hflags
  rw [Sticky.apply_aus] at hstky
  unfold FixDelivers
  rw [fx_of_dreg hval]
  refine ⟨hval, hint, hflags, hstky.trans ?_⟩
  simp only [hsmall]

/-- The significand of an operand, small enough for the shortcut of `roundInt`. -/
def Fl.Small : Fl → Prop
  | .num _ m _ => m ≠ 0 ∧ m < 2 ^ 63
  | _ => True

theorem Fl.small_scale {x : Fl} (h : x.Small) (k : Int) : (x.scale k).Small := by cases x <;> exact h

section
variable {s t : State} {y : Bool} {rn : RegNo} {dir : Dir} {early : Bool → Nat → Int → Bool} {ovf : ℚ → Prop} {x : Fl} {r : ℚ}
  (hx : x.value = some r)
  (hearly : ∀ g m e, m ≠ 0 → (early g m e = true ↔ ovf (signed g (m * (2 : ℚ) ^ e))))
  (h : ResultIn s t y rn (s.toFixed dir early x))
include hx hearly h

theorem toFixed_overflow (hsmall : x.Small) (h0 : ¬ ovf 0) (hr : ovf r) : FixOverflows s t y rn (decide (r < 0)) := by
  cases x with
  | nan | inf => exact absurd hx nofun
  | zero => exact absurd (Option.some_inj.1 hx ▸ hr) h0
  | num g m e =>
    obtain ⟨hm, -⟩ := hsmall
    obtain rfl := Option.some_inj.1 hx
    rw [State.toFixed, if_pos ((hearly g m e hm).2 hr)] at h
    rw [signed_lt_zero (num_pos hm e)]
    exact fixOverflows_of_resultIn h

/-- A value within the range: the rounded integer, which overflows at 2^31 alone. -/
theorem toFixed_rounds (hsmall : x.Small) (hr : ¬ ovf r) (hle : |r| ≤ 2 ^ 31) {n : Int} (hn : dir.Rounds n r) :
    if n = 2 ^ 31 then FixOverflows s t y rn false else FixDelivers s t y rn n r := by
  cases x with
  | nan | inf => exact absurd hx nofun
  | zero =>
    obtain rfl := Option.some_inj.1 hx
    obtain rfl : n = 0 := dir.rounds_unique hn (by exact_mod_cast dir.rounds_intCast 0)
    rw [if_neg (by decide)]
    exact fixDelivers_of_resultIn (small := false) (by decide) (by simp) h
  | num g m e =>
    obtain ⟨hm, hlt⟩ := hsmall
    obtain rfl := Option.some_inj.1 hx
    have hpos := num_pos hm e
    have hn' : (roundInt dir g m e).1 = n := dir.rounds_unique (roundInt_rounds hlt) hn
    have hnear := abs_lt.1 (Dir.rounds_near hn)
    have hrange := abs_le.1 hle
    have hlo : -2 ^ 31 - 1 < n := by exact_mod_cast (by linarith : (-2 ^ 31 - 1 : ℚ) < n)
    have hhi : n < 2 ^ 31 + 1 := by exact_mod_cast (by linarith : (n : ℚ) < 2 ^ 31 + 1)
    rw [State.toFixed, if_neg (mt (hearly g m e hm).1 hr)] at h
    dsimp only at h
    rw [hn'] at h
    split
    case isTrue htop =>
      have hg : g = false := by
        rw [← signed_lt_zero (s := g) hpos, decide_eq_false_iff_not, not_lt]
        rw [htop] at hnear
        push_cast at hnear
        linarith
      rw [if_pos (by omega), hg] at h
      exact fixOverflows_of_resultIn h
    case isFalse htop =>
      rw [if_neg (by omega)] at h
      refine fixDelivers_of_resultIn (by omega) ?_ h
      rw [roundInt_small hm hlt, abs_signed g hpos.le]
      exact ⟨fun h => ⟨hpos, h⟩, And.right⟩

end

/-- An instruction that converts one scaled number on each element is a conversion row (R803, R854). -/
theorem fixRow_of_toFixed {i : Instr} {s : State} {rn : RegNo} {dir : Dir} {early : Bool → Nat → Int → Bool} {op : Bool → Fl}
    {val : Bool → Option ℚ} {k : Bool → Int} {ovf : ℚ → Prop} {rounds : Int → ℚ → Prop} {r : Bool → AluRes}
    (hexec : exec i s = .next (s.runAlone fun y => (r y).to rn)) (hr : ∀ y, r y = s.toFixed dir early ((op y).scale (k y)))
    (hval : ∀ y, (op y).value = val y) (hsmall : ∀ y, (op y).Small) (h0 : ¬ ovf 0)
    (hearly : ∀ g m e, m ≠ 0 → (early g m e = true ↔ ovf (signed g (m * (2 : ℚ) ^ e)))) (hle : ∀ r, ¬ ovf r → |r| ≤ 2 ^ 31)
    (hrounds : ∀ n q, rounds n q ↔ dir.Rounds n q) :
    FixRow i s rn (fun y => (op y).isNan = true) op val k ovf rounds := by
  refine fltRow_of_resultIn hexec (fun y => hr y ▸ toFixed_isFloat _ _ _ _) (fun y hnan => ?_) fun t y _ h => ?_
  · rw [hr]
    cases hop : op y with
    | nan => rfl
    | inf | zero | num => rw [hop] at hnan; exact absurd hnan nofun
  rw [hr] at h
  refine ⟨fun g hg => ?_, fun p hp => ⟨fun hover => ?_, fun hin n hn => ?_⟩⟩
  · rw [hg] at h
    exact fixOverflows_of_resultIn h
  · exact toFixed_overflow (Fl.value_scale ((hval y).trans hp) (k y)) hearly h (Fl.small_scale (hsmall y) _) h0 hover
  · exact toFixed_rounds (Fl.value_scale ((hval y).trans hp) (k y)) hearly h (Fl.small_scale (hsmall y) _) hin (hle _ hin)
      ((hrounds _ _).1 hn)

/-! ### 32- and 40-bit operands -/

/-- The test before rounding: the exponent is above 30 where the magnitude reaches 2^31 (R803). -/
theorem early40_iff (g : Bool) {m : Nat} (e : Int) (hm : m ≠ 0) :
    early40 g m e = true ↔ overFlt (signed g (m * (2 : ℚ) ^ e)) := by
  obtain ⟨hlo, hhi⟩ := num_binade hm e
  have hpow : (2 : ℚ) ^ 31 = (2 : ℚ) ^ (31 : ℤ) := by norm_cast
  rw [early40, decide_eq_true_eq, overFlt, abs_signed g (num_pos hm e).le, hpow]
  refine ⟨fun h => (zpow_le_zpow_right₀ one_le_two (by omega)).trans hlo, fun h => ?_⟩
  have := (zpow_lt_zpow_iff_right₀ (one_lt_two (α := ℚ))).1 (h.trans_lt hhi)
  omega

theorem small_fl (s : State) (y : Bool) (n : RegNo) : (s.fl y n).Small := by
  have hfr := fmt40.fraction_lt (s.fin y n)
  unfold State.fl Fmt.classify
  dsimp only
  split
  · split <;> trivial
  · split
    · trivial
    · change _ < 2 ^ 31 at hfr
      change 2 ^ 31 + _ ≠ 0 ∧ 2 ^ 31 + _ < 2 ^ 63
      omega

/-- A conversion of a 32- or 40-bit operand. -/
theorem fixRow_flt {i : Instr} {s : State} {rn rx : RegNo} {dir : Dir} {k : Bool → Int} {rounds : Int → ℚ → Prop}
    {r : Bool → AluRes} (hexec : exec i s = .next (s.runAlone fun y => (r y).to rn))
    (hr : ∀ y, r y = s.toFixed dir early40 ((s.fl y rx).scale (k y))) (hrounds : ∀ n q, rounds n q ↔ dir.Rounds n q) :
    FixRow i s rn (fun y => s.nanF y rx) (fun y => s.fl y rx) (fun y => fmt40.value (s.fin y rx)) k overFlt rounds :=
  fixRow_of_toFixed hexec hr (fun y => value_fl s y rx) (fun y => small_fl s y rx) (by simp [overFlt])
    (fun g _ e hm => early40_iff g e hm) (fun _ h => (not_le.1 h).le) hrounds

/-- Settles O7: every form converts its scaled operand, FIX in the direction of MODE1, TRUNC toward zero. -/
theorem floatToFixed : Obligations.FloatToFixed := fun s _ rx _ =>
  ⟨fixRow_flt rfl (fun y => by rw [Fl.scale_zero]; rfl) (fixDirection_iff s),
    fixRow_flt rfl (fun _ => rfl) (fixDirection_iff s),
    fixRow_flt rfl (fun y => by rw [Fl.scale_zero]; rfl) (fun _ _ => Iff.rfl),
    fixRow_flt rfl (fun _ => rfl) (fun _ _ => Iff.rfl)⟩

end Sys2Proof.Machine
end

section
/-! PROOFS. MANT, LOGB and the seeds RECIPS and RSQRTS (R782, R786, R801, R802, R810, R811). -/

namespace Sys2Proof.Machine

open Sys2Proof

/-! ### Classes of operands -/

section
variable {s : State} {y : Bool} {n : RegNo}

theorem fl_nan (h : s.nanF y n) : s.fl y n = .nan (fmt40.sign (s.fin y n)) := by
  rw [← sign_fl]
  cases hx : s.fl y n with
  | nan => rfl
  | inf | zero | num => rw [State.nanF, hx] at h; exact absurd h nofun

theorem fl_inf (h : ¬ s.nanF y n) (he : fmt40.exp (s.fin y n) = 255) : s.fl y n = .inf (fmt40.sign (s.fin y n)) := by
  have hfr : fmt40.fraction (s.fin y n) = 0 := by
    by_contra hfr
    exact h ((fmt40.isNan_classify _).2 ⟨he, hfr⟩)
  have hmax : fmt40.exp (s.fin y n) = 2 ^ fmt40.ebits - 1 := he
  rw [State.fl, Fmt.classify, if_pos hmax, if_pos hfr]

theorem fl_zero (he : fmt40.exp (s.fin y n) = 0) : s.fl y n = .zero (fmt40.sign (s.fin y n)) := by
  rw [State.fl, Fmt.classify, he]; rfl

theorem fl_normal (he : 1 ≤ fmt40.exp (s.fin y n) ∧ fmt40.exp (s.fin y n) ≤ 254) :
    s.fl y n = .num (fmt40.sign (s.fin y n)) (2 ^ 31 + fmt40.fraction (s.fin y n)) (fmt40.exp (s.fin y n) - 127 - 31) := by
  have hmax : fmt40.exp (s.fin y n) ≠ 2 ^ fmt40.ebits - 1 := by change _ ≠ 255; omega
  rw [State.fl, Fmt.classify, if_neg hmax, if_neg (by omega)]
  rfl

theorem value_normal {p : ℚ} (he : 1 ≤ fmt40.exp (s.fin y n) ∧ fmt40.exp (s.fin y n) ≤ 254)
    (hp : fmt40.value (s.fin y n) = some p) :
    signed (fmt40.sign (s.fin y n))
      (((2 ^ 31 + fmt40.fraction (s.fin y n) : Nat) : ℚ) * (2 : ℚ) ^ ((fmt40.exp (s.fin y n) : ℤ) - 127 - 31)) = p := by
  rw [← value_fl, fl_normal he] at hp
  exact Option.some_inj.1 hp

theorem exp_of_nan (h : s.nanF y n) : fmt40.exp (s.fin y n) = 255 := ((fmt40.isNan_classify _).1 h).1

end

/-! ### MANT (R801) -/

section
variable {s t : State} {y : Bool} {rn rx : RegNo}

theorem fltMant_isFloat (s : State) (y : Bool) (rx : RegNo) : (s.fltMant y rx).IsFloat := by
  unfold State.fltMant
  dsimp only
  split <;> exact ⟨rfl, Sticky.alu_frame _ _ _ _⟩

/-- A significand with its leading bit, as a 32-bit fraction. -/
theorem reg40_significand (v : Nat) :
    reg40 (BitVec.ofNat 32 (2 ^ 31 + fmt40.fraction v)) = 1#1 ++ BitVec.ofNat 31 v ++ 0#8 := by
  have hword : BitVec.ofNat 32 (2 ^ 31 + fmt40.fraction v) = 1#1 ++ BitVec.ofNat 31 v := by
    have hfr : v % 2 ^ 31 < 2 ^ 31 := Nat.mod_lt _ (by decide)
    apply BitVec.eq_of_toNat_eq
    have hor : 1 <<< 31 ||| v % 2 ^ 31 = 1 <<< 31 + v % 2 ^ 31 := (Nat.shiftLeft_add_eq_or_of_lt hfr 1).symm
    rw [BitVec.toNat_append, BitVec.toNat_ofNat, Fmt.fraction,
      show (BitVec.ofNat 31 v).toNat = v % 2 ^ 31 from BitVec.toNat_ofNat ..,
      show (1#1).toNat = 1 from rfl, hor, Nat.shiftLeft_eq]
    simp only [fmt40]
    omega
  rw [hword]
  rfl

variable (h : ResultIn s t y rn (s.fltMant y rx))
include h

theorem mant_normal (he : 1 ≤ fmt40.exp (s.fin y rx) ∧ fmt40.exp (s.fin y rx) ≤ 254) :
    t.dreg y rn = 1#1 ++ (BitVec.ofNat 31 (s.fin y rx)) ++ 0#8 ∧
      AluFlagsAre t y false false false false (fmt40.sign (s.fin y rx)) false true ∧ t.stky y = s.stky y := by
  rw [State.fltMant, fl_normal he] at h
  obtain ⟨hval, hflags, hstky⟩ := h
  exact ⟨hval.trans (reg40_significand _), hflags, hstky.trans (Sticky.apply_none _)⟩

theorem mant_zero (he : fmt40.exp (s.fin y rx) = 0) :
    t.dreg y rn = 0#40 ∧ AluFlagsAre t y true false false false (fmt40.sign (s.fin y rx)) false true ∧ t.stky y = s.stky y := by
  rw [State.fltMant, fl_zero he] at h
  obtain ⟨hval, hflags, hstky⟩ := h
  exact ⟨hval, hflags, hstky.trans (Sticky.apply_none _)⟩

theorem mant_inf (hnan : ¬ s.nanF y rx) (he : fmt40.exp (s.fin y rx) = 255) :
    t.dreg y rn = s.all1 ∧ AluFlagsAre t y false true false false (fmt40.sign (s.fin y rx)) false true ∧
      t.stky y = s.stky y ||| 0x2#32 := by
  rw [State.fltMant, fl_inf hnan he] at h
  obtain ⟨hval, hflags, hstky⟩ := h
  exact ⟨hval, hflags, hstky.trans (Sticky.apply_avs true _)⟩

end

/-! ### LOGB (R802) -/

section
variable {s t : State} {y : Bool} {rn rx : RegNo}

theorem fltLogb_isFloat (s : State) (y : Bool) (rx : RegNo) : (s.fltLogb y rx).IsFloat := by
  unfold State.fltLogb
  dsimp only
  split
  · exact s.invalidRes_isFloat true false
  all_goals exact ⟨rfl, Sticky.alu_frame _ _ _ _⟩

variable (h : ResultIn s t y rn (s.fltLogb y rx))
include h

theorem logb_normal (he : 1 ≤ fmt40.exp (s.fin y rx) ∧ fmt40.exp (s.fin y rx) ≤ 254) :
    (t.fx y rn).toInt = (fmt40.exp (s.fin y rx) : Int) - 127 ∧ t.dreg y rn = reg40 (t.fx y rn) ∧
      AluFlagsAre t y (decide (fmt40.exp (s.fin y rx) = 127)) false (decide (fmt40.exp (s.fin y rx) < 127)) false false false
        true ∧ t.stky y = s.stky y := by
  rw [State.fltLogb, fl_normal he] at h
  obtain ⟨hval, hint, hflags, hstky⟩ := fixDelivers_of_resultIn (r := 0) (small := false) (by omega) (by simp) h
  have hzero : (fmt40.exp (s.fin y rx) : Int) - 127 = 0 ↔ fmt40.exp (s.fin y rx) = 127 := by omega
  have hneg : (fmt40.exp (s.fin y rx) : Int) - 127 < 0 ↔ fmt40.exp (s.fin y rx) < 127 := by omega
  rw [decide_eq_decide.2 hzero, decide_eq_decide.2 hneg] at hflags
  exact ⟨hint, hval, hflags, by simpa using hstky⟩

theorem logb_zero (he : fmt40.exp (s.fin y rx) = 0) :
    t.dreg y rn = (if s.mode .alusat then 0x8000000000#40 else 0xFF80000000#40) ∧
      AluFlagsAre t y false true true false false false true ∧ t.stky y = s.stky y ||| 0x2#32 := by
  rw [State.fltLogb, fl_zero he] at h
  obtain ⟨hval, hflags, hstky⟩ := h
  refine ⟨hval, ?_, hstky.trans (Sticky.apply_avs true _)⟩
  dsimp only at hflags
  rwa [show (if s.alusat then 0x8000000000#40 else 0xFF80000000#40 : Reg40).msb = true by split <;> rfl] at hflags

theorem logb_inf (hnan : ¬ s.nanF y rx) (he : fmt40.exp (s.fin y rx) = 255) :
    t.dreg y rn = (if s.mode .alusat then 0x7FFFFFFF00#40 else 0x7F80000000#40) ∧
      AluFlagsAre t y false true false false false false true ∧ t.stky y = s.stky y ||| 0x2#32 := by
  rw [State.fltLogb, fl_inf hnan he] at h
  obtain ⟨hval, hflags, hstky⟩ := h
  refine ⟨hval, ?_, hstky.trans (Sticky.apply_avs true _)⟩
  dsimp only at hflags
  rwa [show (if s.alusat then 0x7FFFFFFF00#40 else 0x7F80000000#40 : Reg40).msb = false by split <;> rfl] at hflags

end

/-! ### Seeds (R782) -/

theorem seed_lt (s : State) (f : BitVec 31) : s.seed f < 2 ^ 31 := BitVec.isLt _

theorem seed_of_rnd40 {s : State} (h : s.mode .rnd32 = false) (f : BitVec 31) : s.seed f = f.toNat := by
  rw [State.seed, h]; rfl

theorem seed_mod_256 {s : State} (h : s.mode .rnd32 = true) (f : BitVec 31) : s.seed f % 256 = 0 := by
  rw [State.seed, if_pos h, BitVec.toNat_and, show 256 = 2 ^ 8 from rfl, Nat.and_mod_two_pow]
  exact Nat.and_zero _

/-- A seed as a pattern: its fields, its boundary and its value. -/
structure IsSeed (s : State) (v : Reg40) (neg : Bool) (e : Nat) (f : BitVec 31) : Prop where
  sign : fmt40.sign v.toNat = neg
  exp : fmt40.exp v.toNat = e
  boundary : s.inBoundary v
  value : s.mode .rnd32 = false →
    fmt40.value v.toNat = some (signed neg (((2 ^ 31 + f.toNat : Nat) : ℚ) * (2 : ℚ) ^ ((e : ℤ) - 127 - 31)))

theorem isSeed_encode (s : State) (neg : Bool) {e : Nat} (h1 : 1 ≤ e) (h2 : e ≤ 254) (f : BitVec 31) :
    IsSeed s (BitVec.ofNat 40 (fmt40.encode neg e (s.seed f))) neg e f := by
  have he : e < 2 ^ fmt40.ebits := by change e < 256; omega
  have hnat := toNat_ofNat_encode neg he (seed_lt s f)
  refine ⟨?_, ?_, fun hr => ?_, fun hr => ?_⟩
  · rw [hnat, Fmt.sign_encode _ _ he (seed_lt s f)]
  · rw [hnat, Fmt.exp_encode _ _ he (seed_lt s f)]
  · apply BitVec.eq_of_toNat_eq
    have hmod := seed_mod_256 hr f
    rw [BitVec.toNat_and, hnat, show (0xFF#40).toNat = 2 ^ 8 - 1 from rfl, Nat.and_two_pow_sub_one_eq_mod, BitVec.toNat_zero]
    change ((neg.toNat * 256 + e) * 2147483648 + s.seed f) % 256 = 0
    omega
  · have hfr := seed_lt s f
    rw [seed_of_rnd40 hr] at hnat hfr
    rw [seed_of_rnd40 hr, hnat]
    exact Fmt.value_encode neg h1 (by change e + 2 ≤ 256; omega) hfr

/-! ### RECIPS (R810) -/

/-- Within 2^55 of 2^63 is within 2^-8 of 1. -/
theorem abs_scaled_sub_one_le {w : Nat} (hlo : 255 * 2 ^ 55 ≤ w) (hhi : w ≤ 257 * 2 ^ 55) :
    |(w : ℚ) * (2 : ℚ) ^ (-63 : ℤ) - 1| ≤ 1 / 2 ^ 8 := by
  have hlo' : (255 * 2 ^ 55 : ℚ) ≤ w := by exact_mod_cast hlo
  have hhi' : (w : ℚ) ≤ 257 * 2 ^ 55 := by exact_mod_cast hhi
  have hpow : (2 : ℚ) ^ (-63 : ℤ) = 1 / (2 ^ 55 * 2 ^ 8) := by norm_num
  rw [hpow, abs_le]
  constructor <;> linarith

/-- A reciprocal seed times its operand, in units of 2^-63. -/
theorem recips_product {fr : Nat} (hfr : fr < 2 ^ 31) :
    let m := 2 ^ 31 + (Config.recipsRom (BitVec.ofNat 7 (fr / 2 ^ 24))).toNat
    255 * 2 ^ 55 ≤ m * (2 ^ 31 + fr) ∧ m * (2 ^ 31 + fr) ≤ 257 * 2 ^ 55 := by
  have hbin : (128 + fr / 2 ^ 24) * 2 ^ 24 ≤ 2 ^ 31 + fr ∧ 2 ^ 31 + fr ≤ (129 + fr / 2 ^ 24) * 2 ^ 24 := by omega
  have hrom := Config.recipsRom_accurate (BitVec.ofNat 7 (fr / 2 ^ 24))
  have hk : (BitVec.ofNat 7 (fr / 2 ^ 24)).toNat = fr / 2 ^ 24 := by rw [BitVec.toNat_ofNat]; omega
  simp only [Config.recipsAccurate, hk, decide_eq_true_eq] at hrom
  intro m
  obtain ⟨hlo, hhi⟩ := hrom
  constructor
  · calc 255 * 2 ^ 55 = (2 ^ 39 - 2 ^ 31) * 2 ^ 24 := by norm_num
      _ ≤ m * (128 + fr / 2 ^ 24) * 2 ^ 24 := Nat.mul_le_mul_right _ hlo
      _ ≤ m * (2 ^ 31 + fr) := by rw [Nat.mul_assoc]; exact Nat.mul_le_mul_left _ hbin.1
  · calc m * (2 ^ 31 + fr) ≤ m * (129 + fr / 2 ^ 24) * 2 ^ 24 := by rw [Nat.mul_assoc]; exact Nat.mul_le_mul_left _ hbin.2
      _ ≤ (2 ^ 39 + 2 ^ 31) * 2 ^ 24 := Nat.mul_le_mul_right _ hhi
      _ = 257 * 2 ^ 55 := by norm_num

section
variable {s t : State} {y : Bool} {rn rx : RegNo}

theorem fltRecips_isFloat (s : State) (y : Bool) (rx : RegNo) : (s.fltRecips y rx).IsFloat := by
  unfold State.fltRecips
  dsimp only
  (repeat' split) <;> exact ⟨rfl, Sticky.alu_frame _ _ _ _⟩

theorem recips_normal (he : 1 ≤ fmt40.exp (s.fin y rx) ∧ fmt40.exp (s.fin y rx) ≤ 252)
    (h : ResultIn s t y rn (s.fltRecips y rx)) :
    fmt40.sign (t.dreg y rn).toNat = fmt40.sign (s.fin y rx) ∧ fmt40.exp (t.dreg y rn).toNat = 253 - fmt40.exp (s.fin y rx) ∧
      AluFlagsAre t y false false (fmt40.sign (s.fin y rx)) false false false true ∧ t.stky y = s.stky y ∧
      s.inBoundary (t.dreg y rn) ∧
      ∀ p z, fmt40.value (s.fin y rx) = some p → fmt40.value (t.dreg y rn).toNat = some z → s.mode .rnd32 = false →
        |z * p - 1| ≤ 1 / 2 ^ 8 := by
  have hnan : ¬ s.nanF y rx := fun hnan => by have := exp_of_nan hnan; omega
  rw [State.fltRecips] at h
  dsimp only at h
  rw [if_neg hnan, if_neg (by omega), if_neg (by omega)] at h
  obtain ⟨hval, hflags, hstky⟩ := h
  have hseed := isSeed_encode s (fmt40.sign (s.fin y rx)) (e := 253 - fmt40.exp (s.fin y rx)) (by omega) (by omega)
    (Config.recipsRom (BitVec.ofNat 7 (fmt40.fraction (s.fin y rx) / 2 ^ 24)))
  dsimp only at hval
  rw [← hval] at hseed
  refine ⟨hseed.sign, hseed.exp, hflags, hstky.trans (Sticky.apply_none _), hseed.boundary, fun p z hp hz hr => ?_⟩
  obtain rfl := Option.some_inj.1 ((hseed.value hr).symm.trans hz)
  obtain rfl := value_normal (by omega) hp
  obtain ⟨hlo, hhi⟩ := recips_product (fmt40.fraction_lt (s.fin y rx))
  rw [signed_mul, Bool.xor_self, signed_false, mul_mul_mul_comm, ← zpow_add₀ two_ne_zero, ← Nat.cast_mul,
    show ((253 - fmt40.exp (s.fin y rx) : Nat) : ℤ) - 127 - 31 + ((fmt40.exp (s.fin y rx) : ℤ) - 127 - 31) = -63 by omega]
  exact abs_scaled_sub_one_le hlo hhi

theorem recips_big (hnan : ¬ s.nanF y rx) (he : 253 ≤ fmt40.exp (s.fin y rx)) (h : ResultIn s t y rn (s.fltRecips y rx)) :
    t.dreg y rn = fltZero (fmt40.sign (s.fin y rx)) ∧
      AluFlagsAre t y true false (fmt40.sign (s.fin y rx)) false false false true ∧ t.stky y = s.stky y ||| 0x1#32 := by
  rw [State.fltRecips] at h
  dsimp only at h
  rw [if_neg hnan, if_neg (by omega), if_pos (by omega)] at h
  obtain ⟨hval, hflags, hstky⟩ := h
  exact ⟨hval.trans (by rw [← toNat_fltZero, BitVec.ofNat_toNat, BitVec.setWidth_eq]), hflags,
    hstky.trans (Sticky.apply_aus true _)⟩

theorem recips_zero (he : fmt40.exp (s.fin y rx) = 0) (h : ResultIn s t y rn (s.fltRecips y rx)) :
    t.dreg y rn = fltInf (fmt40.sign (s.fin y rx)) ∧
      AluFlagsAre t y false true (fmt40.sign (s.fin y rx)) false false false true ∧ t.stky y = s.stky y ||| 0x2#32 := by
  have hnan : ¬ s.nanF y rx := fun hnan => by have := exp_of_nan hnan; omega
  rw [State.fltRecips] at h
  dsimp only at h
  rw [if_neg hnan, if_pos he] at h
  obtain ⟨hval, hflags, hstky⟩ := h
  exact ⟨hval.trans (by rw [← toNat_fltInf, BitVec.ofNat_toNat, BitVec.setWidth_eq]), hflags,
    hstky.trans (Sticky.apply_avs true _)⟩

end

/-! ### RSQRTS (R811) -/

/-- The exponents of a squared seed and its operand add up to -95, or to -94 for an odd exponent. -/
theorem rsqrts_scale (m p : Nat) {e x : Nat} (he : (e : Int) = 126 - ((x : Int) - 127) / 2) :
    ((m : ℚ) * (2 : ℚ) ^ ((e : ℤ) - 127 - 31)) ^ 2 * ((p : ℚ) * (2 : ℚ) ^ ((x : ℤ) - 127 - 31)) =
      ((m * m * (if x % 2 = 1 then 1 else 2) * p : Nat) : ℚ) * (2 : ℚ) ^ (-95 : ℤ) := by
  have hpow : ((2 : ℚ) ^ ((e : ℤ) - 127 - 31)) ^ 2 * (2 : ℚ) ^ ((x : ℤ) - 127 - 31) =
      ((if x % 2 = 1 then 1 else 2 : Nat) : ℚ) * (2 : ℚ) ^ (-95 : ℤ) := by
    rw [pow_two, ← zpow_add₀ two_ne_zero, ← zpow_add₀ two_ne_zero]
    split
    case isTrue hodd => rw [Nat.cast_one, one_mul]; congr 1; omega
    case isFalse heven => rw [Nat.cast_two, ← zpow_one_add₀ two_ne_zero]; congr 1; omega
  rw [mul_pow, mul_mul_mul_comm, hpow]
  push_cast
  ring

theorem scaled_within {w : Nat} (hlo : 225 * 2 ^ 87 ≤ w) (hhi : w ≤ 289 * 2 ^ 87) :
    (15 / 16 : ℚ) ^ 2 ≤ w * (2 : ℚ) ^ (-95 : ℤ) ∧ w * (2 : ℚ) ^ (-95 : ℤ) ≤ (17 / 16) ^ 2 := by
  have hlo' : (225 * 2 ^ 87 : ℚ) ≤ w := by exact_mod_cast hlo
  have hhi' : (w : ℚ) ≤ 289 * 2 ^ 87 := by exact_mod_cast hhi
  have hpow : (2 : ℚ) ^ (-95 : ℤ) = 1 / (2 ^ 87 * 256) := by norm_num
  rw [hpow]
  constructor <;> linarith

/-- The square of a seed times its operand, in units of 2^-95; `e` tells an even from an odd exponent. -/
theorem rsqrts_product {e fr : Nat} (hfr : fr < 2 ^ 31) :
    let m := 2 ^ 31 + (Config.rsqrtsRom (BitVec.ofNat 7 (e % 2 * 64 + fr / 2 ^ 25))).toNat
    let z := if e % 2 = 1 then 1 else 2
    225 * 2 ^ 87 ≤ m * m * z * (2 ^ 31 + fr) ∧ m * m * z * (2 ^ 31 + fr) ≤ 289 * 2 ^ 87 := by
  have hbin : (64 + fr / 2 ^ 25) * 2 ^ 25 ≤ 2 ^ 31 + fr ∧ 2 ^ 31 + fr ≤ (65 + fr / 2 ^ 25) * 2 ^ 25 := by omega
  have hrom := Config.rsqrtsRom_accurate (BitVec.ofNat 7 (e % 2 * 64 + fr / 2 ^ 25))
  have hk : (BitVec.ofNat 7 (e % 2 * 64 + fr / 2 ^ 25)).toNat = e % 2 * 64 + fr / 2 ^ 25 := by rw [BitVec.toNat_ofNat]; omega
  have hbit : (BitVec.ofNat 7 (e % 2 * 64 + fr / 2 ^ 25)).getLsbD 6 = decide (e % 2 = 1) := by
    rw [BitVec.getLsbD, hk, Nat.testBit_eq_decide_div_mod_eq, decide_eq_decide]
    omega
  have hlow : ((BitVec.ofNat 7 (e % 2 * 64 + fr / 2 ^ 25)).extractLsb' 0 6).toNat = fr / 2 ^ 25 := by
    rw [BitVec.extractLsb'_toNat, hk, Nat.shiftRight_zero]
    omega
  simp only [Config.rsqrtsAccurate, hbit, hlow, decide_eq_true_eq] at hrom
  intro m z
  obtain ⟨hlo, hhi⟩ := hrom
  constructor
  · calc 225 * 2 ^ 87 = 225 * 2 ^ 62 * 2 ^ 25 := by norm_num
      _ ≤ m * m * z * (64 + fr / 2 ^ 25) * 2 ^ 25 := Nat.mul_le_mul_right _ hlo
      _ ≤ m * m * z * (2 ^ 31 + fr) := by rw [Nat.mul_assoc (m * m * z)]; exact Nat.mul_le_mul_left _ hbin.1
  · calc m * m * z * (2 ^ 31 + fr) ≤ m * m * z * (65 + fr / 2 ^ 25) * 2 ^ 25 := by
          rw [Nat.mul_assoc (m * m * z)]; exact Nat.mul_le_mul_left _ hbin.2
      _ ≤ 289 * 2 ^ 62 * 2 ^ 25 := Nat.mul_le_mul_right _ hhi
      _ = 289 * 2 ^ 87 := by norm_num

section
variable {s t : State} {y : Bool} {rn rx : RegNo}

theorem fltRsqrts_isFloat (s : State) (y : Bool) (rx : RegNo) : (s.fltRsqrts y rx).IsFloat := by
  unfold State.fltRsqrts
  dsimp only
  (repeat' split) <;> exact ⟨rfl, Sticky.alu_frame _ _ _ _⟩

/-- RSQRTS is invalid for a NAN and for a negative number (D40). -/
theorem rsqrts_invalid_iff :
    ((s.fl y rx).isNan || (fmt40.sign (s.fin y rx) && fmt40.exp (s.fin y rx) != 0)) = true ↔
      s.nanF y rx ∨ (fmt40.sign (s.fin y rx) = true ∧ fmt40.exp (s.fin y rx) ≠ 0) := by
  rw [Bool.or_eq_true, Bool.and_eq_true, bne_iff_ne]

variable (hvalid : ¬ (s.nanF y rx ∨ (fmt40.sign (s.fin y rx) = true ∧ fmt40.exp (s.fin y rx) ≠ 0)))
  (h : ResultIn s t y rn (s.fltRsqrts y rx))
include hvalid h

theorem rsqrts_normal (he : 1 ≤ fmt40.exp (s.fin y rx) ∧ fmt40.exp (s.fin y rx) ≤ 254) :
    fmt40.sign (t.dreg y rn).toNat = false ∧
      (fmt40.exp (t.dreg y rn).toNat : Int) = 126 - ((fmt40.exp (s.fin y rx) : Int) - 127) / 2 ∧
      AluFlagsAre t y false false false false false false true ∧ t.stky y = s.stky y ∧ s.inBoundary (t.dreg y rn) ∧
      ∀ p z, fmt40.value (s.fin y rx) = some p → fmt40.value (t.dreg y rn).toNat = some z → s.mode .rnd32 = false →
        (15 / 16) ^ 2 ≤ z ^ 2 * p ∧ z ^ 2 * p ≤ (17 / 16) ^ 2 := by
  have hpos : fmt40.sign (s.fin y rx) = false := Bool.eq_false_iff.2 fun hneg => hvalid (.inr ⟨hneg, by omega⟩)
  rw [State.fltRsqrts] at h
  rw [if_neg (mt rsqrts_invalid_iff.1 hvalid), if_neg (by omega), if_neg (by omega)] at h
  obtain ⟨hval, hflags, hstky⟩ := h
  obtain ⟨e, hexp⟩ : ∃ e : Nat, (126 - ((fmt40.exp (s.fin y rx) : Int) - 127) / 2).toNat = e := ⟨_, rfl⟩
  dsimp only at hval
  rw [hexp] at hval
  have hseed := isSeed_encode s false (e := e) (by omega) (by omega)
    (Config.rsqrtsRom (BitVec.ofNat 7 (fmt40.exp (s.fin y rx) % 2 * 64 + fmt40.fraction (s.fin y rx) / 2 ^ 25)))
  rw [← hval] at hseed
  refine ⟨hseed.sign, by rw [hseed.exp]; omega, hflags, hstky.trans (Sticky.apply_none _), hseed.boundary,
    fun p z hp hz hr => ?_⟩
  obtain rfl := Option.some_inj.1 ((hseed.value hr).symm.trans hz)
  obtain rfl := value_normal he hp
  obtain ⟨hlo, hhi⟩ := rsqrts_product (e := fmt40.exp (s.fin y rx)) (fmt40.fraction_lt (s.fin y rx))
  rw [hpos, signed_false, signed_false, rsqrts_scale _ _ (by omega)]
  exact scaled_within hlo hhi

theorem rsqrts_zero (he : fmt40.exp (s.fin y rx) = 0) :
    t.dreg y rn = fltInf (fmt40.sign (s.fin y rx)) ∧
      AluFlagsAre t y false true (fmt40.sign (s.fin y rx)) false false false true ∧ t.stky y = s.stky y ||| 0x2#32 := by
  rw [State.fltRsqrts] at h
  rw [if_neg (mt rsqrts_invalid_iff.1 hvalid), if_pos he] at h
  obtain ⟨hval, hflags, hstky⟩ := h
  exact ⟨hval.trans (by rw [← toNat_fltInf, BitVec.ofNat_toNat, BitVec.setWidth_eq]), hflags,
    hstky.trans (Sticky.apply_avs true _)⟩

theorem rsqrts_inf (he : fmt40.exp (s.fin y rx) = 255) :
    t.dreg y rn = 0#40 ∧ AluFlagsAre t y true false false false false false true ∧ t.stky y = s.stky y := by
  rw [State.fltRsqrts] at h
  rw [if_neg (mt rsqrts_invalid_iff.1 hvalid), if_neg (by omega), if_pos he] at h
  obtain ⟨hval, hflags, hstky⟩ := h
  exact ⟨hval, hflags, hstky.trans (Sticky.apply_none _)⟩

end

/-- Settles O8: by the class of the operand; the accuracy of a seed from that of its table. -/
theorem floatParts : Obligations.FloatParts := by
  intro s rn rx
  refine ⟨fltRow_of_resultIn (r := fun y => s.fltMant y rx) rfl (fun y => fltMant_isFloat s y rx) (fun y hnan => ?_)
      fun t y hnan h => ⟨mant_normal h, mant_zero h, mant_inf h hnan⟩,
    fltRow_of_resultIn (r := fun y => s.fltLogb y rx) rfl (fun y => fltLogb_isFloat s y rx) (fun y hnan => ?_)
      fun t y hnan h => ⟨logb_normal h, logb_zero h, logb_inf h hnan⟩,
    fltRow_of_resultIn (r := fun y => s.fltRecips y rx) rfl (fun y => fltRecips_isFloat s y rx) (fun y hnan => ?_)
      fun t y hnan h => ⟨fun he => recips_normal he h, fun he => recips_big hnan he h, fun he => recips_zero he h⟩,
    fltRow_of_resultIn (r := fun y => s.fltRsqrts y rx) rfl (fun y => fltRsqrts_isFloat s y rx) (fun y hinv => ?_)
      fun t y hvalid h => ⟨rsqrts_normal hvalid h, rsqrts_zero hvalid h, rsqrts_inf hvalid h⟩⟩
  · rw [State.fltMant, fl_nan hnan]; rfl
  · rw [State.fltLogb, fl_nan hnan]; rfl
  · exact if_pos hnan
  · exact if_pos (rsqrts_invalid_iff.2 hinv)

end Sys2Proof.Machine
end

section
/-! PROOFS. Floating-point products (R784, R785, R908). -/

namespace Sys2Proof.Machine

open Sys2Proof

/-! ### One operation of the multiplier -/

/-- The sticky bits of a floating-point product stay within their mask. -/
theorem Sticky.mul_frame (v u i : Bool) :
    ({ mvs := v, mus := u, mis := i } : Sticky).apply 0#32 &&& ~~~0x380#32 = 0#32 := by
  cases v <;> cases u <;> cases i <;> decide

/-- A multiplier operation alone, with one result to a data register: its flags, its sticky bits, and nothing else. -/
theorem runAlone_mulReg {s : State} {n : RegNo} {f : Bool → PeOut} {v : Bool → Reg40} {flags : Bool → MulFlags}
    {k : Bool → Sticky} {sticky : Word} (hf : ∀ y, f y = { units := [[(n, v y)]], mul := some (flags y), sticky := k y })
    (hk : ∀ y, (k y).apply 0#32 &&& ~~~sticky = 0#32) :
    ComputeFrame s (s.runAlone f) [n] mulFlagMask sticky ∧ SameMr s (s.runAlone f) ∧ SameFifo s (s.runAlone f) ∧
      ∀ y, s.runs y = true →
        (s.runAlone f).dreg y n = v y ∧
        MulFlagsAre (s.runAlone f) y (flags y).mn (flags y).mv (flags y).mu (flags y).mi ∧
        (s.runAlone f).stky y = (k y).apply (s.stky y) := by
  refine ⟨runAlone_frame ?_ ?_ ?_, runAlone_sameMr fun y => by rw [hf], runAlone_sameFifo fun y => by rw [hf],
    fun y hy => ⟨?_, ?_, ?_⟩⟩
  · intro y u hu q hq
    rw [hf, List.mem_singleton] at hu
    subst hu
    rw [List.mem_singleton] at hq
    simp [hq]
  · intro y a
    rw [hf]
    exact MulFlags.apply_frame _ a
  · intro y a
    rw [hf]
    exact Sticky.apply_frame _ _ a (hk y)
  · exact runAlone_single (fun y => by rw [hf]) hy
  · unfold MulFlagsAre State.flagOf
    rw [runAlone_astat, if_pos hy, hf]
    exact MulFlags.apply_bits _ _
  · rw [runAlone_stky, if_pos hy, hf]

/-! ### The product of a format -/

/-- What a product `x`, rounded to `n` fraction bits, leaves in its element: `out` is the pattern of the result, `ones` the NAN
pattern of a sign. -/
structure ProductIn (s t : State) (y : Bool) (f : Fmt) (n out : Nat) (x : Fl) (ones : Bool → Nat) : Prop where
  nan : ∀ g, x = .nan g → out = ones g
  number : x.isNan = false → out = (f.round n s.trunc x).bits
  flags : MulFlagsAre t y (f.sign (f.round n s.trunc x).bits) (f.round n s.trunc x).ovf (f.round n s.trunc x).unf x.isNan
  stky : t.stky y = (fltMulSticky (f.round n s.trunc x) x).apply (s.stky y)

section
variable {s t : State} {y : Bool} {f : Fmt} {n out : Nat} {x : Fl} {ones : Bool → Nat} {r : ℚ} (hE : 0 < f.ebits)
  (h : ProductIn s t y f n out x ones)
include h

include hE in
theorem ProductIn.invalid {g : Bool} (hx : x = .nan g) :
    out = ones g ∧ MulFlagsAre t y g false false true ∧ t.stky y = s.stky y ||| 0x200#32 := by
  subst hx
  have hflags := h.flags
  rw [Fmt.sign_round_nan hE] at hflags
  exact ⟨h.nan g rfl, hflags, h.stky.trans (by simp [fltMulSticky, Fmt.round, Fl.isNan, Sticky.apply, flagBit])⟩

/-- A product delivered as it is. -/
theorem ProductIn.exact {v : Nat} (hx : x.isNan = false) (hround : f.round n s.trunc x = { bits := v }) :
    out = v ∧ MulFlagsAre t y (f.sign v) false false false ∧ t.stky y = s.stky y := by
  obtain ⟨-, hnum, hflags, hstky⟩ := h
  rw [hround, hx] at hflags
  rw [hround, fltMulSticky, hx] at hstky
  exact ⟨(hnum hx).trans (by rw [hround]), hflags, hstky.trans (Sticky.apply_none _)⟩

include hE in
theorem ProductIn.inf {g : Bool} (hx : x = .inf g) :
    out = f.infinity g ∧ MulFlagsAre t y g false false false ∧ t.stky y = s.stky y := by
  subst hx
  have hex := h.exact rfl rfl
  rwa [Fmt.sign_infinity hE] at hex

theorem ProductIn.zero {g : Bool} (hx : x = .zero g) :
    out = f.encode g 0 0 ∧ MulFlagsAre t y g false false false ∧ t.stky y = s.stky y := by
  subst hx
  have hex := h.exact rfl rfl
  rwa [Fmt.sign_encode f g (by positivity) (by positivity)] at hex

include hE in
theorem ProductIn.overflow (hn : n ≤ f.frac) (hx : x.value = some r) (hover : f.overflowsAt n s.trunc ≤ |r|) :
    out = f.overflowBits n s.trunc (decide (r < 0)) ∧ MulFlagsAre t y (decide (r < 0)) true false false ∧
      t.stky y = s.stky y ||| 0x80#32 := by
  have hnan := Fl.isNan_of_value hx
  obtain ⟨-, hnum, hflags, hstky⟩ := h
  rw [f.round_overflow hn hx hover] at hnum hflags hstky
  rw [Fmt.sign_overflowBits hE, hnan] at hflags
  rw [fltMulSticky, hnan] at hstky
  exact ⟨hnum hnan, hflags, hstky.trans (by simp [Sticky.apply, flagBit])⟩

theorem ProductIn.underflow (hx : x.value = some r) (hpos : 0 < |r|) (hunder : |r| < f.holdsFrom n s.trunc) :
    out = f.encode (decide (r < 0)) 0 0 ∧ MulFlagsAre t y (decide (r < 0)) false true false ∧
      t.stky y = s.stky y ||| 0x100#32 := by
  have hnan := Fl.isNan_of_value hx
  obtain ⟨-, hnum, hflags, hstky⟩ := h
  rw [f.round_underflow hx hpos hunder] at hnum hflags hstky
  rw [Fmt.sign_encode f _ (by positivity) (by positivity), hnan] at hflags
  rw [fltMulSticky, hnan] at hstky
  exact ⟨hnum hnan, hflags, hstky.trans (by simp [Sticky.apply, flagBit])⟩

end

/-- A product with one NAN takes its sign (R908). -/
theorem Fl.mul_nan {a b : Fl} {g : Bool} (h : (a = .nan g ∧ b.isNan = false) ∨ (a.isNan = false ∧ b = .nan g)) :
    a.mul b = .nan g := by
  rcases h with ⟨rfl, hb⟩ | ⟨ha, rfl⟩
  · cases b with
    | nan => exact absurd hb nofun
    | inf | zero | num => rfl
  · cases a with
    | nan => exact absurd ha nofun
    | inf | zero | num => rfl

/-- An instruction that delivers one rounded product on each element is a product row (R908, R909). -/
theorem productRow_of_productIn {i : Instr} {s : State} {regs : List RegNo} {f : Fmt} {res : State → Bool → Nat}
    {a b : Bool → Fl} {va vb : Bool → Option ℚ} {ones : Bool → Nat} {n : Nat} {ok : Nat → Prop} {keeps : State → Prop}
    (hE : 0 < f.ebits) (hn : n ≤ f.frac)
    (hrow : Completes i s fun t =>
      ComputeFrame s t regs mulFlagMask 0x380#32 ∧ keeps t ∧ SameFifo s t ∧
      ∀ y, s.runs y = true → ProductIn s t y f n (res t y) ((a y).mul (b y)) ones)
    (hva : ∀ y, (a y).value = va y) (hvb : ∀ y, (b y).value = vb y)
    (hok : ∀ v, ok v → 2 ^ (f.frac - n) ∣ f.fraction v) : ProductRow i s regs f res a b va vb ones n ok keeps := by
  obtain ⟨t, ht, frame, hkeeps, fifo, row⟩ := hrow
  refine ⟨t, ht, frame, hkeeps, fifo, fun y hy => ?_⟩
  have h := row y hy
  have hval : ∀ {p q : ℚ}, va y = some p → vb y = some q → ((a y).mul (b y)).value = some (p * q) := fun hp hq =>
    Fl.value_mul ((hva y).trans hp) ((hvb y).trans hq)
  refine ⟨fun g g' ha hb => h.invalid hE (by rw [ha, hb]; rfl), fun g hg => h.invalid hE (Fl.mul_nan hg), ?_,
    fun g g' hab => h.inf hE (by rw [hab.1, hab.2]; rfl), ?_, ?_, fun p q v hp hq hne hv hfv hv' => ?_, fun p q hp hq => ?_⟩
  · rintro g g' (⟨ha, hb⟩ | ⟨ha, hb⟩) <;> exact h.invalid hE (by rw [ha, hb]; rfl)
  · rintro g g' k e (⟨ha, hb⟩ | ⟨ha, hb⟩) <;> exact h.inf hE (by rw [ha, hb]; rfl)
  · rintro g g' (⟨ha, hb | ⟨k, e, hb⟩⟩ | ⟨⟨k, e, ha⟩, hb⟩) <;> exact h.zero (by rw [ha, hb]; rfl)
  · exact h.exact (Fl.isNan_of_value (hval hp hq)) (f.round_exact hE hn (hval hp hq) hne hv hfv (hok v hv'))
  · exact ⟨h.overflow hE hn (hval hp hq), h.underflow (hval hp hq)⟩

/-! ### Products of 32- and 40-bit operands -/

/-- The result register of a product: the rounded pattern, or all ones of the boundary for a NAN. -/
def State.productBits (s : State) (x : Fl) : Reg40 :=
  let v := BitVec.ofNat 40 (fmt40.round s.bound s.trunc x).bits
  if x.isNan && s.mode .rnd32 then v &&& 0xFFFFFFFF00#40 else v

theorem toNat_round_bits (s : State) (x : Fl) :
    (BitVec.ofNat 40 (fmt40.round s.bound s.trunc x).bits).toNat = (fmt40.round s.bound s.trunc x).bits := by
  have hlt : (fmt40.round s.bound s.trunc x).bits < 2 ^ 40 := Fmt.round_bits_lt (by decide) s.trunc (bound_le s) x
  rw [BitVec.toNat_ofNat, Nat.mod_eq_of_lt hlt]

theorem productBits_nan (s : State) (g : Bool) :
    (s.productBits (.nan g)).toNat = fmt40.encode g 255 (if s.mode .rnd32 then 2 ^ 31 - 2 ^ 8 else 2 ^ 31 - 1) := by
  have hbits : (fmt40.round s.bound s.trunc (.nan g)).bits = fmt40.encode g 255 (2 ^ 31 - 1) := rfl
  rw [State.productBits, hbits]
  cases s.mode .rnd32 <;> cases g <;> decide

theorem productBits_number (s : State) {x : Fl} (hx : x.isNan = false) :
    (s.productBits x).toNat = (fmt40.round s.bound s.trunc x).bits := by
  rw [State.productBits, hx]
  exact toNat_round_bits s x

/-- An instruction that multiplies one pair of operands on each element (R908). -/
theorem productRow_of_fltMul {i : Instr} {s : State} {rn rx ry : RegNo}
    (hexec : exec i s = .next (s.runAlone fun y => s.fltMul y rn rx ry)) :
    ProductRow i s [rn] fmt40 (fun t y => (t.dreg y rn).toNat) (fun y => s.fl y rx) (fun y => s.fl y ry)
      (fun y => fmt40.value (s.fin y rx)) (fun y => fmt40.value (s.fin y ry))
      (fun g => fmt40.encode g 255 (if s.mode .rnd32 then 2 ^ 31 - 2 ^ 8 else 2 ^ 31 - 1)) s.bound
      (fun v => s.mode .rnd32 = true → v % 256 = 0) (SameMr s) := by
  refine productRow_of_productIn (by decide) (bound_le s) ?_ (fun y => value_fl s y rx) (fun y => value_fl s y ry)
    fun v => dvd_fraction_of_boundary
  obtain ⟨frame, mr, fifo, row⟩ := runAlone_mulReg (s := s) (n := rn) (f := fun y => s.fltMul y rn rx ry)
    (v := fun y => s.productBits ((s.fl y rx).mul (s.fl y ry))) (fun _ => rfl) fun _ => Sticky.mul_frame _ _ _
  refine ⟨_, hexec, frame, mr, fifo, fun y hy => ?_⟩
  obtain ⟨hval, hflags, hstky⟩ := row y hy
  generalize (s.fl y rx).mul (s.fl y ry) = x at hval hflags hstky
  refine ⟨fun g hx => ?_, fun hx => ?_, ?_, hstky⟩
  · rw [hval, hx, productBits_nan]
  · rw [hval, productBits_number s hx]
  · rwa [fltMulFlags, ← sign_toNat, toNat_round_bits] at hflags

/-- Settles O12: both forms round one exact product. -/
theorem floatMultiply : Obligations.FloatMultiply := fun _ _ _ _ => ⟨productRow_of_fltMul rfl, productRow_of_fltMul rfl⟩

end Sys2Proof.Machine
end
